-- ==== Sys2Proof/Word.lean ====
section
/-! DEFINITION. The word types of the Porsil instruction architecture (R6, R27, R28, R54). -/

namespace Sys2Proof

/-- A 32-bit word: one code word, one lane of a vector register (R28, R53). -/
abbrev Word := BitVec 32

/-- A 64-bit word: a scalar register, a special register (R28, R162). -/
abbrev DWord := BitVec 64

/-- One byte of memory. -/
abbrev Byte := BitVec 8

/-- The 32 lanes of a vector register or of a per-lane register, lane 0 first (R28, R172). -/
abbrev Row := List Word

end Sys2Proof
end

