-- ==== Sys2Proof/Config.lean ====
section
/-! DEFINITION. What the manual leaves open: opaque constants, so that no proof sees a value of one. The first `Nat`
argument of a free value is the model's own counter `State.tick`, the second says which value of that step is meant. -/

namespace Sys2Proof.Config

/-- A register lane whose value the manual leaves unspecified (R79): log entry 3. -/
opaque freeWord : Nat → Nat → Word

/-- A choice between an old and a new register value in one lane (R78): log entry 4. -/
opaque freeBit : Nat → Nat → Bool

/-- Which of the permitted neighbours of the exact result an approximate instruction delivers; it depends on the
operation and on the operand bits only (R205): log entry 5. -/
opaque approxPick : Nat → Word → BitVec 2

/-- Which line a full cache gives up (R273, R274, R279): log entry 6. -/
opaque victim : Nat → Nat

/-- The two words that a wild residue vector may leave in an XB8 overlap or another unspecified byte (R367): entry 7. -/
opaque freeByte : Nat → Nat → Byte

/-- A choice that the manual leaves open among several places or numbers (R320, R401 and others): log entry 15. -/
opaque choice : Nat → Nat

/-- A byte that a peer, the host or a storage namespace returns: the target window, the address and the moment
(R416, R422, R423): log entry 8. -/
opaque peerByte : Nat → Nat → Byte

/-- The set of the TLB that a page of a context falls into (R273): log entry 81. -/
opaque tlbSet : Nat → Nat → Nat

/-- Whether the sector of a byte that a peer returns is marked as poisoned: the address and the moment (R117, R420): log
entry 8. -/
opaque peerMark : Nat → Nat → Bool

/-- The next hop that a link port leads to (R414): log entry 34. -/
opaque portHop : Nat → Nat

/-- The next hop on the way to a device (R414): log entry 34. -/
opaque nextHop : Nat → Nat

/-- The hash of target device and line that spreads requests over the ports of a trunk (R414): log entry 34. -/
opaque linkHash : Nat → Nat → Nat

/-- A sample of a decoded video frame: the bytes of the stream, frame, plane, row and column (R368): log entry 9. -/
opaque videoSample : List Byte → Nat → Nat → Nat → Nat → BitVec 16

/-- Whether a frame of a stream exists and decodes without a bitstream error: the bytes, whether the codec is HEVC, luma
width and height, frame (R368): log entry 9. -/
opaque videoFrameOk : List Byte → Bool → Nat → Nat → Nat → Bool

/-- Whether a frame of a stream depends on a byte of it (R368): log entry 9. -/
opaque videoUses : List Byte → Nat → Nat → Bool

/-- The check of an SM2 signature against the fused key: digest and signature (R24): log entry 10. -/
opaque sigVerifies : BitVec 256 → BitVec 512 → Bool

/-- The SM2 signature that the device key gives 320 bytes (R25): log entry 10. -/
opaque sign : List Byte → BitVec 512

/-- The device serial number (R25): log entry 10. -/
opaque serial : BitVec 128

/-- The SM3 digest of an image that no update has replaced: boot, service-core, front-end, link-controller (R25): log
entry 10. -/
opaque imageDigest : Nat → BitVec 256

/-- The SM3 digest of the fuse configuration, by the parts whose retirement fuse is written (R23, R25): log entry 10. -/
opaque fuseDigest : List Nat → BitVec 256

/-- The value that bring-up step 2 draws from the random source, by the number of the reset (R25): log entry 10. -/
opaque bootid : Nat → DWord

/-- The turn that the surroundings choose when none is queued: it stands for arbitration, timing and every outside
event (log entry 1). The three numbers are the time that passes in nanoseconds, a core and a lathe. -/
opaque turn : Nat → Nat × Nat × Nat

/-- The fused rollback counter (R24): log entry 10. -/
opaque rollbackCounter : Nat

end Sys2Proof.Config
end

