-- ==== Sys2Proof/Syntax.lean ====
section
/-! DEFINITION. The steps of the machine: one constructor for each row of spec/opcode_table.json. A row with an encoding
carries the fields of its instruction word (R59 to R67); a row that is an event carries what the event says. -/

namespace Sys2Proof

/-- Format VR (R60): destination, first source, last-use marks, operand code of the second source, stall count and the
literal word that follows when B is 127 (R63). -/
structure VR where
  d : BitVec 6
  a : BitVec 6
  la : Bool
  b : BitVec 7
  lb : Bool
  stall : BitVec 3
  lit : Option Word
  deriving DecidableEq, Repr

/-- Format VX (R62): a VR word and its extension word. -/
structure VX where
  v : VR
  rm : BitVec 3
  sub : BitVec 5
  k : BitVec 8
  fl : BitVec 4
  mbz : BitVec 12
  deriving DecidableEq, Repr

/-- Format SR (R64). In SA 0x1B to 0x1F bits [2:0] are DC in place of STALL (R309). -/
structure SR where
  d : BitVec 7
  a : BitVec 7
  b : BitVec 7
  stall : BitVec 3
  lit : Option Word
  deriving DecidableEq, Repr

/-- Format MX (R66). -/
structure MX where
  data : BitVec 6
  off : BitVec 6
  base : BitVec 7
  dc : BitVec 3
  sz : BitVec 2
  deriving DecidableEq, Repr

/-- Shape CXN (R67): bits [23:0] must be zero. -/
structure CXN where
  mbz : BitVec 24
  deriving DecidableEq, Repr

/-- Shape CXJ (R67). -/
structure CXJ where
  off : BitVec 24
  deriving DecidableEq, Repr

/-- Shape CXB (R67). -/
structure CXB where
  reg : BitVec 7
  cond : BitVec 2
  off : BitVec 15
  deriving DecidableEq, Repr

/-- Shape CXL (R67). -/
structure CXL where
  link : BitVec 6
  off : BitVec 18
  deriving DecidableEq, Repr

/-- Shape CXR (R67), with the literal word that follows when P or Q is 127 (R63). -/
structure CXR where
  p : BitVec 7
  q : BitVec 7
  imm : BitVec 10
  lit : Option Word
  deriving DecidableEq, Repr

/-- The kinds of parts that bring-up and live service act on (R13, R143). -/
inductive PartKind where
  | core | channelDie | l2Slice | hbmStack | linkPort | tsBank | bus | spadLayer | spadBank | firmware
  deriving DecidableEq, Repr

/-- A part, by its kind and its index of R13 (a bus: tower x 1,984 + number of R428; a scratchpad bank: core x 16 + bank of
R220). -/
structure PartRef where
  kind : PartKind
  idx : Nat
  deriving DecidableEq, Repr

/-- What a bring-up step found (R18, R19): the parts that failed its test, the failing lanes of buses (bus, lane), and the
step's own failing case if it has one. -/
structure StepReport where
  failed : List PartRef
  lanes : List (Nat × Nat)
  fuseOk : Bool
  image : Option (Nat × Bool)
  homeChannelsLock : Bool
  deriving DecidableEq, Repr

/-- A firmware image offered for update (R24): the service core that takes it, which of the four images of R25 it is,
its version, digest and signature. -/
structure FirmwareImage where
  core : Nat
  kind : Nat
  version : Nat
  digest : BitVec 256
  signature : BitVec 512
  deriving DecidableEq, Repr

/-- A context create request (R86); the code base is R53's. -/
structure CreateReq where
  ctx : Nat
  ptRoot : Nat
  profile : Nat
  ctxcfg : DWord
  codeBase : Nat
  saveBase : Nat
  saveSize : Nat
  snapBase : Nat
  snapSize : Nat
  deriving DecidableEq, Repr

/-- A queue create request (R127). -/
structure QueueReq where
  ctx : Nat
  ring : Nat
  logsz : Nat
  prio : Nat
  tower : Nat
  qcb : Nat
  deriving DecidableEq, Repr

/-- An entry of the inbound peer table (R419): base and length in units of 64 KiB, and W. -/
structure InboundEntry where
  base : Nat
  len : Nat
  w : Bool
  deriving DecidableEq, Repr

/-- What an inbound peer request does (R415); a write carries the poison marks of its bytes (R117). -/
inductive InboundOp where
  | read | write (bytes : List Byte) (marks : List Bool) | atomic (op : Nat) (w64 : Bool) (a b : DWord)
  deriving DecidableEq, Repr

/-- An inbound peer request: initiator, target address, size and operation (R415, R419). -/
structure InboundReq where
  dev : Nat
  addr : Nat
  size : Nat
  op : InboundOp
  deriving DecidableEq, Repr

/-- An error found in an array by the patrol (R438, R439). -/
structure ArrayError where
  layer : Nat
  bank : Nat
  row : Nat
  word : Nat
  bit : Option Nat
  deriving DecidableEq, Repr

/-- A task queue create request (R378). -/
structure TaskQueueReq where
  ctx : Nat
  cluster : Nat
  ring : Nat
  logsz : Nat
  deriving DecidableEq, Repr

/-- A tile task: cluster, queue of the cluster and record number (R378, R402). -/
structure TaskRef where
  cluster : Nat
  queue : Nat
  n : Nat
  deriving DecidableEq, Repr

/-- A tensor create request (R371). -/
structure TensorReq where
  ctx : Nat
  esz : Nat
  ndim : Nat
  dims : List Nat
  layout : Nat
  tower : Nat
  deriving DecidableEq, Repr

/-- A decode session request (R368). -/
structure SessionReq where
  tower : Nat
  ctx : Nat
  hevc : Bool
  tenBit : Bool
  va : Nat
  len : Nat
  w : Nat
  h : Nat
  deriving DecidableEq, Repr

/-- A service request about a tower's home frame table (R281): where the table lies, or the entry of the frame at an
address. -/
inductive FrameReq where
  | place (tower base : Nat)
  | setEntry (frame state ptr : Nat)
  deriving DecidableEq, Repr

/-- What an event says beside numbers. -/
inductive EventBody where
  | none
  | step (r : StepReport)
  | part (p : PartRef)
  | image (i : FirmwareImage)
  | nonce (n : BitVec 256)
  | profile (d : BitVec 128)
  | create (r : CreateReq)
  | dword (v : DWord)
  | queue (r : QueueReq)
  | inboundEntry (e : InboundEntry)
  | inbound (r : InboundReq)
  | errors (l : List ArrayError)
  | nats (l : List Nat)
  | taskQueue (r : TaskQueueReq)
  | task (t : TaskRef)
  | tensor (r : TensorReq)
  | session (r : SessionReq)
  | frame (r : FrameReq)
  deriving DecidableEq, Repr

/-- The operands of an event: up to three numbers, a flag, and a body, as the event's constructor of `Instr` says. The
machine holds those of the event that occurs in `State.arg`. -/
structure EventArg where
  a : Nat
  b : Nat
  c : Nat
  flag : Bool
  body : EventBody
  deriving DecidableEq, Repr

/-- The steps of the machine, one constructor for each row of spec/opcode_table.json: first the instructions, with the
fields of their words, then the events, whose operands stand in `State.arg` in the order that the docstring names. -/
inductive Instr where
  /-- IADD (R192). -/
  | iadd (f : VR)
  /-- ISUB (R192). -/
  | isub (f : VR)
  /-- IMUL (R192). -/
  | imul (f : VR)
  /-- IMULH_I (R192). -/
  | imulhI (f : VR)
  /-- IMULH_N (R192). -/
  | imulhN (f : VR)
  /-- IMAD (R192). -/
  | imad (f : VR)
  /-- IMIN_I (R193). -/
  | iminI (f : VR)
  /-- IMIN_N (R193). -/
  | iminN (f : VR)
  /-- IMAX_I (R193). -/
  | imaxI (f : VR)
  /-- IMAX_N (R193). -/
  | imaxN (f : VR)
  /-- IABS (R193). -/
  | iabs (f : VR)
  /-- INEG (R193). -/
  | ineg (f : VR)
  /-- AND (R193). -/
  | vand (f : VR)
  /-- OR (R193). -/
  | vor (f : VR)
  /-- XOR (R193). -/
  | vxor (f : VR)
  /-- ANDN (R193). -/
  | vandn (f : VR)
  /-- SHL (R194). -/
  | shl (f : VR)
  /-- SHR (R194). -/
  | shr (f : VR)
  /-- SAR (R194). -/
  | sar (f : VR)
  /-- ROL (R194). -/
  | rol (f : VR)
  /-- BFE_I (R195). -/
  | bfeI (f : VR)
  /-- BFE_N (R195). -/
  | bfeN (f : VR)
  /-- BFI (R195). -/
  | bfi (f : VR)
  /-- POPC (R196). -/
  | popc (f : VR)
  /-- CLZ (R196). -/
  | clz (f : VR)
  /-- BREV (R196). -/
  | brev (f : VR)
  /-- ICEQ (R197). -/
  | iceq (f : VR)
  /-- ICNE (R197). -/
  | icne (f : VR)
  /-- ICLT_I (R197). -/
  | icltI (f : VR)
  /-- ICLT_N (R197). -/
  | icltN (f : VR)
  /-- ICLE_I (R197). -/
  | icleI (f : VR)
  /-- ICLE_N (R197). -/
  | icleN (f : VR)
  /-- SEL (R198). -/
  | sel (f : VR)
  /-- VMOV (R198). -/
  | vmov (f : VR)
  /-- FADD (R199). -/
  | fadd (f : VX)
  /-- FSUB (R199). -/
  | fsub (f : VX)
  /-- FMUL (R199). -/
  | fmul (f : VX)
  /-- FFMA (R199). -/
  | ffma (f : VX)
  /-- FMIN (R201). -/
  | fmin (f : VR)
  /-- FMAX (R201). -/
  | fmax (f : VR)
  /-- FABS (R202). -/
  | fabs (f : VR)
  /-- FNEG (R202). -/
  | fneg (f : VR)
  /-- FCEQ (R203). -/
  | fceq (f : VR)
  /-- FCLT (R203). -/
  | fclt (f : VR)
  /-- FCLE (R203). -/
  | fcle (f : VR)
  /-- FCUN (R203). -/
  | fcun (f : VR)
  /-- FRCP (R205). -/
  | frcp (f : VR)
  /-- FRSQ (R205). -/
  | frsq (f : VR)
  /-- FSQRT (R204). -/
  | fsqrt (f : VX)
  /-- FEXP2 (R205). -/
  | fexp2 (f : VR)
  /-- FLOG2 (R205). -/
  | flog2 (f : VR)
  /-- FSINP (R205). -/
  | fsinp (f : VR)
  /-- FCOSP (R205). -/
  | fcosp (f : VR)
  /-- BADD2 (R207). -/
  | badd2 (f : VX)
  /-- BMUL2 (R207). -/
  | bmul2 (f : VX)
  /-- BFMA2 (R207). -/
  | bfma2 (f : VX)
  /-- DADD (R208). -/
  | dadd (f : VX)
  /-- DMUL (R208). -/
  | dmul (f : VX)
  /-- DFMA (R208). -/
  | dfma (f : VX)
  /-- CVT (R209). -/
  | cvt (f : VX)
  /-- BFPCVT (R212). -/
  | bfpcvt (f : VX)
  /-- BFPCVT_EXPAND (R213). -/
  | bfpcvtExpand (f : VX)
  /-- RESC (R215). -/
  | resc (f : VX)
  /-- MODOP (R216). -/
  | modop (f : VX)
  /-- FCLASS (R206). -/
  | fclass (f : VR)
  /-- SADD (R218). -/
  | sadd (f : SR)
  /-- SSUB (R218). -/
  | ssub (f : SR)
  /-- SMUL (R218). -/
  | smul (f : SR)
  /-- SMULH_I (R218). -/
  | smulhI (f : SR)
  /-- SMULH_N (R218). -/
  | smulhN (f : SR)
  /-- SAND (R218). -/
  | sand (f : SR)
  /-- SOR (R218). -/
  | sor (f : SR)
  /-- SXOR (R218). -/
  | sxor (f : SR)
  /-- SSHL (R218). -/
  | sshl (f : SR)
  /-- SSHR (R218). -/
  | sshr (f : SR)
  /-- SSAR (R218). -/
  | ssar (f : SR)
  /-- SMIN_I (R218). -/
  | sminI (f : SR)
  /-- SMIN_N (R218). -/
  | sminN (f : SR)
  /-- SMAX_I (R218). -/
  | smaxI (f : SR)
  /-- SMAX_N (R218). -/
  | smaxN (f : SR)
  /-- SCEQ (R218). -/
  | sceq (f : SR)
  /-- SCLT_I (R218). -/
  | scltI (f : SR)
  /-- SCLT_N (R218). -/
  | scltN (f : SR)
  /-- SSEL (R218). -/
  | ssel (f : SR)
  /-- SMOV (R218). -/
  | smov (f : SR)
  /-- SBFE (R219). -/
  | sbfe (f : SR)
  /-- SPOPC (R218). -/
  | spopc (f : SR)
  /-- SCLZ (R218). -/
  | sclz (f : SR)
  /-- SRDL (R167). -/
  | srdl (f : SR)
  /-- SRDSR (R164). -/
  | srdsr (f : SR)
  /-- SWRSR (R165). -/
  | swrsr (f : SR)
  /-- SFIRST (R166). -/
  | sfirst (f : SR)
  /-- SLDK (R310). -/
  | sldk (f : SR)
  /-- SLDG (R310). -/
  | sldg (f : SR)
  /-- SSTG (R310). -/
  | sstg (f : SR)
  /-- SAADD (R310). -/
  | saadd (f : SR)
  /-- SACAS (R310). -/
  | sacas (f : SR)
  /-- LDG (R306). -/
  | ldg (f : MX)
  /-- LDGB (R307). -/
  | ldgb (f : MX)
  /-- STG (R306). -/
  | stg (f : MX)
  /-- STGB (R307). -/
  | stgb (f : MX)
  /-- LDS (R242). -/
  | lds (f : MX)
  /-- LDSB (R243). -/
  | ldsb (f : MX)
  /-- STS (R242). -/
  | sts (f : MX)
  /-- STSB (R243). -/
  | stsb (f : MX)
  /-- LDK (R308). -/
  | ldk (f : MX)
  /-- AADD (R313). -/
  | aadd (f : MX)
  /-- AMIN_I (R313). -/
  | aminI (f : MX)
  /-- AMIN_N (R313). -/
  | aminN (f : MX)
  /-- AMAX_I (R313). -/
  | amaxI (f : MX)
  /-- AMAX_N (R313). -/
  | amaxN (f : MX)
  /-- AAND (R313). -/
  | aand (f : MX)
  /-- AOR (R313). -/
  | aor (f : MX)
  /-- AXOR (R313). -/
  | axor (f : MX)
  /-- AXCHG (R313). -/
  | axchg (f : MX)
  /-- ACAS (R313). -/
  | acas (f : MX)
  /-- AFADD (R315). -/
  | afadd (f : MX)
  /-- AINCW (R313). -/
  | aincw (f : MX)
  /-- GATHER (R317). -/
  | gather (f : MX)
  /-- SCATTER (R317). -/
  | scatter (f : MX)
  /-- PREF (R318). -/
  | pref (f : MX)
  /-- ACQ (R321). -/
  | acq (f : MX)
  /-- REL (R322). -/
  | rel (f : MX)
  /-- FENCE (R324). -/
  | fence (f : MX)
  /-- LIDBIND (R320). -/
  | lidbind (f : MX)
  /-- LIDUNB (R320). -/
  | lidunb (f : MX)
  /-- SEAL (R325). -/
  | seal (f : MX)
  /-- UNSEAL (R326). -/
  | unseal (f : MX)
  /-- CINV (R300). -/
  | cinv (f : MX)
  /-- SPALLOC (R244). -/
  | spalloc (f : MX)
  /-- SPFREE (R245). -/
  | spfree (f : MX)
  /-- SPRENEW (R246). -/
  | sprenew (f : MX)
  /-- SPQUERY (R247). -/
  | spquery (f : MX)
  /-- CBCFG (R248). -/
  | cbcfg (f : MX)
  /-- CBWAIT (R249). -/
  | cbwait (f : MX)
  /-- CBREL (R250). -/
  | cbrel (f : MX)
  /-- NPUSH (R261). -/
  | npush (f : MX)
  /-- NPOP (R262). -/
  | npop (f : MX)
  /-- NPEEK (R262). -/
  | npeek (f : MX)
  /-- NPSTAT (R263). -/
  | npstat (f : MX)
  /-- SHFL (R348). -/
  | shfl (f : MX)
  /-- VOTE (R349). -/
  | vote (f : MX)
  /-- REDUX (R350). -/
  | redux (f : MX)
  /-- REDUX_LONG (R351). -/
  | reduxLong (f : MX)
  /-- PRFX (R350). -/
  | prfx (f : MX)
  /-- PRFX_LONG (R351). -/
  | prfxLong (f : MX)
  /-- CPG2S (R357). -/
  | cpg2s (f : MX)
  /-- CPS2G (R357). -/
  | cps2g (f : MX)
  /-- CPMC (R357). -/
  | cpmc (f : MX)
  /-- CPXF (R365). -/
  | cpxf (f : MX)
  /-- CPT2S (R374). -/
  | cpt2s (f : MX)
  /-- CPS2T (R374). -/
  | cps2t (f : MX)
  /-- CSEAL (R360). -/
  | cseal (f : MX)
  /-- CWAIT (R361). -/
  | cwait (f : MX)
  /-- TTQ (R391). -/
  | ttq (f : MX)
  /-- TTQ_MEM (R391). -/
  | ttqMem (f : MX)
  /-- SIGADD (R345). -/
  | sigadd (f : MX)
  /-- SIGWAIT (R345). -/
  | sigwait (f : MX)
  /-- SQADD (R151). -/
  | sqadd (f : MX)
  /-- SQTAKE (R151). -/
  | sqtake (f : MX)
  /-- NOP (R176). -/
  | nop (f : CXN)
  /-- BRA (R177). -/
  | bra (f : CXJ)
  /-- BRV (R177). -/
  | brv (f : CXB)
  /-- BRS (R177). -/
  | brs (f : CXB)
  /-- BRX (R178). -/
  | brx (f : CXR)
  /-- CALL (R179). -/
  | call (f : CXL)
  /-- CALLI (R179). -/
  | calli (f : CXR)
  /-- RET (R180). -/
  | ret (f : CXR)
  /-- EXIT (R181). -/
  | exit (f : CXN)
  /-- YIELD (R182). -/
  | yield (f : CXN)
  /-- SLEEP (R183). -/
  | sleep (f : CXR)
  /-- BAR (R339). -/
  | bar (f : CXR)
  /-- BARA (R339). -/
  | bara (f : CXR)
  /-- BARW (R339). -/
  | barw (f : CXR)
  /-- BCARM (R341). -/
  | bcarm (f : CXR)
  /-- BCWAIT (R341). -/
  | bcwait (f : CXR)
  /-- TREDUCE (R343). -/
  | treduce (f : CXR)
  /-- LAUNCH (R152). -/
  | launch (f : CXR)
  /-- CANCEL (R153). -/
  | cancel (f : CXR)
  /-- TRAP (R100). -/
  | trap (f : CXR)
  /-- RTE (R101). -/
  | rte (f : CXN)
  /-- CHKERR (R104). -/
  | chkerr (f : CXR)
  /-- PCVRD (R102). -/
  | pcvrd (f : CXR)
  /-- PCVWR (R103). -/
  | pcvwr (f : CXR)
  /-- RDCONT (R410). -/
  | rdcont (f : CXR)
  /-- FLTINJ (R411). -/
  | fltinj (f : CXR)
  /-- TLBINV (R302). -/
  | tlbinv (f : CXR)
  /-- L2WB (R303). -/
  | l2wb (f : CXR)
  /-- BKPT (R100). -/
  | bkpt (f : CXR)
  /-- HALT (R105). -/
  | halt (f : CXN)
  /-- CKPT (R123). -/
  | ckpt (f : CXN)
  /-- POWER_GOOD (R17). -/
  | powerGood
  /-- RESET (R17). -/
  | reset
  /-- BRINGUP_STEP_END (R17); operands body: r. -/
  | bringupStepEnd
  /-- BRINGUP_STEP_TIMEOUT (R17). -/
  | bringupStepTimeout
  /-- CONTROL_DIE_ERROR (R17). -/
  | controlDieError
  /-- PART_LOST (R17); operands body: p. -/
  | partLost
  /-- SERVICE_ACTION_COMPLETE (R22); operands body: p. -/
  | serviceActionComplete
  /-- CHANNEL_DIE_RETIRE (R406); operands a: die. -/
  | channelDieRetire
  /-- DIE_REBUILD (R408); operands a: tower. -/
  | dieRebuild
  /-- DIE_RETIRED (R406); operands a: tower. -/
  | dieRetired
  /-- RETIRECNT_SET (R407); operands a: tower; b: n. -/
  | retirecntSet
  /-- BUS_LANE_RECALIBRATE (R21); operands a: bus; b: lane; flag: swap. -/
  | busLaneRecalibrate
  /-- SLICE_RETIRE (R280); operands a: slice. -/
  | sliceRetire
  /-- SLICE_FORWARD (R280); operands a: slice; b: line. -/
  | sliceForward
  /-- SLICE_HANDOVER (R280); operands a: slice; b: line. -/
  | sliceHandover
  /-- SLICE_OFF (R280); operands a: slice. -/
  | sliceOff
  /-- TS_BANK_FENCE (R21); operands a: bank. -/
  | tsBankFence
  /-- TS_BANK_RETIRE (R21); operands a: bank. -/
  | tsBankRetire
  /-- HBM_STACK_RETIRE (R21); operands a: stack. -/
  | hbmStackRetire
  /-- FIRMWARE_UPDATE (R24); operands body: img. -/
  | firmwareUpdate
  /-- ATTESTATION_REQUEST (R25); operands body: nonce. -/
  | attestationRequest
  /-- MANAGEMENT_WINDOW_READ (R421); operands a: off. -/
  | managementWindowRead
  /-- PROFILE_WRITE (R50); operands a: idx; body: desc. -/
  | profileWrite
  /-- CONTEXT_CREATE (R87); operands body: req. -/
  | contextCreate
  /-- CONTEXT_DESTROY (R87); operands a: ctx. -/
  | contextDestroy
  /-- CONTEXT_RELEASED (R87); operands a: ctx. -/
  | contextReleased
  /-- CTXCFG_SET (R89); operands a: ctx; body: v. -/
  | ctxcfgSet
  /-- PARK_TIMEOUT (R87); operands a: ctx. -/
  | parkTimeout
  /-- PARK_RENEWAL (R234); operands a: ctx. -/
  | parkRenewal
  /-- QUEUE_CREATE (R127); operands body: req. -/
  | queueCreate
  /-- QUEUE_ACTIVATE (R129); operands a: q. -/
  | queueActivate
  /-- QUEUE_SUSPEND (R129); operands a: q. -/
  | queueSuspend
  /-- QUEUE_RESUME (R129); operands a: q. -/
  | queueResume
  /-- QUEUE_DESTROY (R129); operands a: q. -/
  | queueDestroy
  /-- TAIL_OBSERVE (R131); operands a: q. -/
  | tailObserve
  /-- RECORD_READ (R132); operands a: q. -/
  | recordRead
  /-- ADMISSION (R133); operands a: launch. -/
  | admission
  /-- DEPENDENCE_MET (R145); operands a: launch. -/
  | dependenceMet
  /-- DISPATCH_TEAM (R135); operands a: tower. -/
  | dispatchTeam
  /-- TEAM_SAVE (R106); operands a: team. -/
  | teamSave
  /-- DEFERRAL_TIMEOUT (R107); operands a: team. -/
  | deferralTimeout
  /-- BACKPRESSURE_TIMEOUT (R150); operands a: team. -/
  | backpressureTimeout
  /-- HALT_RESUME (R105); operands a: team. -/
  | haltResume
  /-- HELD_TEAM_CANCEL (R105); operands a: team. -/
  | heldTeamCancel
  /-- CANCELLATION_OBSERVED (R153); operands a: launch. -/
  | cancellationObserved
  /-- LAUNCH_DRAINED (R145); operands a: launch. -/
  | launchDrained
  /-- CLAUSE_FETCH (R53); operands a: gid. -/
  | clauseFetch
  /-- HALT_ARRIVAL (R94); operands a: gid. -/
  | haltArrival
  /-- SSTEP_TRAP (R99); operands a: gid. -/
  | sstepTrap
  /-- ROW_GRANT (R158); operands a: core. -/
  | rowGrant
  /-- ROW_SPILL (R159); operands a: core. -/
  | rowSpill
  /-- ROW_DROWSY (R161); operands a: gid; b: v. -/
  | rowDrowsy
  /-- GROUP_RELEASE (R155); operands a: gid. -/
  | groupRelease
  /-- COUNTED_OP_COMPLETE (R168); operands a: gid; b: op. -/
  | countedOpComplete
  /-- SHADOW_MISMATCH (R120); operands a: gid. -/
  | shadowMismatch
  /-- SHADOW_LAG_TIMEOUT (R120); operands a: gid. -/
  | shadowLagTimeout
  /-- SLEEP_EXPIRY (R183); operands a: gid. -/
  | sleepExpiry
  /-- PORT_ENTRY_ARRIVAL (R257); operands a: gid; b: q; flag: freed. -/
  | portEntryArrival
  /-- PORT_WAIT_MET (R258); operands a: gid. -/
  | portWaitMet
  /-- PORT_TIMEOUT (R258); operands a: gid. -/
  | portTimeout
  /-- BARRIER_RELEASE (R337); operands a: team; b: b. -/
  | barrierRelease
  /-- TREDUCE_RELEASE (R343); operands a: team. -/
  | treduceRelease
  /-- BCWAIT_MET (R341); operands a: gid. -/
  | bcwaitMet
  /-- LID_GRANT (R321); operands a: gid. -/
  | lidGrant
  /-- SIGNAL_OBSERVED (R345); operands a: gid. -/
  | signalObserved
  /-- STAGE_QUEUE_WAIT_MET (R151); operands a: gid. -/
  | stageQueueWaitMet
  /-- SLOT_LANDED (R235); operands a: core; b: buf. -/
  | slotLanded
  /-- COPY_COMPLETE (R359); operands a: copy. -/
  | copyComplete
  /-- RETN_PUBLISH (R224); operands a: core; b: us; c: tj. -/
  | retnPublish
  /-- MIRROR_ACK_TIMEOUT (R121); operands a: id. -/
  | mirrorAckTimeout
  /-- FAULT_RING_SET (R283); operands a: ctx; b: addr; c: k. -/
  | faultRingSet
  /-- RESOLVE (R284); operands a: ctx; b: va; flag: ok. -/
  | resolve
  /-- RECODE (R297); operands a: src; b: dst; c: the line map of a compressed dst. -/
  | recode
  /-- MIGRATE (R298); operands a: src; b: dst; c: the line map of a compressed dst. -/
  | migrate
  /-- RELEASE (R299); operands a: src. -/
  | release
  /-- L2_EVICTION_WRITEBACK (R292); operands a: line. -/
  | l2EvictionWriteback
  /-- CHUNK_LIST_FILL (R294); operands a: tower; b: base; c: n. -/
  | chunkListFill
  /-- CHUNK_LIST_DRAIN (R294); operands a: tower; b: n. -/
  | chunkListDrain
  /-- RESERVE_SET (R294); operands a: tower; b: n. -/
  | reserveSet
  /-- CHUNK_RESERVE_REPLAY (R294); operands a: tower. -/
  | chunkReserveReplay
  /-- HOTIDLE_SET (R293); operands a: tower; b: us. -/
  | hotidleSet
  /-- WINDOW_TABLE_WRITE (R417); operands a: w; body: v. -/
  | windowTableWrite
  /-- INBOUND_TABLE_WRITE (R419); operands a: i; body: e. -/
  | inboundTableWrite
  /-- INBOUND_REQUEST (R419); operands body: req. -/
  | inboundRequest
  /-- INBOUND_MESSAGE_REQUEST (R415); operands a: dev. -/
  | inboundMessageRequest
  /-- PEER_FAULT_RESPONSE (R424); operands a: id; b: sub. -/
  | peerFaultResponse
  /-- PEER_TIMEOUT (R424); operands a: id. -/
  | peerTimeout
  /-- PORT_TRAINED (R426); operands a: port. -/
  | portTrained
  /-- TRAINING_TIMEOUT (R426); operands a: port. -/
  | trainingTimeout
  /-- LINK_ERROR_RETRAIN (R426); operands a: port. -/
  | linkErrorRetrain
  /-- RETRAIN_DONE (R426); operands a: port. -/
  | retrainDone
  /-- RETRAIN_TIMEOUT (R426); operands a: port. -/
  | retrainTimeout
  /-- LINK_FENCE (R426); operands a: port. -/
  | linkFence
  /-- LINK_RETURN (R426); operands a: port. -/
  | linkReturn
  /-- LINK_RETIRE (R426); operands a: port. -/
  | linkRetire
  /-- BUS_RETRAIN_DUE (R431); operands a: bus. -/
  | busRetrainDue
  /-- BUS_RETRAIN_START (R432); operands a: bus. -/
  | busRetrainStart
  /-- BUS_RETRAIN_DONE (R435); operands a: bus. -/
  | busRetrainDone
  /-- BURST_RETRY (R433); operands a: bus; body: lanes; b: dir; flag: the same burst failed again. -/
  | burstRetry
  /-- LANE_REPAIR_START (R434); operands a: bus; b: lane. -/
  | laneRepairStart
  /-- QUIESCE_DONE (R435); operands a: bus. -/
  | quiesceDone
  /-- REPAIR_DONE (R435); operands a: bus; flag: ok. -/
  | repairDone
  /-- PATROL_SCRUB (R438); operands a: tower; body: errs. -/
  | patrolScrub
  /-- TOKEN_REGENERATE (R441); operands a: chan. -/
  | tokenRegenerate
  /-- HEATER_TRIM (R442); operands a: tower; body: lost. -/
  | heaterTrim
  /-- DEBUG_REGISTER_READ (R161); operands a: gid; b: reg; c: lane. -/
  | debugRegisterRead
  /-- TASK_QUEUE_CREATE (R378); operands body: req. -/
  | taskQueueCreate
  /-- TASK_QUEUE_DESTROY (R378); operands a: cluster; b: q. -/
  | taskQueueDestroy
  /-- TASK_WINDOW_ENTRY (R385); operands body: t. -/
  | taskWindowEntry
  /-- TASK_READY (R383); operands body: t. -/
  | taskReady
  /-- TASK_START (R385); operands body: t. -/
  | taskStart
  /-- NOTE (R387); operands body: t. -/
  | note
  /-- ZERO (R386); operands body: t. -/
  | zero
  /-- LOADB (R386); operands body: t. -/
  | loadb
  /-- MMA (R386); operands body: t. -/
  | mma
  /-- MMAG (R386); operands body: t. -/
  | mmag
  /-- DRAIN (R387); operands body: t. -/
  | drain
  /-- ACCLD (R386); operands body: t. -/
  | accld
  /-- ACCST (R387); operands body: t. -/
  | accst
  /-- TASK_END (R388); operands body: t. -/
  | taskEnd
  /-- TENSOR_CREATE (R371); operands body: req. -/
  | tensorCreate
  /-- TENSOR_DESTROY (R371); operands a: ctx; b: idx. -/
  | tensorDestroy
  /-- DECODE_SESSION_OPEN (R368); operands body: req. -/
  | decodeSessionOpen
  /-- DECODE_SESSION_CLOSE (R368); operands a: tower; b: session. -/
  | decodeSessionClose
  /-- COPY_PIECE_LANDED (R340); operands a: copy; b: lo; c: len. -/
  | copyPieceLanded
  /-- MIRROR_ACKNOWLEDGEMENT (R121); operands a: id. -/
  | mirrorAcknowledgement
  /-- FAULT_RING_HEAD_ADVANCE (R283); operands a: ctx; b: head. -/
  | faultRingHeadAdvance
  /-- DEVICE_NUMBER_ASSIGN (R415); operands a: n; flag: bridge. -/
  | deviceNumberAssign
  /-- CORE_CLOCK_THROTTLE (R224); operands a: tower; flag: on. -/
  | coreClockThrottle
  /-- FRAME_TABLE_SET (R281); operands body: req. -/
  | frameTableSet
  deriving DecidableEq, Repr

end Sys2Proof
end

