-- ==== Sys2Proof/Machine/State.lean ====
section
/-! DEFINITION. The state of the machine: everything the manual gives the device, as plain data, and the device right
after reset. A part that has never changed stands in no table and reads as its fresh value. -/

namespace Sys2Proof.Machine

/-- A finite table, keyed by number, keys rising. -/
abbrev Tbl (α : Type) := List (Nat × α)

/-! ## The device (R16 to R26) -/

/-- Device states (R17). -/
inductive DevState where
  | off | bringup | ready | failed
  deriving DecidableEq, Repr

/-- What a live service action does to its part (R21). -/
inductive Action where
  | fence | retire | recalibrate | swap (lane : Nat) | restore | update (img : FirmwareImage) | repair
  deriving DecidableEq, Repr

/-- A service action asked for, in the order of requests; the first of each part is in progress (R22). -/
structure ActionReq where
  part : PartRef
  act : Action
  deriving DecidableEq, Repr

/-- Status words that answer requests (R20, R24, R50, R87, R127, R280, R294, R368, R371, R406, R417, R457). -/
inductive Status where
  | ok | notReady | sigFail | rollback | badProf | inUse | busy | badReq | badState | tooMany | badQ | floor | badRes
  | noSpace | badWin | unalloc | faultResponse | unsupported
  deriving DecidableEq, Repr

/-- The answer to a request: its status, the bytes it returns, little-endian, and which of them lie in poisoned sectors
(R420). -/
structure Response where
  status : Status
  value : List Byte
  marks : List Bool
  deriving DecidableEq, Repr

/-- Interrupts of the driver and of the service cores. -/
inductive Irq where
  | contextFault (ctx : Nat)      -- R87
  | queueError (q : Nat)          -- R129
  | reserve (tower : Nat)         -- R294
  | linkFenced (port : Nat)       -- R426
  deriving DecidableEq, Repr

/-- An entry of the transfer log (R439). -/
structure XferLog where
  time : Nat
  tower : Nat
  kind : Nat
  bus : Nat
  lane : Nat
  dir : Nat
  count : Nat
  deriving DecidableEq, Repr

/-- An entry of the array log (R439). -/
structure ArrayLog where
  time : Nat
  tower : Nat
  kind : Nat
  layer : Nat
  bank : Nat
  bit : Nat
  core : Nat
  row : Nat
  word : Nat
  deriving DecidableEq, Repr

/-- Other entries of the service cores' logs (R144, R400, R403, R415, R424). -/
inductive SvcLog where
  | endBlock (addr : Nat)
  | contain (cluster : Nat) (c0 c1 : DWord)
  | message (dev : Nat)
  | peer (initiator target addr sub : Nat)
  /-- A register error (R118): group, register (vector registers 0 to 63, then scalar registers) and lane. -/
  | register (gid reg lane : Nat)
  deriving DecidableEq, Repr

/-- The device as a whole: DEVSTAT's fields (R16), the retired-part map and the fences (R13, R25), the fuses (R23),
the images (R24), the attestation report (R25, R421), the profile descriptors (R49), the window and inbound tables
(R417, R419), the device number (R415) and the service actions (R22). -/
structure Device where
  st : DevState
  degraded : Bool
  step : Nat
  /-- When the current step of bring-up began (R17). -/
  stepAt : Nat
  failStep : Nat
  failCode : Nat
  chLive : Nat
  epoch : Nat
  /-- The number of this reset, which names BOOTID (R25). -/
  boot : Nat
  mapped : List PartRef
  fenced : List PartRef
  fuses : List PartRef
  images : List FirmwareImage
  report : List Byte
  profiles : Tbl (BitVec 128)
  windows : Tbl DWord
  inbound : Tbl InboundEntry
  devNum : Nat
  bridge : Bool
  actions : List ActionReq
  deriving DecidableEq, Repr

/-! ## Towers -/

/-- States of a channel die (R406). -/
inductive DieSt where
  | live | retiring | rebuild | retired
  deriving DecidableEq, Repr

/-- States of an L2 slice (R280). -/
inductive SliceSt where
  | active | stub | off
  deriving DecidableEq, Repr

/-- States of a vertical bus (R435). -/
inductive BusSt where
  | service | due | retrain | quiesce | repair | lost
  deriving DecidableEq, Repr

/-- A vertical bus (R428 to R437): its state, the lanes that failed and stand replaced, the lane under repair, the
retries attributed to lanes with their times, the bursts failed in a row and the time of its last training. -/
structure Bus where
  st : BusSt
  swapped : List Nat
  repairing : Nat
  retries : List (Nat × Nat)
  fails : Nat
  trained : Nat
  dueAt : Nat
  deriving DecidableEq, Repr

/-- States of a link port (R426). -/
inductive PortSt where
  | down | training | up | retrain | fenced | retired
  deriving DecidableEq, Repr

/-- A link port (R426): state, failures of training in a row, time of entry, whether a return request is under way. -/
structure LinkPort where
  st : PortSt
  fails : Nat
  since : Nat
  returning : Bool
  deriving DecidableEq, Repr

/-- A home channel of the optical crossbar (R440 to R442): working wavelengths (spares included) and the token. -/
structure Light where
  lostRings : Nat
  tokenLost : Bool
  deriving DecidableEq, Repr

/-- A line in an L2 slice (R278, R292, R293): its slice, whether it is dirty, when it was filled and when an atomic
was last performed on it. The line's value stands in `State.mem`; the towers whose RDC holds a clean copy (R329) are read
from the RDCs. -/
structure L2Line where
  slice : Nat
  dirty : Bool
  fill : Nat
  atom : Nat
  deriving DecidableEq, Repr

/-- A cached line with its dirty-byte mask (R274, R279), bit 8j+7..8j of `data` being byte j. -/
structure Line where
  data : BitVec 1024
  dirty : BitVec 128
  deriving DecidableEq, Repr

/-- A line of an L1: context, virtual line, physical line and content (R274). -/
structure L1Line where
  ctx : Nat
  vline : Nat
  pline : Nat
  line : Line
  /-- A sealed line, exempt from invalidation (R328). -/
  sealed : Bool
  deriving DecidableEq, Repr

/-- A line of an RDC: physical line, its content, and which bytes each context made dirty (R279, R321 to R324); `sealed` is
a line for which home keeps no record of its holders (R328). -/
structure RdcLine where
  pline : Nat
  line : Line
  own : Tbl (BitVec 128)
  sealed : Bool
  deriving DecidableEq, Repr

/-- A frame's state in the home frame table (R281). -/
inductive FrameSt where
  | normal | compressed | forward | held
  deriving DecidableEq, Repr

/-- An entry of the home frame table (R281). -/
structure Frame where
  st : FrameSt
  wver : BitVec 32
  ptr : Nat
  /-- When the frame entered HELD (R419). -/
  since : Nat
  deriving DecidableEq, Repr

/-- A chunk that the device took from the free list (R294). -/
structure Chunk where
  live : Nat
  closed : Bool
  deriving DecidableEq, Repr

/-- A video decode session (R368). -/
structure Session where
  ctx : Nat
  hevc : Bool
  tenBit : Bool
  va : Nat
  len : Nat
  w : Nat
  h : Nat
  deriving DecidableEq, Repr

/-- A tower (R9, R10). Tables hold what differs from the fresh value. -/
structure Tower where
  dies : Tbl DieSt
  /-- Corrections by die with their times, of the last second (R407). -/
  corrected : List (Nat × Nat)
  /-- Dies whose automatic retirement request was refused, to be repeated (R407). -/
  dieAsked : List Nat
  retireCnt : Nat
  /-- Entries of the slice map that do not name entry mod 48 (R277). -/
  sliceMap : Tbl Nat
  /-- The map of the version before, while a slice is in STUB (R280). -/
  sliceOld : Tbl Nat
  ver : Nat
  slices : Tbl SliceSt
  l2 : Tbl L2Line
  rdc : List RdcLine
  frameBase : Option Nat
  frames : Tbl Frame
  /-- The open chunk of each slice and its first unused sector (R292). -/
  openChunk : Tbl (Nat × Nat)
  freeList : List Nat
  reserve : Nat
  reserveTold : Bool
  chunks : Tbl Chunk
  hotIdle : Nat
  sessions : Tbl Session
  /-- The tensor store: bytes that are not zero, and poisoned sectors (R371, R372). -/
  ts : List Host.Cell
  tsPoison : List Nat
  buses : Tbl Bus
  lights : Tbl Light
  throttled : Bool
  /-- The queue served last, by priority (R135). -/
  lastQ : Tbl Nat
  /-- Accesses that wait at home on a replay of the chunk reserve (R294). -/
  reserveWait : Nat
  deriving DecidableEq, Repr

/-! ## Clusters (R10, R273, R376 to R391, R402, R411) -/

/-- A TLB entry (R273): context, page, page size, frame address and attribute bits W X P C MIRROR S. -/
structure TlbEntry where
  ctx : Nat
  va : Nat
  big : Bool
  pa : Nat
  w : Bool
  x : Bool
  p : Bool
  c : Bool
  mirror : Bool
  s : Bool
  deriving DecidableEq, Repr

/-- A line of the constant cache (R308). -/
structure ConstLine where
  ctx : Nat
  vline : Nat
  data : BitVec 1024
  deriving DecidableEq, Repr

/-- A B slot (R376, R386): residues as RE8 by 256 k + j, exponents eB and maxima bmax by 256 kb + j. -/
structure BSlot where
  used : Bool
  res : Tbl DWord
  eb : Tbl Nat
  bmax : Tbl Nat
  kb : Nat
  mb : Nat
  lost : Bool
  deriving DecidableEq, Repr

/-- An accumulator row (R376): residues as RE8 by column (none listed: zero), ERef (none: UNSET), Bnd, OVERRANGE. -/
structure ARow where
  res : List DWord
  eref : Option Int
  bnd : Nat
  ovr : Bool
  deriving DecidableEq, Repr

/-- An accumulator slot (R376). A row that nothing has set since the slot was bound holds values that the manual does not
give; `seed`, the step of the binding, names them. -/
structure ASlot where
  used : Bool
  seed : Nat
  rows : Tbl ARow
  deriving DecidableEq, Repr

/-- A matrix engine (R376, R437). -/
structure Engine where
  fenced : Bool
  b : Tbl BSlot
  acc : Tbl ASlot
  deriving DecidableEq, Repr

/-- States of a task (R385). -/
inductive TaskSt where
  | queued | waiting | ready | running | ended
  deriving DecidableEq, Repr

/-- A task record taken up by the sequencer (R378 to R391): its bytes, the team and launch that issued it, its state,
the order in which it became ready, the engine and slots it runs on, whether its work is done, and its STATUS. -/
structure Task where
  n : Nat
  record : List Byte
  team : Nat
  launch : Nat
  st : TaskSt
  order : Nat
  eng : Nat
  aslot : Nat
  bslot : Nat
  worked : Bool
  status : DWord
  /-- It could not start because a page was not present (R385). -/
  hold : Bool
  /-- The first scratchpad range event (R231). -/
  spoor : DWord
  /-- Pages of its signal or its slot that RESOLVE answered with FAIL (R389). -/
  failed : List Nat
  deriving DecidableEq, Repr

/-- A task queue (R378, R384): ids bound to (engine, slot). -/
structure TaskQueue where
  ctx : Nat
  ring : Nat
  logsz : Nat
  head : Nat
  tail : Nat
  tasks : List Task
  aids : Tbl (Nat × Nat)
  bids : Tbl (Nat × Nat)
  destroying : Bool
  deriving DecidableEq, Repr

/-- An armed substitution (R411). -/
structure Arm where
  eng : Nat
  slot : Nat
  row : Nat
  col : Nat
  chan : Nat
  value : Byte
  ctx : Nat
  deriving DecidableEq, Repr

/-- A cluster. -/
structure Cluster where
  tlb : List TlbEntry
  const : List ConstLine
  queues : Tbl TaskQueue
  lastQ : Nat
  engines : Tbl Engine
  contain0 : DWord
  contain1 : DWord
  arm : Option Arm
  deriving DecidableEq, Repr

/-! ## Cores (R11, R220 to R250, R274, R285) -/

/-- States of a scratchpad row (R222). -/
inductive RowSt where
  | never | stamped | void
  deriving DecidableEq, Repr

/-- A scratchpad row (R220, R222, R232, R233): byte j is bits 8j+7..8j of `data`; `poison` has a bit per sector. -/
structure SpRow where
  st : RowSt
  stamp : Nat
  dirty0 : Bool
  dirty1 : Bool
  data : BitVec 8192
  poison : BitVec 32
  deriving DecidableEq, Repr

/-- Pre-emption classes (R109). -/
inductive BufClass where
  | save | park | drop
  deriving DecidableEq, Repr

/-- A circular buffer (R235). `claims` lists the slots in flight, oldest first, with their landed flag. -/
structure Circ where
  nslot : Nat
  srows : Nat
  free : Nat
  filled : Nat
  held : Nat
  wnext : Nat
  rnext : Nat
  claims : List (Nat × Bool)
  deriving DecidableEq, Repr

/-- A live entry of the buffer table (R228): rows, tag in µs, class, team, number on the core (R459), generation. -/
structure Buf where
  base : Nat
  rows : Nat
  tag : Nat
  cls : BufClass
  team : Nat
  num : Nat
  gen : Nat
  circ : Option Circ
  /-- PARKED: its team is off the cores (R227). -/
  parked : Bool
  deriving DecidableEq, Repr

/-- An entry of the store side log (R285): a masked line, or one lane's reduction (operation, width, operand). `tnum`,
`stage` and `gnum` are the numbers of its team, stage and group, for a fault's detail (R284). -/
structure LogEntry where
  ctx : Nat
  launch : Nat
  team : Nat
  tnum : Nat
  stage : Nat
  gnum : Nat
  gid : Nat
  seq : Nat
  vline : Nat
  line : Line
  red : Option (Nat × Bool × Nat × DWord)
  clause : Word
  /-- Waits on the chunk reserve and not on a page (R294). -/
  reserve : Bool
  deriving DecidableEq, Repr

/-- A core. -/
structure Core where
  sp : Tbl SpRow
  bufs : Tbl Buf
  gens : Tbl Nat
  l1 : List L1Line
  log : List LogEntry
  /-- RETN.US and RETN.TJ (R223). -/
  retnUs : Nat
  retnTj : Nat
  /-- Groups in WAIT_ALLOC in the order they entered it, with the time (R158). -/
  allocWait : List (Nat × Nat)
  /-- When a pool row was last freed (R159). -/
  freedAt : Nat
  deriving DecidableEq, Repr

/-! ## Contexts and queues (R86 to R89, R127 to R132, R283, R320, R325, R371) -/

/-- Context states (R87). -/
inductive CtxSt where
  | free | created | resident | parked | evicted | faulted | destroyed
  deriving DecidableEq, Repr

/-- A fault reported and not resolved: page, page size bit, kind, and the record (R282, R283). -/
structure PageFault where
  page : Nat
  kind : Nat
  record : List Byte
  written : Bool
  deriving DecidableEq, Repr

/-- A fault ring (R283). -/
structure FaultRing where
  addr : Nat
  k : Nat
  head : Nat
  tail : Nat
  deriving DecidableEq, Repr

/-- A tensor of a context (R371, R372). -/
structure Tensor where
  gen : Nat
  esz : Nat
  ndim : Nat
  dims : List Nat
  layout : Nat
  tower : Nat
  start : Nat
  size : Nat
  destroying : Bool
  deriving DecidableEq, Repr

/-- A binding of a lid (R320). -/
structure LidBind where
  entry : Nat
  lid : Nat
  base : Nat
  len : Nat
  deriving DecidableEq, Repr

/-- A context. -/
structure Context where
  st : CtxSt
  ptRoot : Nat
  profile : Nat
  ctxcfg : DWord
  codeBase : Nat
  saveBase : Nat
  saveSize : Nat
  snapBase : Nat
  snapSize : Nat
  lids : List LidBind
  /-- The seal table: base and length (R325). -/
  seals : List (Nat × Nat)
  /-- The CHKIV accumulator (R115). -/
  chkAcc : BitVec 8
  ring : Option FaultRing
  faults : List PageFault
  tensors : Tbl Tensor
  tensorGen : Tbl Nat
  parkedSince : Nat
  /-- Slots of the save area in use (R110). -/
  saveUsed : List Nat
  /-- Team slots of the snapshot area in use: offset and size (R443). -/
  snapUsed : List (Nat × Nat)
  deriving DecidableEq, Repr

/-- Queue states (R129). -/
inductive QueueSt where
  | created | active | suspended | draining | destroyed
  deriving DecidableEq, Repr

/-- A queue (R127 to R132). `tail` is the value the front end observed last. -/
structure Queue where
  ctx : Nat
  ring : Nat
  logsz : Nat
  prio : Nat
  tower : Nat
  qcb : Nat
  st : QueueSt
  err : Nat
  head : Nat
  tail : Nat
  deriving DecidableEq, Repr

/-! ## Launches and teams (R139 to R153, R336 to R345) -/

/-- Launch states (R145); the last four are the ends. -/
inductive LaunchSt where
  | submitted | admitted | dispatching | running | draining | complete | cancelled | faulted | refused
  deriving DecidableEq, Repr

/-- The fault detail of a launch's status (R97, R143). -/
structure FaultInfo where
  team : Nat
  group : Nat
  lane : Nat
  stage : Nat
  pc : Word
  code : Nat
  part : Nat
  pkind : Nat
  deriving DecidableEq, Repr

/-- A launch: its record and descriptor as latched, its state, END, the refusal reason, CHKIV and SPOOR (R115, R231),
what its stages have placed, and the cores of its footprint (R137). -/
structure Launch where
  q : Nat
  ctx : Nat
  tower : Nat
  prio : Nat
  record : List Byte
  desc : List Byte
  args : List DWord
  /-- The stage-queue blocks named by SQTAB (R141). -/
  sq : List Nat
  st : LaunchSt
  endv : Nat
  reason : Nat
  info : FaultInfo
  chkiv : BitVec 8
  spoor : DWord
  /-- Order of admission. -/
  order : Nat
  placed : Tbl Nat
  ended : List Nat
  footprint : List Nat
  /-- The cores of a port launch with their numbers of port rows (R254, R255). -/
  grid : Tbl Nat
  /-- When a launch end first waited for mirror acknowledgements (R121). -/
  drainAt : Nat
  deriving DecidableEq, Repr

/-- Why a halt without a cause was raised (R98, R105, R106, R125, R145, R150). -/
inductive HaltWhy where
  | preempt | held | discard | rollback | backpressure
  deriving DecidableEq, Repr

/-- Where a team stands: its prologue runs, it runs, it stops to leave the cores, it is saved, or held by HALT. -/
inductive TeamSt where
  | prologue | running | stopping (why : HaltWhy) | saved (why : HaltWhy)
  deriving DecidableEq, Repr

/-- A team barrier (R336). -/
structure Barrier where
  exp : Nat
  arr : Nat
  ph : Bool
  deriving DecidableEq, Repr

/-- A row of a saved buffer, as the front end keeps it (R234, R459). -/
inductive SavedRow where
  | never | void | copied (slot idx : Nat) (poison : BitVec 32)
  deriving DecidableEq, Repr

/-- A buffer of a saved team (R459): team core, the table entry it had, what the table held, and its rows. -/
structure SavedBuf where
  tcore : Nat
  id : Nat
  buf : Buf
  rows : List SavedRow
  /-- Still in its scratchpad as a PARKED buffer: core and table entry. -/
  place : Option (Nat × Nat)
  deriving DecidableEq, Repr

/-- Values that a REDUNDANT leader keeps for its shadow (R119): the results of one instruction; `due` says that they come
with the end of a SIGWAIT under a counter. -/
structure OutVals where
  vw : List (Nat × Row × Word)
  sw : List (Nat × DWord)
  due : Bool
  deriving DecidableEq, Repr

/-- What the save record of a group does not hold: the address of its trapped clause (R101), whether a region has begun
and its pending frees (R186), the number of its last batch (R360), its queue of outside values and
whether a shadow's operation was matched (R119), and the clauses counted against a pending halt (R91). -/
structure Rest where
  tclause : Word
  region : Bool
  pendFree : List Nat
  batch : Nat
  shq : List OutVals
  matched : Bool
  pendSkid : Nat
  deriving DecidableEq, Repr

/-- What the front end keeps of a group of a team: it is on the cores in slot `gid mod 128` of core `gid / 128`, has
retired, or is off the cores. -/
inductive Member where
  | on (gid : Nat) | retired | off (r : Rest)
  deriving DecidableEq, Repr

/-- What the front end keeps with a snapshot image (R122, R124): the groups and the buffers it holds. -/
structure SnapImage where
  members : List Member
  bufs : List SavedBuf
  deriving DecidableEq, Repr

/-- A destination of a batch that a group's CWAIT completed, which the next release of a barrier is to make fresh on every
core of the team once the group has arrived there (R338, R361). -/
structure FreshRange where
  bar : Nat
  group : Nat
  arrived : Bool
  base : Nat
  len : Nat
  deriving DecidableEq, Repr

/-- A team (R146 to R148, R256, R336, R340, R344). -/
structure Team where
  launch : Nat
  ctx : Nat
  stage : Nat
  num : Nat
  st : TeamSt
  cores : List Nat
  /-- Groups per core (R147). -/
  per : Nat
  members : List Member
  bars : List Barrier
  /-- Byte counters: LANDED and TARGET by 8 j + k (R340). -/
  bcs : Tbl (Nat × Nat)
  /-- Slots of the save area: the team record's, the groups', the row slots (R110). -/
  slotT : Nat
  slotG : List Nat
  slotR : List Nat
  extraR : List Nat
  bufs : List SavedBuf
  safe : Bool
  snapSlot : Nat
  images : Tbl SnapImage
  captured : Nat
  placedAt : Nat
  order : Nat
  /-- When its last group stopped for a halt without a cause (R107). -/
  stoppedAt : Nat
  /-- A halt raised by a trap is in progress (R94). -/
  halting : Bool
  /-- Destinations of the batches that CWAITs completed, for the next release of each barrier (R338, R361). -/
  fresh : List FreshRange
  /-- Global destinations of completed copies: group, batch (0: the open one), address, length (R361). -/
  dests : List (Nat × Nat × Nat × Nat)
  /-- Transform bindings whose copy has still to enter the engine: team core and binding (R369, R370). -/
  binds : List (Nat × Nat)
  deriving DecidableEq, Repr

/-! ## Groups (R154 to R187) -/

/-- Group states (R155). -/
inductive GroupSt where
  | ready | waiting | waitAlloc | stopped | retiring
  deriving DecidableEq, Repr

/-- What a waiting group waits for (R95, R155). -/
inductive WaitKind where
  | counters | dcFull | port | lid | signal | stageQueue | barrier (b : Nat) | treduce | ckpt | bcwait | sleep
  | circ | copies | page (va kind : Nat) | held | log | peer (id : Nat) | shadow | reserve | other
  deriving DecidableEq, Repr

/-- A wait: what for, when it began, its place in the order of arrival (R95), and a limit: the end of a SLEEP (R183),
the time a port wait has counted (R259), a target (R341), the portion of SQADD or SQTAKE (R151), or the phase of a
two-phase instruction. -/
structure Wait where
  kind : WaitKind
  since : Nat
  arrival : Nat
  lim : Nat
  phase : Nat
  deriving DecidableEq, Repr

/-- What a counted operation still has to do when it completes. -/
inductive OpAct where
  | none
  | fence (scope : Nat)
  | rel (lid : Nat) (excl : Bool)
  | cwait (n : Nat)
  | sigadd (va : Nat) (v : DWord)
  /-- It waits until a posted request is accepted or fails (R345, R416). -/
  | posted (id : Nat)
  | sigwait (va : Nat) (c : DWord) (cond dreg : Nat)
  | ttq (rec : List Byte)
  | ttqMem (va : Nat)
  | copy (id : Nat)
  /-- A deferred copy that waits to be issued again: its entry (R107). -/
  | entry (l : List Byte)
  /-- It accessed a scratchpad buffer: table entry and generation (R245). -/
  | spad (buf gen : Nat)
  /-- It writes a scratchpad buffer: also the words that it overwrote, by 256 × row + word (R239). -/
  | spadStore (buf gen : Nat) (old : List (Nat × Word))
  deriving DecidableEq, Repr

/-- A counted operation issued and not completed (R79, R168): its counter, the results it will write (vector register,
row, lane mask; scalar, value), what it does at its end, the MA opcode and SZ (R107) and its clause. -/
structure Op where
  id : Nat
  dc : Nat
  opc : Nat
  sz : Nat
  vres : List (Nat × Row × Word)
  sres : List (Nat × DWord)
  act : OpAct
  clause : Word
  deriving DecidableEq, Repr

/-- A fixed-latency result that a reader may not see yet (R78): register, old row, lanes, issue distance still due. -/
structure Hazard where
  reg : Nat
  old : Row
  lanes : Word
  left : Nat
  deriving DecidableEq, Repr

/-- An entry of a port queue (R252). -/
structure PortEntry where
  val : Word
  arrived : Bool
  deriving DecidableEq, Repr

/-- The clause a group is issuing: header address and word, the words after it, the number of words already issued,
whether its first instruction has issued, the active set (R53, R58, R172). -/
structure Clause where
  addr : Word
  header : Word
  words : List Word
  pos : Nat
  begun : Bool
  active : Word
  deriving DecidableEq, Repr

/-- Barrier state of a group (R336). -/
inductive BarSt where
  | none | arrived | passed
  deriving DecidableEq, Repr

/-- A group. -/
structure Group where
  team : Nat
  /-- GROUPID.GROUP and CORE.TCORE (R163). -/
  num : Nat
  tcore : Nat
  shadow : Bool
  st : GroupSt
  pcv : Row
  rev : Row
  /-- A clause with RGN has issued (R186). -/
  region : Bool
  /-- The trap frame and its companions (R91, R92, R108). -/
  spcv : Row
  cause : DWord
  tword : Nat
  tmask : Word
  /-- The address of the trapped clause (R101). -/
  tclause : Word
  skidn : Nat
  hmode : Bool
  pidx : BitVec 33
  ctxcfg : DWord
  dphase : Nat
  /-- Names with a row, and their rows (R156). -/
  rows : Tbl Row
  pendFree : List Nat
  spilled : List Nat
  drowsy : List Nat
  sregs : Tbl DWord
  dcs : Tbl Nat
  ports : Tbl (List PortEntry)
  /-- Port entries popped whose room the sender does not see yet (R252). -/
  lag : Tbl Nat
  clause : Option Clause
  wait : Option Wait
  /-- Rows asked for in WAIT_ALLOC (R158). -/
  wanted : Nat
  granted : Bool
  ops : List Op
  hazards : List Hazard
  /-- The stall interval: the group issues no earlier (R170). -/
  stall : Nat
  /-- Age (R169): the tick at which the group's wait on the lathe began. -/
  age : Nat
  /-- Groups of the lathe that must issue first (R57, R182). -/
  after : List Nat
  bars : List BarSt
  /-- The number of the group's previous batch (R360). -/
  batch : Nat
  /-- Deferred operations, as entries of the save record, in the order deferred (R107). -/
  deferred : List (List Byte)
  /-- A halt has been raised and has not arrived: with a cause (SKIDH) or without. -/
  halt : Option Bool
  /-- Clauses begun since the halt was raised (R91). -/
  skid : Nat
  pendHalt : Bool
  /-- Clauses begun since the pending halt was raised (R91, R98). -/
  pendSkid : Nat
  trapPending : Bool
  /-- SSTEP is due at the end of the clause just ended (R99). -/
  stepDue : Bool
  /-- REDUNDANT: values for the shadow, the operation held for comparison and whether it was matched; in a shadow, whether
  its operation was matched and performed (R119). -/
  shq : List OutVals
  heldOp : Option (List Word)
  matched : Bool
  heldAt : Nat
  /-- The word of the next clause at which the group resumes, without the header's waits (TWORD of R101, HWORD of
  R110); 0 for the header. -/
  hword : Nat
  /-- The instruction at the resume point was waiting when a halt stopped the group: it waits again and does not count
  as a new one (R95, R339). -/
  again : Bool
  /-- It was in WAIT_ALLOC when it stopped (R110). -/
  allocStop : Bool
  deriving DecidableEq, Repr

/-! ## Copies and requests in flight -/

/-- A scratchpad destination or source of a copy: core, table entry and generation (0: out of range), start offset,
length limit of a claimed slot, and the slot. -/
structure CopyEnd where
  core : Nat
  buf : Nat
  gen : Nat
  off : Nat
  lim : Nat
  slot : Option Nat
  deriving DecidableEq, Repr

/-- A copy that has issued (R353 to R370). `landed` lists the byte intervals that have landed. -/
structure Copy where
  gid : Nat
  team : Nat
  launch : Nat
  ctx : Nat
  core : Nat
  opc : Nat
  sz : Nat
  ops : List DWord
  chain : List Byte
  total : Nat
  landed : List (Nat × Nat)
  ends : List CopyEnd
  bck : Option Nat
  batch : Nat
  prologue : Bool
  clause : Word
  /-- Pages that RESOLVE answered with FAIL (R358). -/
  failed : List Nat
  /-- Blocks of 256 bytes of link apertures whose read faulted or timed out (R358, R424). -/
  linkBad : List Nat
  /-- Cores where it had no slot to claim and its bytes landed at once (R236). -/
  lostAt : List Nat
  deriving DecidableEq, Repr

/-- Who waits for an outgoing link request (R416, R424): a group that it holds; nobody (posted), or the group's own SIGADD;
a copy; a task; an operation under a counter. -/
inductive PeerKind where
  | load | posted | copyRead | copyWrite | taskRead | taskWrite | opRead
  deriving DecidableEq, Repr

/-- What an outgoing link request does at its target (R415): a write carries the poison marks of its bytes (R117). -/
inductive PeerOp where
  | read
  | write (bytes : List Byte) (marks : List Bool)
  | atomic (op : Nat) (a b : DWord)
  deriving DecidableEq, Repr

/-- A request that has left for a link aperture: 1 to 256 bytes at `pa`. -/
structure PeerReq where
  kind : PeerKind
  gid : Nat
  launch : Nat
  ctx : Nat
  pa : Nat
  size : Nat
  op : PeerOp
  dev : Nat
  when : Nat
  /-- The response has arrived, with its data and marks (R416, R420). -/
  done : Bool
  data : List Byte
  marks : List Bool
  /-- The copy, task record or operation that it belongs to. -/
  owner : Nat
  /-- The code and 256 times the SUB of the cause that a load's fault response or timeout raises; 0 for none (R424). -/
  cause : Nat
  /-- The link port that carries it, while it has one (R414, R427). -/
  port : Option Nat
  deriving DecidableEq, Repr

/-- A mirrored store that waits for its acknowledgement (R121). -/
structure MirrorReq where
  gid : Nat
  launch : Nat
  ctx : Nat
  pa : Nat
  /-- When a REL or the launch's end began to wait for it. -/
  since : Option Nat
  deriving DecidableEq, Repr

/-- Masked bytes that wait at a HELD home, with the mark of each sector they cover whole (R117, R281). -/
structure HeldWrite where
  pline : Nat
  line : Line
  marks : BitVec 4
  deriving DecidableEq, Repr

/-- A write of a front end that waits on a page that is not present: a queue's control block or a stage queue's CLOSED
(R128, R132, R149; log entry 79). -/
structure FrontWrite where
  ctx : Nat
  tower : Nat
  va : Nat
  bytes : List Byte
  deriving DecidableEq, Repr

/-- An end sequence that waits on a page (R144): context, block, flag and the step. -/
structure EndSeq where
  ctx : Nat
  core : Nat
  launch : Nat
  block : Nat
  first : Bool
  flag : Option Nat
  /-- The name of its requests to peers. -/
  id : Nat
  /-- What it has done at the block: nothing yet, the block is written or flagged, its SIG has reached zero. -/
  phase : Nat
  deriving DecidableEq, Repr

/-- An error that an access finds in an array (R117, R118, R232, R438; log entry 32): in a lane of a vector register, in a
scalar register, in a bit of a word of a scratchpad row (none: in two bits), in a word of the tensor store, or in a 32-byte
sector of HBM4, an L2 slice or the RDC that cannot be corrected. -/
inductive Upset where
  | vector (gid reg lane : Nat) (double : Bool)
  | scalar (gid reg : Nat) (double : Bool)
  | pad (core row word : Nat) (bit : Option Nat)
  | tensor (tower : Nat) (e : ArrayError)
  | sector (n : Nat)
  deriving DecidableEq, Repr

/-- Who moves next, and when (log entry 1). -/
inductive Turn where
  | event (when : Nat) (i : Instr) (arg : EventArg)
  | lathe (when : Nat) (core : Nat) (k : Nat)
  | upset (when : Nat) (u : Upset)
  deriving DecidableEq, Repr

/-! ## The state -/

/-- The state of the machine. -/
structure State where
  /-- The model's own: a counter of steps, which names free values. -/
  tick : Nat
  /-- TIME (R163). -/
  time : Nat
  /-- The model's own: the turns that come next. -/
  turns : List Turn
  /-- The operands of the event that occurs. -/
  arg : EventArg
  /-- The group whose instruction issues. -/
  cur : Option Nat
  dev : Device
  towers : Tbl Tower
  clusters : Tbl Cluster
  cores : Tbl Core
  links : Tbl LinkPort
  ctxs : Tbl Context
  queues : Tbl Queue
  launches : Tbl Launch
  teams : Tbl Team
  groups : Tbl Group
  copies : Tbl Copy
  peers : Tbl PeerReq
  mirrors : Tbl MirrorReq
  ends : List EndSeq
  fronts : List FrontWrite
  /-- What waits at homes that are HELD, oldest first (R281). -/
  held : List HeldWrite
  /-- The home value of every line: bytes that are not zero (R18, R278). -/
  mem : List Host.Cell
  /-- Poisoned 32-byte sectors, by number (R117). -/
  poison : List Nat
  /-- A source of fresh numbers for launches, teams, copies, operations and requests. -/
  fresh : Nat
  responses : List Response
  irqs : List Irq
  xferLog : List XferLog
  arrayLog : List ArrayLog
  svcLog : List SvcLog
  deriving DecidableEq, Repr

/-- Why the machine stops with a fault. -/
inductive Fault where
  /-- Raised when an instruction with a word is to execute and no group issues it: `step` never does that; it is safe. -/
  | noIssuingGroup
  deriving DecidableEq, Repr

/-- Why the machine refuses a step. -/
inductive Refusal where
  /-- Raised by `exec` for an instruction without a meaning in this model; it is safe. -/
  | notModelled (mnemonic : String)
  deriving DecidableEq, Repr

/-! ## Reset -/

/-- An event without operands. -/
def EventArg.nil : EventArg := ⟨0, 0, 0, false, .none⟩

/-- The device right after reset is asserted (R16, R17): BRINGUP, STEP 1, every other field at its reset value. -/
def Device.reset : Device where
  st := .bringup
  degraded := false
  step := 1
  stepAt := 0
  failStep := 0
  failCode := 0
  chLive := 0
  epoch := 0
  boot := 0
  mapped := []
  fenced := []
  fuses := []
  images := []
  report := []
  profiles := []
  windows := []
  inbound := []
  devNum := 0
  bridge := false
  actions := []

/-- The machine right after reset (R16, R17, R18): bring-up is at step 1, no context, queue, launch or group exists,
memory lists nothing. -/
def State.reset : State where
  tick := 0
  time := 0
  turns := []
  arg := EventArg.nil
  cur := none
  dev := Device.reset
  towers := []
  clusters := []
  cores := []
  links := []
  ctxs := []
  queues := []
  launches := []
  teams := []
  groups := []
  copies := []
  peers := []
  mirrors := []
  ends := []
  fronts := []
  held := []
  mem := []
  poison := []
  fresh := 1
  responses := []
  irqs := []
  xferLog := []
  arrayLog := []
  svcLog := []

end Sys2Proof.Machine
end

