-- ==== Sys2Proof/Machine/Tbl.lean ====
section
/-! DEFINITION. Tables, lists, rows and byte strings: the plain operations that the meanings share. -/

namespace Sys2Proof.Machine

open Sys2Proof

/-- The value at a key of a table. -/
def Tbl.find {α : Type} : Tbl α → Nat → Option α
  | [], _ => none
  | (k, v) :: t, n => if k = n then some v else Tbl.find t n

/-- The table with `v` at key `n`, in place of what stood there; keys stay rising. -/
def Tbl.put {α : Type} : Tbl α → Nat → α → Tbl α
  | [], n, v => [(n, v)]
  | (k, w) :: t, n, v =>
    if n < k then (n, v) :: (k, w) :: t
    else if n = k then (n, v) :: t
    else (k, w) :: Tbl.put t n v

/-- The table without key `n`. -/
def Tbl.del {α : Type} : Tbl α → Nat → Tbl α
  | [], _ => []
  | (k, w) :: t, n => if k = n then t else (k, w) :: Tbl.del t n

/-- The value at a key, or a fresh value. -/
def Tbl.findD {α : Type} (t : Tbl α) (n : Nat) (d : α) : α := (t.find n).getD d

/-- The keys of a table. -/
def Tbl.keys {α : Type} (t : Tbl α) : List Nat := t.map (·.1)

/-- The first `n` numbers that a table does not hold, searched from `k` with fuel. -/
def Tbl.firstFree {α : Type} (t : Tbl α) : Nat → Nat → Nat
  | 0, k => k
  | n + 1, k => if (t.find k).isNone then k else Tbl.firstFree t n (k + 1)

/-- Insert a number into a rising list. -/
def insertNat (n : Nat) : List Nat → List Nat
  | [] => [n]
  | k :: t => if n < k then n :: k :: t else if n = k then k :: t else k :: insertNat n t

/-- Sort by a key, equal keys staying in order. -/
def insertBy {α : Type} (key : α → Nat) (a : α) : List α → List α
  | [] => [a]
  | b :: t => if key a < key b then a :: b :: t else b :: insertBy key a t

/-- A list sorted by a key. -/
def sortBy {α : Type} (key : α → Nat) : List α → List α
  | [] => []
  | a :: t => insertBy key a (sortBy key t)

/-- The element of least key, the first among equals. -/
def minBy {α : Type} (key : α → Nat) : List α → Option α
  | [] => none
  | a :: t =>
    match minBy key t with
    | none => some a
    | some b => if key b < key a then some b else some a

/-- The sum of a list. -/
def sumBy {α : Type} (f : α → Nat) (l : List α) : Nat := l.foldl (fun n a => n + f a) 0

/-- Replace element `n` of a list. -/
def listSet {α : Type} : List α → Nat → α → List α
  | [], _, _ => []
  | _ :: t, 0, b => b :: t
  | a :: t, n + 1, b => a :: listSet t n b

/-- Lane `l` of a row: zero beyond the row (R156). -/
def lane (r : Row) (l : Nat) : Word := r.getD l 0

/-- The row with the given value in each of the 32 lanes. -/
def rowOf (f : Nat → Word) : Row := (List.range 32).map f

/-- The row of zeros (R156). -/
def zeroRow : Row := rowOf fun _ => 0

/-- Whether lane `l` is in a mask. -/
def inMask (m : Word) (l : Nat) : Bool := m.getLsbD l

/-- The lanes of a mask, ascending (R7). -/
def lanesOf (m : Word) : List Nat := (List.range 32).filter (inMask m)

/-- The mask of the lanes that satisfy a test. -/
def maskOf (p : Nat → Bool) : Word :=
  BitVec.ofNat 32 (sumBy (fun l => if p l then 2 ^ l else 0) (List.range 32))

/-- The lowest lane of a mask (R92, R166). -/
def lowLane (m : Word) : Nat := (lanesOf m).headD 0

/-- The row `new` in the lanes of a mask and `old` elsewhere (R156). -/
def mergeRow (m : Word) (old new : Row) : Row :=
  rowOf fun l => if inMask m l then lane new l else lane old l

/-- The `n` bytes of a number, lowest first (R6). -/
def toBytes (n v : Nat) : List Byte := (List.range n).map fun j => BitVec.ofNat 8 (v / 256 ^ j)

/-- The number whose bytes, lowest first, are these (R6). -/
def ofBytes : List Byte → Nat
  | [] => 0
  | b :: t => b.toNat + 256 * ofBytes t

/-- Bytes `[off, off + n)` of a byte string, zero beyond its end. -/
def sliceBytes (l : List Byte) (off n : Nat) : List Byte := (List.range n).map fun j => l.getD (off + j) 0

/-- The little-endian number of `n` bytes at an offset. -/
def field (l : List Byte) (off n : Nat) : Nat := ofBytes ((l.drop off).take n)

/-- Bits `[hi:lo]` of a number (R4). -/
def bits (v hi lo : Nat) : Nat := v / 2 ^ lo % 2 ^ (hi + 1 - lo)

/-- Bit `n` of a number. -/
def bit (v n : Nat) : Bool := v / 2 ^ n % 2 = 1

/-- The signed value of the low `w` bits of a number (R27). -/
def signed (w v : Nat) : Int :=
  let x := v % 2 ^ w
  if x < 2 ^ (w - 1) then (x : Int) else (x : Int) - 2 ^ w

/-- The low `w` bits of an integer, as a number (R27). -/
def wrapInt (w : Nat) (v : Int) : Nat := (v % (2 ^ w : Nat)).toNat

/-- Clamp an integer (R27). -/
def clampInt (lo hi v : Int) : Int := if v < lo then lo else if hi < v then hi else v

/-- Round up to a multiple. -/
def ceilDiv (a b : Nat) : Nat := (a + b - 1) / b

/-- Whether two byte ranges overlap. -/
def overlaps (a n b m : Nat) : Bool := decide (a < b + m ∧ b < a + n ∧ 0 < n ∧ 0 < m)

/-- Whether a range lies within another. -/
def within (a n b m : Nat) : Bool := decide (b ≤ a ∧ a + n ≤ b + m)

/-- Fold over a list until a result stops it. -/
def foldUntil {α β : Type} (f : β → α → β × Bool) : β → List α → β
  | b, [] => b
  | b, a :: t => match f b a with
    | (b', true) => b'
    | (b', false) => foldUntil f b' t

end Sys2Proof.Machine
end

