-- ==== Sys2Proof/Machine/Float.lean ====
section
/-! DEFINITION. Floating point: formats, exact values, the one rounding, and the operations over them (R29 to R35, R42, R43,
R199 to R211). -/

namespace Sys2Proof.Machine

open Sys2Proof

/-- A binary interchange format: exponent and fraction widths (R29). -/
structure Fmt where
  ew : Nat
  mw : Nat
  deriving DecidableEq, Repr

def fp64 : Fmt := ⟨11, 52⟩
def fp32 : Fmt := ⟨8, 23⟩
def fp16 : Fmt := ⟨5, 10⟩
def bf16 : Fmt := ⟨8, 7⟩

/-- The bias, and the exponents of the least normal number and of the top binade. -/
def Fmt.bias (f : Fmt) : Nat := 2 ^ (f.ew - 1) - 1
def Fmt.emin (f : Fmt) : Int := 1 - (f.bias : Int)
def Fmt.emax (f : Fmt) : Int := f.bias

/-- Bit patterns of a format: infinity, the largest finite number, the canonical NaN, with the sign (R30). -/
def Fmt.signBit (f : Fmt) (neg : Bool) : Nat := if neg then 2 ^ (f.ew + f.mw) else 0
def Fmt.infBits (f : Fmt) (neg : Bool) : Nat := f.signBit neg + (2 ^ f.ew - 1) * 2 ^ f.mw
def Fmt.maxBits (f : Fmt) (neg : Bool) : Nat := f.infBits neg - 1
def Fmt.nanBits (f : Fmt) : Nat := f.infBits false + 2 ^ (f.mw - 1)

/-- A value: NaN (signalling or not), infinity, or sign, magnitude m and exponent e standing for m × 2^e; zero is m = 0. -/
inductive FVal where
  | nan (sig : Bool)
  | inf (neg : Bool)
  | fin (neg : Bool) (m : Nat) (e : Int)
  deriving DecidableEq, Repr

/-- Read a bit pattern (R30). -/
def Fmt.read (f : Fmt) (b : Nat) : FVal :=
  let frac := b % 2 ^ f.mw
  let ex := b / 2 ^ f.mw % 2 ^ f.ew
  let neg := bit b (f.ew + f.mw)
  if ex = 2 ^ f.ew - 1 then (if frac = 0 then .inf neg else .nan (! bit frac (f.mw - 1)))
  else if ex = 0 then .fin neg frac (f.emin - f.mw)
  else .fin neg (frac + 2 ^ f.mw) ((ex : Int) - f.bias - f.mw)

/-- Exception bits in the order of CTXCFG.FPT (R35). -/
def exInv : Nat := 1
def exDz : Nat := 2
def exOf : Nat := 4
def exUf : Nat := 8
def exIx : Nat := 16

/-- How an operation rounds: the code of R33 and, for RDI, the dither value d (R34). -/
structure Rnd where
  rm : Nat
  d : Nat
  deriving DecidableEq, Repr

def rne : Rnd := ⟨0, 0⟩

/-- The five low bits in reverse (R36). -/
def bitrev5 (n : Nat) : Nat :=
  n % 2 * 16 + n / 2 % 2 * 8 + n / 4 % 2 * 4 + n / 8 % 2 * 2 + n / 16 % 2

/-- The ordered dither d(i, p) (R36). -/
def dither (i p : Nat) : Nat := bitrev5 ((i + p) % 32)

/-- m × 2^s / unit for a shift: the quotient rounded under the mode, and whether anything was cut off (R33, R34). -/
def roundShift (r : Rnd) (neg : Bool) (m sh : Nat) : Nat × Bool :=
  let q := m / 2 ^ sh
  let rem := m % 2 ^ sh
  let up := match r.rm with
    | 0 => decide (2 * rem > 2 ^ sh ∨ (2 * rem = 2 ^ sh ∧ q % 2 = 1))
    | 1 => false
    | 2 => ! neg && decide (rem ≠ 0)
    | 3 => neg && decide (rem ≠ 0)
    | _ => decide (32 * rem + r.d * 2 ^ sh ≥ 32 * 2 ^ sh)
  (if up then q + 1 else q, decide (rem ≠ 0))

/-- Round m × 2^e to a multiple of 2^u. -/
def roundTo (r : Rnd) (neg : Bool) (m : Nat) (e u : Int) : Nat × Bool :=
  if u ≤ e then (m * 2 ^ (e - u).toNat, false) else roundShift r neg m (u - e).toNat

/-- The exponent of the binade that holds m × 2^e. -/
def binade (m : Nat) (e : Int) : Int := (Nat.log2 m : Int) + e

/-- The bits of q × 2^u, where q needs no more than the format holds (R30). -/
def Fmt.pack (f : Fmt) (neg : Bool) (q : Nat) (u : Int) : Nat :=
  if q < 2 ^ f.mw then f.signBit neg + q
  else f.signBit neg + ((u - (f.emin - f.mw)).toNat + 1) * 2 ^ f.mw + (q - 2 ^ f.mw)

/-- The one rounding (R32 to R35): bits of the result and exceptions. -/
def Fmt.round (f : Fmt) (r : Rnd) (neg : Bool) (m : Nat) (e : Int) : Nat × Nat :=
  if m = 0 then (f.signBit neg, 0)
  else
    let b := binade m e
    let u := max (b - f.mw) (f.emin - f.mw)
    let (q, ix) := roundTo r neg m e u
    let ovf := decide (binade q u > f.emax) && decide (q ≠ 0)
    if ovf then
      let inf := match r.rm with
        | 1 => false
        | 2 => ! neg
        | 3 => neg
        | _ => true
      (if inf then f.infBits neg else f.maxBits neg, exOf + exIx)
    else
      let free := (roundTo r neg m e (b - f.mw)).1
      let tiny := decide (b < f.emin) && decide (binade free (b - f.mw) < f.emin)
      (f.pack neg q u, if ix then (if tiny then exUf + exIx else exIx) else 0)

/-- The exact finite sum of two values; `none` for an exact zero. -/
def addFin (n1 : Bool) (m1 : Nat) (e1 : Int) (n2 : Bool) (m2 : Nat) (e2 : Int) : Option (Bool × Nat × Int) :=
  let e := min e1 e2
  let a : Int := (m1 * 2 ^ (e1 - e).toNat : Nat)
  let b : Int := (m2 * 2 ^ (e2 - e).toNat : Nat)
  let v := (if n1 then -a else a) + (if n2 then -b else b)
  if v = 0 then none else some (decide (v < 0), v.natAbs, e)

/-- The sum a + b rounded once (R199, R200). -/
def Fmt.addV (f : Fmt) (r : Rnd) (a b : FVal) : Nat × Nat :=
  match a, b with
  | .nan s, .nan t => (f.nanBits, if s || t then exInv else 0)
  | .nan s, _ => (f.nanBits, if s then exInv else 0)
  | _, .nan t => (f.nanBits, if t then exInv else 0)
  | .inf n, .inf k => if n = k then (f.infBits n, 0) else (f.nanBits, exInv)
  | .inf n, _ => (f.infBits n, 0)
  | _, .inf k => (f.infBits k, 0)
  | .fin n1 m1 e1, .fin n2 m2 e2 =>
    match addFin n1 m1 e1 n2 m2 e2 with
    | none => (f.signBit (if n1 = n2 then n1 else decide (r.rm = 3)), 0)
    | some (n, m, e) => f.round r n m e

/-- The exact product, as a value; the flag says 0 × ∞ or a signalling NaN. -/
def mulV (a b : FVal) : FVal × Bool :=
  match a, b with
  | .nan s, .nan t => (.nan false, s || t)
  | .nan s, _ => (.nan false, s)
  | _, .nan t => (.nan false, t)
  | .inf n, .inf k => (.inf (n != k), false)
  | .inf n, .fin k m _ => if m = 0 then (.nan false, true) else (.inf (n != k), false)
  | .fin n m _, .inf k => if m = 0 then (.nan false, true) else (.inf (n != k), false)
  | .fin n1 m1 e1, .fin n2 m2 e2 => (.fin (n1 != n2) (m1 * m2) (e1 + e2), false)

/-- The product rounded once (R199). -/
def Fmt.mulR (f : Fmt) (r : Rnd) (a b : FVal) : Nat × Nat :=
  match mulV a b with
  | (.nan _, inv) => (f.nanBits, if inv then exInv else 0)
  | (.inf n, _) => (f.infBits n, 0)
  | (.fin n m e, _) => f.round r n m e

/-- a × b + c fused: rounded once (R32, R199, R200). -/
def Fmt.fmaR (f : Fmt) (r : Rnd) (a b c : FVal) : Nat × Nat :=
  let (p, inv) := mulV a b
  let (res, ex) := f.addV r p c
  (res, if inv then ex ||| exInv else ex)

/-- The negated value, for subtraction. -/
def FVal.neg : FVal → FVal
  | .nan s => .nan s
  | .inf n => .inf (! n)
  | .fin n m e => .fin (! n) m e

def FVal.isNan : FVal → Bool
  | .nan _ => true
  | _ => false

def FVal.isSig : FVal → Bool
  | .nan s => s
  | _ => false

/-- The order of two values that are no NaN, as -1, 0 or 1; zeros are equal. -/
def cmpV (a b : FVal) : Int :=
  match a, b with
  | .inf n, .inf k => if n = k then 0 else if n then -1 else 1
  | .inf n, _ => if n then -1 else 1
  | _, .inf k => if k then 1 else -1
  | .fin n1 m1 e1, .fin n2 m2 e2 =>
    match addFin n1 m1 e1 (! n2) m2 e2 with
    | none => 0
    | some (n, _, _) => if n then -1 else 1
  | _, _ => 0

/-- FMIN and FMAX on bit patterns (R201); −0 lies below +0. -/
def minMax32 (wantMax : Bool) (a b : Nat) : Nat × Nat :=
  let x := fp32.read a
  let y := fp32.read b
  let inv := if x.isSig || y.isSig then exInv else 0
  let r :=
    if x.isNan && y.isNan then fp32.nanBits
    else if x.isNan then b
    else if y.isNan then a
    else
      let c := cmpV x y
      let aLess := if c = 0 then bit a 31 && ! bit b 31 else decide (c < 0)
      if c = 0 ∧ bit a 31 = bit b 31 then a
      else if aLess = wantMax then b else a
  (r, inv)

/-- Integer square root by bits, with fuel. -/
def isqrtGo : Nat → Nat → Nat → Nat
  | 0, _, r => r
  | k + 1, n, r => let c := r + 2 ^ k; isqrtGo k n (if c * c ≤ n then c else r)

/-- The floor of the square root of a number below 2^(2k). -/
def isqrt (k n : Nat) : Nat := isqrtGo k n 0

/-- √ of m × 2^e as a magnitude with at least 40 bits and a sticky bit, and its exponent. -/
def sqrtParts (m : Nat) (e : Int) : Nat × Int :=
  let up : Nat := 100 + (if (e - 100) % 2 = 0 then 0 else 1)
  let n := m * 2 ^ up
  let q := isqrt 120 n
  (2 * q + (if q * q = n then 0 else 1), (e - up) / 2 - 1)

/-- FSQRT (R204). -/
def sqrt32 (r : Rnd) (b : Nat) : Nat × Nat :=
  match fp32.read b with
  | .nan s => (fp32.nanBits, if s then exInv else 0)
  | .inf n => if n then (fp32.nanBits, exInv) else (fp32.infBits false, 0)
  | .fin n m e =>
    if m = 0 then (b, 0)
    else if n then (fp32.nanBits, exInv)
    else let (q, k) := sqrtParts m e; fp32.round r false q k

/-! ## The approximate functions (R205) -/

/-- An exact magnitude given as a floor q of value / 2^u, and whether the value is that multiple itself. -/
structure Near where
  q : Nat
  u : Int
  exact : Bool

/-- The floor of num / den, scaled by 2^-e, at the unit of its binade in fp32. -/
def nearRatio (num den : Nat) (e : Int) : Near :=
  -- 2^k ≤ num / den < 2^(k+1)
  let k0 := (Nat.log2 num : Int) - Nat.log2 den
  let lt := if k0 ≥ 0 then decide (num < den * 2 ^ k0.toNat) else decide (num * 2 ^ (-k0).toNat < den)
  let k := if lt then k0 - 1 else k0
  let u := max (k + e - 23) (-149)
  let s := e - u
  let (n, d) := if s ≥ 0 then (num * 2 ^ s.toNat, den) else (num, den * 2 ^ (-s).toNat)
  ⟨n / d, u, decide (n % d = 0)⟩

/-- The value delivered: exact, or a multiple of the unit within the bound that depends on the operand bits only
(R205; log entry 5): the floor or the next one above for 1 ulp, one further on either side for 2 ulp. -/
def deliver (op : Nat) (b : Nat) (wide : Bool) (neg : Bool) (x : Near) : Nat × Nat :=
  let top : Nat := 2 ^ 24
  let pick := (Config.approxPick op (BitVec.ofNat 32 b)).toNat
  let q := if x.exact then x.q else if wide then x.q + pick - 1 else x.q + pick % 2
  let q := min q top
  let ovf := decide (binade x.q x.u > 127) && decide (x.q ≠ 0)
  let small := decide (x.q = 0) || decide (binade x.q x.u < -126)
  let bits := if ovf then fp32.infBits neg else min (fp32.round rne neg q x.u).1 (fp32.maxBits neg)
  let ex := if ovf then exOf + exIx else if x.exact then 0 else if small then exUf + exIx else exIx
  (bits, ex)

def frcp32 (b : Nat) : Nat × Nat :=
  match fp32.read b with
  | .nan s => (fp32.nanBits, if s then exInv else 0)
  | .inf n => (fp32.signBit n, 0)
  | .fin n m e => if m = 0 then (fp32.infBits n, exDz) else deliver 0 b false n (nearRatio 1 m (-e))

def frsq32 (b : Nat) : Nat × Nat :=
  match fp32.read b with
  | .nan s => (fp32.nanBits, if s then exInv else 0)
  | .inf n => if n then (fp32.nanBits, exInv) else (0, 0)
  | .fin n m e =>
    if m = 0 then (fp32.infBits n, exDz)
    else if n then (fp32.nanBits, exInv)
    else
      let (q, k) := sqrtParts m e
      let x := nearRatio 1 q (-k)
      deliver 1 b false false (if q % 2 = 0 then x else { x with exact := false })

/-- Fixed-point working precision of the transcendental functions, in bits. -/
def fixP : Nat := 320

def piFix : Nat := 6710401180212168915155840974220003240804194089427148950727106424351713218671805380099500388914039
def ln2Fix : Nat := 1480553391661173448385607439722553250922680800745876974795605978609098082859138712941075737848984

/-- A product of fixed-point numbers. -/
def fixMul (a b : Nat) : Nat := a * b / 2 ^ fixP

/-- The terms x^k / k! of the exponential series, added with the given signs: k from `k` on, `term` the term before. -/
def series (x : Nat) (step : Nat → Int) : Nat → Nat → Nat → Int → Int
  | 0, _, _, acc => acc
  | n + 1, k, term, acc =>
    let t := fixMul term x / k
    series x step n (k + 1) t (acc + step k * t)

/-- exp x for a fixed-point x below 1. -/
def fixExp (x : Nat) : Nat := (series x (fun _ => 1) 90 1 (2 ^ fixP) (2 ^ fixP)).toNat

/-- sin x and cos x for a fixed-point x below 2. -/
def fixSin (x : Nat) : Nat :=
  (series x (fun k => if k % 2 = 0 then 0 else if k % 4 = 1 then 1 else -1) 110 1 (2 ^ fixP) 0).toNat
def fixCos (x : Nat) : Nat :=
  (series x (fun k => if k % 2 = 1 then 0 else if k % 4 = 0 then 1 else -1) 110 1 (2 ^ fixP) (2 ^ fixP)).toNat

/-- m × 2^e as a fixed-point number, its floor. -/
def toFix (m : Nat) (e : Int) : Nat :=
  let s := e + fixP
  if s ≥ 0 then m * 2 ^ s.toNat else m / 2 ^ (-s).toNat

/-- A fixed-point approximation, never exact, times 2^e. -/
def nearFix (v : Nat) (e : Int) : Near := { nearRatio (max v 1) 1 (e - fixP) with exact := false }

def fexp2 (b : Nat) : Nat × Nat :=
  match fp32.read b with
  | .nan s => (fp32.nanBits, if s then exInv else 0)
  | .inf n => if n then (0, 0) else (fp32.infBits false, 0)
  | .fin n m e =>
    if m = 0 then (0x3F800000, 0)
    else if binade m e ≥ 8 then
      if n then deliver 2 b true false ⟨0, -149, false⟩ else (fp32.infBits false, exOf + exIx)
    else
      -- b = whole + part / 2^320, with 0 ≤ part
      let v := toFix m e
      let w : Int := if n then -((v + 2 ^ fixP - 1) / 2 ^ fixP : Nat) else (v / 2 ^ fixP : Nat)
      let part : Nat := if n then ((-w).toNat * 2 ^ fixP - v) else v % 2 ^ fixP
      if part = 0 then deliver 2 b true false (nearRatio 1 1 w)
      else deliver 2 b true false (nearFix (fixExp (fixMul part ln2Fix)) w)

/-- Bits of log2 of a fixed-point number in [1, 2), by repeated squaring. -/
def log2Bits : Nat → Nat → Nat → Nat
  | 0, _, acc => acc
  | n + 1, y, acc =>
    let z := fixMul y y
    if z ≥ 2 * 2 ^ fixP then log2Bits n (z / 2) (2 * acc + 1) else log2Bits n z (2 * acc)

def flog2 (b : Nat) : Nat × Nat :=
  match fp32.read b with
  | .nan s => (fp32.nanBits, if s then exInv else 0)
  | .inf n => if n then (fp32.nanBits, exInv) else (fp32.infBits false, 0)
  | .fin n m e =>
    if m = 0 then (fp32.infBits true, exDz)
    else if n then (fp32.nanBits, exInv)
    else
      let k := binade m e
      let y := toFix m (-(Nat.log2 m : Int))
      if y = 2 ^ fixP then
        if k = 0 then (0, 0) else deliver 3 b true (decide (k < 0)) (nearRatio k.natAbs 1 0)
      else
        -- the value is k + f / 2^120, the bits past the 120th unknown
        let v : Int := k * 2 ^ 120 + log2Bits 120 y 0
        if v < 0 then deliver 3 b true true { nearRatio ((-v).toNat - 1) 1 (-120) with exact := false }
        else deliver 3 b true false { nearRatio (max v.toNat 1) 1 (-120) with exact := false }

/-- sin(π·b), or cos(π·b) (R205). -/
def fsincos (cos : Bool) (b : Nat) : Nat × Nat :=
  match fp32.read b with
  | .nan s => (fp32.nanBits, if s then exInv else 0)
  | .inf _ => (fp32.nanBits, exInv)
  | .fin n m e =>
    if m = 0 then (if cos then 0x3F800000 else b, 0)
    else
      -- |b| modulo 2, as a fixed-point number
      let v := toFix m e % (2 * 2 ^ fixP)
      let one := 2 ^ fixP
      let half := one / 2
      let whole := decide (v % one = 0)
      let odd := decide (v ≥ one)
      if whole then
        if cos then (if odd then 0xBF800000 else 0x3F800000, 0) else (fp32.signBit n, 0)
      else if v % one = half then
        if cos then (0, 0) else (if odd != n then 0xBF800000 else 0x3F800000, 0)
      else
        let f := v % one
        if cos then
          let neg := decide (f > half) != odd
          let x := if f > half then one - f else f
          let c := if 2 * x > half then fixSin (fixMul (half - x) piFix) else fixCos (fixMul x piFix)
          deliver 5 b true neg (nearFix (min c (one - 1)) 0)
        else
          let x := if f > half then one - f else f
          let c := if 2 * x > half then fixCos (fixMul (half - x) piFix) else fixSin (fixMul x piFix)
          deliver 4 b true (odd != n) (nearFix (min c (one - 1)) 0)

/-! ## Conversions (R209 to R211) -/

/-- Convert a value between formats: exact when widening, rounded once when narrowing; with SAT a finite value that
would overflow delivers the largest finite value (R211). -/
def Fmt.convert (f : Fmt) (r : Rnd) (sat : Bool) (v : FVal) : Nat × Nat :=
  match v with
  | .nan s => (f.nanBits, if s then exInv else 0)
  | .inf n => (f.infBits n, 0)
  | .fin n m e =>
    let (b, ex) := f.round r n m e
    (if sat && b == f.infBits n then f.maxBits n else b, ex)

/-- An integer as a value of a format (R211). -/
def Fmt.ofInt (f : Fmt) (r : Rnd) (v : Int) : Nat × Nat := f.round r (decide (v < 0)) v.natAbs 0

/-- A value rounded to an integer and clamped to a range (R211). -/
def toIntClamped (r : Rnd) (lo hi : Int) (v : FVal) : Int × Nat :=
  match v with
  | .nan _ => (0, exInv)
  | .inf n => (if n then lo else hi, exInv)
  | .fin n m e =>
    let (q, ix) := roundTo r n m e 0
    let x : Int := if n then -(q : Int) else q
    if x < lo then (lo, exInv) else if hi < x then (hi, exInv) else (x, if ix then exIx else 0)

/-- FCLASS (R206). -/
def fclass32 (b : Nat) : Nat :=
  match fp32.read b with
  | .nan s => if s then 2 ^ 8 else 2 ^ 9
  | .inf n => if n then 2 ^ 0 else 2 ^ 7
  | .fin n m _ =>
    if m = 0 then (if n then 2 ^ 3 else 2 ^ 4)
    else if m < 2 ^ 23 then (if n then 2 ^ 2 else 2 ^ 5)
    else (if n then 2 ^ 1 else 2 ^ 6)

/-! ## Blocks XBm (R39 to R43) -/

/-- ⌊x / 2^u + d / 32⌋ of a signed exact value (R42). -/
def floorDither (neg : Bool) (m : Nat) (e u : Int) (d : Nat) : Int :=
  let s := e - u
  -- x / 2^u as num / den
  let num : Int := ((m * 2 ^ s.toNat : Nat) : Int)
  let den : Int := ((2 ^ (-s).toNat : Nat) : Int)
  ((if neg then -num else num) * 32 + d * den) / (32 * den)

/-- A block of 32 values under R42: its mantissas and exponent; beyond exponent 254 it is invalid (R387). -/
def blockOf (m : Nat) (phase : Nat) (xs : List FVal) : List Int × Nat :=
  let bad := xs.any fun x => match x with
    | .fin _ _ _ => false
    | _ => true
  let mags := xs.filterMap fun x => match x with
    | .fin _ k e => if k = 0 then none else some (binade k e)
    | _ => none
  if bad then (List.replicate 32 0, 255)
  else
    match mags with
    | [] => (List.replicate 32 0, 0)
    | a :: t =>
      let e := t.foldl max a
      if e + 127 > 254 then (List.replicate 32 0, 255)
      else
        let ex := max 1 (e + 127)
        let u := ex - 127 - ((m : Int) - 2)
        let hi : Int := 2 ^ (m - 1) - 1
        (((List.range 32).map fun i => match xs.getD i (.fin false 0 0) with
          | .fin n k e => min (floorDither n k e u (dither i phase)) hi
          | _ => 0), ex.toNat)

/-- Where element i stands in a plane word (R40). -/
def planePos (i : Nat) : Nat := 4 * (i % 8) + i / 8

/-- Plane word j of 32 m-bit mantissas (R40). -/
def planeWord (m j : Nat) (mants : List Int) : Word :=
  BitVec.ofNat 32 (sumBy (fun i => if bit (wrapInt m (mants.getD i 0)) (m - 1 - j) then 2 ^ planePos i else 0) (List.range 32))

/-- Mantissa i read back from plane words (R40). -/
def mantOf (m i : Nat) (planes : List Word) : Int :=
  signed m (sumBy (fun j => if (planes.getD j 0).getLsbD (planePos i) then 2 ^ (m - 1 - j) else 0) (List.range m))

/-- The value of a mantissa under exponent E, for E from 1 to 254 (R39). -/
def mantValue (m : Nat) (mant : Int) (ex : Nat) : FVal :=
  .fin (decide (mant < 0)) mant.natAbs ((ex : Int) - 127 - ((m : Int) - 2))

end Sys2Proof.Machine
end

