-- ==== Sys2Proof/WellFormed.lean ====
section
/-! DEFINITION. Well-formedness of a step: an instruction carries a literal word exactly where R63 gives it one and
stands in the constructor of its own form; an event names parts, contexts and indices that exist (R13, R86). -/

namespace Sys2Proof

/-- A literal is present exactly when an operand-code field holds 127 (R63). -/
def litOk (wants : Bool) (lit : Option Word) : Bool := lit.isSome == wants

/-- VR: the literal goes with B = 127. -/
def VR.wf (f : VR) : Bool := litOk (f.b = 127) f.lit

/-- SR: the literal goes with B = 127. -/
def SR.wf (f : SR) : Bool := litOk (f.b = 127) f.lit

/-- CXR: the literal goes with P = 127 or Q = 127. -/
def CXR.wf (f : CXR) : Bool := litOk (f.p = 127 || f.q = 127) f.lit

/-- How many parts of a kind the device has (R9 to R13, R428). -/
def PartKind.count : PartKind → Nat
  | .core => 384
  | .channelDie => 32
  | .l2Slice => 192
  | .hbmStack => 16
  | .linkPort => 64
  | .tsBank => 256
  | .bus => 7936
  | .spadLayer => 4
  | .spadBank => 6144
  | .firmware => 16

/-- A part reference names a part that exists. -/
def PartRef.wf (p : PartRef) : Bool := p.idx < p.kind.count

/-- A task reference names a cluster and a queue slot of it (R378). -/
def TaskRef.wf (t : TaskRef) : Bool := t.cluster < 48 && t.queue < 8

/-- Well-formed steps. -/
def Instr.wf : Instr → Bool
  | .powerGood => true
  | .reset => true
  | .bringupStepEnd => true
  | .bringupStepTimeout => true
  | .controlDieError => true
  | .partLost => true
  | .serviceActionComplete => true
  | .channelDieRetire => true
  | .dieRebuild => true
  | .dieRetired => true
  | .retirecntSet => true
  | .busLaneRecalibrate => true
  | .sliceRetire => true
  | .sliceForward => true
  | .sliceHandover => true
  | .sliceOff => true
  | .tsBankFence => true
  | .tsBankRetire => true
  | .hbmStackRetire => true
  | .firmwareUpdate => true
  | .attestationRequest => true
  | .managementWindowRead => true
  | .profileWrite => true
  | .contextCreate => true
  | .contextDestroy => true
  | .contextReleased => true
  | .ctxcfgSet => true
  | .parkTimeout => true
  | .parkRenewal => true
  | .queueCreate => true
  | .queueActivate => true
  | .queueSuspend => true
  | .queueResume => true
  | .queueDestroy => true
  | .tailObserve => true
  | .recordRead => true
  | .admission => true
  | .dependenceMet => true
  | .dispatchTeam => true
  | .teamSave => true
  | .deferralTimeout => true
  | .backpressureTimeout => true
  | .haltResume => true
  | .heldTeamCancel => true
  | .cancellationObserved => true
  | .launchDrained => true
  | .clauseFetch => true
  | .haltArrival => true
  | .sstepTrap => true
  | .rowGrant => true
  | .rowSpill => true
  | .rowDrowsy => true
  | .groupRelease => true
  | .countedOpComplete => true
  | .shadowMismatch => true
  | .shadowLagTimeout => true
  | .sleepExpiry => true
  | .portEntryArrival => true
  | .portWaitMet => true
  | .portTimeout => true
  | .barrierRelease => true
  | .treduceRelease => true
  | .bcwaitMet => true
  | .lidGrant => true
  | .signalObserved => true
  | .stageQueueWaitMet => true
  | .slotLanded => true
  | .copyComplete => true
  | .retnPublish => true
  | .mirrorAckTimeout => true
  | .faultRingSet => true
  | .resolve => true
  | .recode => true
  | .migrate => true
  | .release => true
  | .l2EvictionWriteback => true
  | .chunkListFill => true
  | .chunkListDrain => true
  | .reserveSet => true
  | .chunkReserveReplay => true
  | .hotidleSet => true
  | .windowTableWrite => true
  | .inboundTableWrite => true
  | .inboundRequest => true
  | .inboundMessageRequest => true
  | .peerFaultResponse => true
  | .peerTimeout => true
  | .portTrained => true
  | .trainingTimeout => true
  | .linkErrorRetrain => true
  | .retrainDone => true
  | .retrainTimeout => true
  | .linkFence => true
  | .linkReturn => true
  | .linkRetire => true
  | .busRetrainDue => true
  | .busRetrainStart => true
  | .busRetrainDone => true
  | .burstRetry => true
  | .laneRepairStart => true
  | .quiesceDone => true
  | .repairDone => true
  | .patrolScrub => true
  | .tokenRegenerate => true
  | .heaterTrim => true
  | .debugRegisterRead => true
  | .taskQueueCreate => true
  | .taskQueueDestroy => true
  | .taskWindowEntry => true
  | .taskReady => true
  | .taskStart => true
  | .note => true
  | .zero => true
  | .loadb => true
  | .mma => true
  | .mmag => true
  | .drain => true
  | .accld => true
  | .accst => true
  | .taskEnd => true
  | .tensorCreate => true
  | .tensorDestroy => true
  | .decodeSessionOpen => true
  | .decodeSessionClose => true
  | .iadd f => f.wf
  | .isub f => f.wf
  | .imul f => f.wf
  | .imulhI f => f.wf
  | .imulhN f => f.wf
  | .imad f => f.wf
  | .iminI f => f.wf
  | .iminN f => f.wf
  | .imaxI f => f.wf
  | .imaxN f => f.wf
  | .iabs f => f.wf
  | .ineg f => f.wf
  | .vand f => f.wf
  | .vor f => f.wf
  | .vxor f => f.wf
  | .vandn f => f.wf
  | .shl f => f.wf
  | .shr f => f.wf
  | .sar f => f.wf
  | .rol f => f.wf
  | .bfeI f => f.wf
  | .bfeN f => f.wf
  | .bfi f => f.wf
  | .popc f => f.wf
  | .clz f => f.wf
  | .brev f => f.wf
  | .iceq f => f.wf
  | .icne f => f.wf
  | .icltI f => f.wf
  | .icltN f => f.wf
  | .icleI f => f.wf
  | .icleN f => f.wf
  | .sel f => f.wf
  | .vmov f => f.wf
  | .fadd f => f.v.wf
  | .fsub f => f.v.wf
  | .fmul f => f.v.wf
  | .ffma f => f.v.wf
  | .fmin f => f.wf
  | .fmax f => f.wf
  | .fabs f => f.wf
  | .fneg f => f.wf
  | .fceq f => f.wf
  | .fclt f => f.wf
  | .fcle f => f.wf
  | .fcun f => f.wf
  | .frcp f => f.wf
  | .frsq f => f.wf
  | .fsqrt f => f.v.wf
  | .fexp2 f => f.wf
  | .flog2 f => f.wf
  | .fsinp f => f.wf
  | .fcosp f => f.wf
  | .badd2 f => f.v.wf
  | .bmul2 f => f.v.wf
  | .bfma2 f => f.v.wf
  | .dadd f => f.v.wf
  | .dmul f => f.v.wf
  | .dfma f => f.v.wf
  | .cvt f => f.v.wf
  | .bfpcvt f => f.v.wf && !f.fl.getLsbD 2
  | .bfpcvtExpand f => f.v.wf && f.fl.getLsbD 2
  | .resc f => f.v.wf
  | .modop f => f.v.wf
  | .fclass f => f.wf
  | .sadd f => f.wf
  | .ssub f => f.wf
  | .smul f => f.wf
  | .smulhI f => f.wf
  | .smulhN f => f.wf
  | .sand f => f.wf
  | .sor f => f.wf
  | .sxor f => f.wf
  | .sshl f => f.wf
  | .sshr f => f.wf
  | .ssar f => f.wf
  | .sminI f => f.wf
  | .sminN f => f.wf
  | .smaxI f => f.wf
  | .smaxN f => f.wf
  | .sceq f => f.wf
  | .scltI f => f.wf
  | .scltN f => f.wf
  | .ssel f => f.wf
  | .smov f => f.wf
  | .sbfe f => f.wf
  | .spopc f => f.wf
  | .sclz f => f.wf
  | .srdl f => f.wf
  | .srdsr f => f.wf
  | .swrsr f => f.wf
  | .sfirst f => f.wf
  | .sldk f => f.wf
  | .sldg f => f.wf
  | .sstg f => f.wf
  | .saadd f => f.wf
  | .sacas f => f.wf
  | .ldg _ => true
  | .ldgb _ => true
  | .stg _ => true
  | .stgb _ => true
  | .lds _ => true
  | .ldsb _ => true
  | .sts _ => true
  | .stsb _ => true
  | .ldk _ => true
  | .aadd _ => true
  | .aminI _ => true
  | .aminN _ => true
  | .amaxI _ => true
  | .amaxN _ => true
  | .aand _ => true
  | .aor _ => true
  | .axor _ => true
  | .axchg _ => true
  | .acas _ => true
  | .afadd _ => true
  | .aincw _ => true
  | .gather _ => true
  | .scatter _ => true
  | .pref _ => true
  | .acq _ => true
  | .rel _ => true
  | .fence _ => true
  | .lidbind _ => true
  | .lidunb _ => true
  | .seal _ => true
  | .unseal _ => true
  | .cinv _ => true
  | .spalloc _ => true
  | .spfree _ => true
  | .sprenew _ => true
  | .spquery _ => true
  | .cbcfg _ => true
  | .cbwait _ => true
  | .cbrel _ => true
  | .npush _ => true
  | .npop _ => true
  | .npeek _ => true
  | .npstat _ => true
  | .shfl _ => true
  | .vote _ => true
  | .redux f => f.sz ≠ 2
  | .reduxLong f => f.sz = 2
  | .prfx f => !f.sz.getLsbD 1
  | .prfxLong f => f.sz.getLsbD 1
  | .cpg2s _ => true
  | .cps2g _ => true
  | .cpmc _ => true
  | .cpxf _ => true
  | .cpt2s _ => true
  | .cps2t _ => true
  | .cseal _ => true
  | .cwait _ => true
  | .ttq f => f.sz ≠ 1
  | .ttqMem f => f.sz = 1
  | .sigadd _ => true
  | .sigwait _ => true
  | .sqadd _ => true
  | .sqtake _ => true
  | .nop _ => true
  | .bra _ => true
  | .brv _ => true
  | .brs _ => true
  | .brx f => f.wf
  | .call _ => true
  | .calli f => f.wf
  | .ret f => f.wf
  | .exit _ => true
  | .yield _ => true
  | .sleep f => f.wf
  | .bar f => f.wf
  | .bara f => f.wf
  | .barw f => f.wf
  | .bcarm f => f.wf
  | .bcwait f => f.wf
  | .treduce f => f.wf
  | .launch f => f.wf
  | .cancel f => f.wf
  | .trap f => f.wf
  | .rte _ => true
  | .chkerr f => f.wf
  | .pcvrd f => f.wf
  | .pcvwr f => f.wf
  | .rdcont f => f.wf
  | .fltinj f => f.wf
  | .tlbinv f => f.wf
  | .l2wb f => f.wf
  | .bkpt f => f.wf
  | .halt _ => true
  | .ckpt _ => true
  | .copyPieceLanded => true
  | .mirrorAcknowledgement => true
  | .faultRingHeadAdvance => true
  | .deviceNumberAssign => true
  | .coreClockThrottle => true
  | .frameTableSet => true

/-- Well-formed operands of an event: the parts, contexts and indices that it names exist (R13, R86). -/
def EventArg.wf (i : Instr) (x : EventArg) : Bool :=
  match i with
  | .powerGood => true
  | .reset => true
  | .bringupStepEnd => (match x.body with | .step r => r.failed.all PartRef.wf | _ => false)
  | .bringupStepTimeout => true
  | .controlDieError => true
  | .partLost => (match x.body with | .part p => p.wf | _ => false)
  | .serviceActionComplete => (match x.body with | .part p => p.wf | _ => false)
  | .channelDieRetire => decide (x.a < 32)
  | .dieRebuild => decide (x.a < 4)
  | .dieRetired => decide (x.a < 4)
  | .retirecntSet => decide (x.a < 4)
  | .busLaneRecalibrate => decide (x.a < 7936) && decide (x.b < 74)
  | .sliceRetire => decide (x.a < 192)
  | .sliceForward => decide (x.a < 192)
  | .sliceHandover => decide (x.a < 192)
  | .sliceOff => decide (x.a < 192)
  | .tsBankFence => decide (x.a < 256)
  | .tsBankRetire => decide (x.a < 256)
  | .hbmStackRetire => decide (x.a < 16)
  | .firmwareUpdate => (match x.body with | .image i => decide (i.core < 4 ∧ i.kind < 4) | _ => false)
  | .attestationRequest => (match x.body with | .nonce _ => true | _ => false)
  | .managementWindowRead => true
  | .profileWrite => decide (x.a < 8) && (match x.body with | .profile _ => true | _ => false)
  | .contextCreate => (match x.body with | .create _ => true | _ => false)
  | .contextDestroy => decide (x.a < 64)
  | .contextReleased => decide (x.a < 64)
  | .ctxcfgSet => decide (x.a < 64) && (match x.body with | .dword _ => true | _ => false)
  | .parkTimeout => decide (x.a < 64)
  | .parkRenewal => decide (x.a < 64)
  | .queueCreate => (match x.body with | .queue _ => true | _ => false)
  | .queueActivate => true
  | .queueSuspend => true
  | .queueResume => true
  | .queueDestroy => true
  | .tailObserve => true
  | .recordRead => true
  | .admission => true
  | .dependenceMet => true
  | .dispatchTeam => decide (x.a < 4)
  | .teamSave => true
  | .deferralTimeout => true
  | .backpressureTimeout => true
  | .haltResume => true
  | .heldTeamCancel => true
  | .cancellationObserved => true
  | .launchDrained => true
  | .clauseFetch => true
  | .haltArrival => true
  | .sstepTrap => true
  | .rowGrant => decide (x.a < 384)
  | .rowSpill => decide (x.a < 384)
  | .rowDrowsy => true
  | .groupRelease => true
  | .countedOpComplete => true
  | .shadowMismatch => true
  | .shadowLagTimeout => true
  | .sleepExpiry => true
  | .portEntryArrival => decide (x.b < 224)
  | .portWaitMet => true
  | .portTimeout => true
  | .barrierRelease => true
  | .treduceRelease => true
  | .bcwaitMet => true
  | .lidGrant => true
  | .signalObserved => true
  | .stageQueueWaitMet => true
  | .slotLanded => decide (x.a < 384)
  | .copyComplete => true
  | .retnPublish => decide (x.a < 384)
  | .mirrorAckTimeout => true
  | .faultRingSet => decide (x.a < 64)
  | .resolve => decide (x.a < 64)
  | .recode => true
  | .migrate => true
  | .release => true
  | .l2EvictionWriteback => true
  | .chunkListFill => decide (x.a < 4)
  | .chunkListDrain => decide (x.a < 4)
  | .reserveSet => decide (x.a < 4)
  | .chunkReserveReplay => decide (x.a < 4)
  | .hotidleSet => decide (x.a < 4)
  | .windowTableWrite => decide (x.a < 2048) && (match x.body with | .dword _ => true | _ => false)
  | .inboundTableWrite => decide (x.a < 256) && (match x.body with | .inboundEntry _ => true | _ => false)
  | .inboundRequest => (match x.body with | .inbound r => decide (r.size ≤ 256) | _ => false)
  | .inboundMessageRequest => true
  | .peerFaultResponse => true
  | .peerTimeout => true
  | .portTrained => decide (x.a < 64)
  | .trainingTimeout => decide (x.a < 64)
  | .linkErrorRetrain => decide (x.a < 64)
  | .retrainDone => decide (x.a < 64)
  | .retrainTimeout => decide (x.a < 64)
  | .linkFence => decide (x.a < 64)
  | .linkReturn => decide (x.a < 64)
  | .linkRetire => decide (x.a < 64)
  | .busRetrainDue => decide (x.a < 7936)
  | .busRetrainStart => decide (x.a < 7936)
  | .busRetrainDone => decide (x.a < 7936)
  | .burstRetry => decide (x.a < 7936) && (match x.body with | .nats _ => true | _ => false)
  | .laneRepairStart => decide (x.a < 7936) && decide (x.b < 74)
  | .quiesceDone => decide (x.a < 7936)
  | .repairDone => decide (x.a < 7936)
  | .patrolScrub => decide (x.a < 4) && (match x.body with | .errors _ => true | _ => false)
  | .tokenRegenerate => decide (x.a < 240)
  | .heaterTrim => decide (x.a < 4) && (match x.body with | .nats _ => true | _ => false)
  | .debugRegisterRead => decide (x.c < 32)
  | .taskQueueCreate => (match x.body with | .taskQueue _ => true | _ => false)
  | .taskQueueDestroy => decide (x.a < 48) && decide (x.b < 8)
  | .taskWindowEntry => (match x.body with | .task t => t.wf | _ => false)
  | .taskReady => (match x.body with | .task t => t.wf | _ => false)
  | .taskStart => (match x.body with | .task t => t.wf | _ => false)
  | .note => (match x.body with | .task t => t.wf | _ => false)
  | .zero => (match x.body with | .task t => t.wf | _ => false)
  | .loadb => (match x.body with | .task t => t.wf | _ => false)
  | .mma => (match x.body with | .task t => t.wf | _ => false)
  | .mmag => (match x.body with | .task t => t.wf | _ => false)
  | .drain => (match x.body with | .task t => t.wf | _ => false)
  | .accld => (match x.body with | .task t => t.wf | _ => false)
  | .accst => (match x.body with | .task t => t.wf | _ => false)
  | .taskEnd => (match x.body with | .task t => t.wf | _ => false)
  | .tensorCreate => (match x.body with | .tensor _ => true | _ => false)
  | .tensorDestroy => decide (x.a < 64) && decide (x.b < 1024)
  | .decodeSessionOpen => (match x.body with | .session _ => true | _ => false)
  | .decodeSessionClose => decide (x.a < 4) && decide (x.b < 64)
  | .copyPieceLanded => true
  | .mirrorAcknowledgement => true
  | .faultRingHeadAdvance => decide (x.a < 64)
  | .deviceNumberAssign => true
  | .coreClockThrottle => decide (x.a < 4)
  | .frameTableSet => (match x.body with | .frame _ => true | _ => false)
  | _ => true

/-- The well-formedness of a step as a proposition. -/
abbrev Instr.WellFormed (i : Instr) : Prop := i.wf = true

end Sys2Proof
end

