-- ==== Sys2Proof/Decode.lean ====
section
/-! DEFINITION. Decoding (R53 to R76, R456): instruction words to `Instr`, the check of R74 over a whole clause, and the
encoder, all from the encoding tables of 03_encoding.md. -/

namespace Sys2Proof

/-- Why a word list is not an instruction: no word, an unassigned opcode (R71 to R73), or an extension or literal word
that is missing (R55). -/
inductive DecodeError where
  | empty | unassigned (op : BitVec 8) | truncated
  deriving DecidableEq, Repr

/-- Bits [hi:lo] of a word as a vector of `n` bits starting at `lo` (R4). -/
abbrev fieldOf (w : Word) (lo n : Nat) : BitVec n := w.extractLsb' lo n

/-- The literal word an instruction takes from the words that follow it, when `wants` says it has one (R63). -/
def takeLit (wants : Bool) (rest : List Word) : Except DecodeError (Option Word × List Word) :=
  if wants then
    match rest with
    | [] => .error .truncated
    | l :: rest => .ok (some l, rest)
  else .ok (none, rest)

/-- The VR fields of a word, without its literal (R60). -/
def vrOf (w : Word) (lit : Option Word) : VR :=
  { d := fieldOf w 18 6, a := fieldOf w 12 6, la := w.getLsbD 11, b := fieldOf w 4 7, lb := w.getLsbD 3,
    stall := fieldOf w 0 3, lit := lit }

/-- The VX fields of a word and its extension word (R62). -/
def vxOf (w x : Word) (lit : Option Word) : VX :=
  { v := vrOf w lit, rm := fieldOf x 29 3, sub := fieldOf x 24 5, k := fieldOf x 16 8, fl := fieldOf x 12 4,
    mbz := fieldOf x 0 12 }

/-- The SR fields of a word (R64, R309). -/
def srOf (w : Word) (lit : Option Word) : SR :=
  { d := fieldOf w 17 7, a := fieldOf w 10 7, b := fieldOf w 3 7, stall := fieldOf w 0 3, lit := lit }

/-- The MX fields of a word (R66). -/
def mxOf (w : Word) : MX :=
  { data := fieldOf w 18 6, off := fieldOf w 12 6, base := fieldOf w 5 7, dc := fieldOf w 2 3, sz := fieldOf w 0 2 }

/-- The CXR fields of a word (R67). -/
def cxrOf (w : Word) (lit : Option Word) : CXR :=
  { p := fieldOf w 17 7, q := fieldOf w 10 7, imm := fieldOf w 0 10, lit := lit }

/-- The CXB fields of a word (R67). -/
def cxbOf (w : Word) : CXB :=
  { reg := fieldOf w 17 7, cond := fieldOf w 15 2, off := fieldOf w 0 15 }

/-- The CXL fields of a word (R67). -/
def cxlOf (w : Word) : CXL :=
  { link := fieldOf w 18 6, off := fieldOf w 0 18 }

/-- The VR instructions by domain and opcode (R70). -/
def vrCtor : Nat → Option (VR → Instr)
  | 0 => some .iadd
  | 1 => some .isub
  | 2 => some .imul
  | 3 => some .imulhI
  | 4 => some .imulhN
  | 5 => some .imad
  | 6 => some .iminI
  | 7 => some .iminN
  | 8 => some .imaxI
  | 9 => some .imaxN
  | 10 => some .iabs
  | 11 => some .ineg
  | 12 => some .vand
  | 13 => some .vor
  | 14 => some .vxor
  | 15 => some .vandn
  | 16 => some .shl
  | 17 => some .shr
  | 18 => some .sar
  | 19 => some .rol
  | 20 => some .bfeI
  | 21 => some .bfeN
  | 22 => some .bfi
  | 23 => some .popc
  | 24 => some .clz
  | 25 => some .brev
  | 26 => some .iceq
  | 27 => some .icne
  | 28 => some .icltI
  | 29 => some .icltN
  | 30 => some .icleI
  | 31 => some .icleN
  | 32 => some .sel
  | 33 => some .vmov
  | 38 => some .fmin
  | 39 => some .fmax
  | 40 => some .fabs
  | 41 => some .fneg
  | 42 => some .fceq
  | 43 => some .fclt
  | 44 => some .fcle
  | 45 => some .fcun
  | 46 => some .frcp
  | 47 => some .frsq
  | 49 => some .fexp2
  | 50 => some .flog2
  | 51 => some .fsinp
  | 52 => some .fcosp
  | 63 => some .fclass
  | _ => none

/-- The VX instructions by domain and opcode (R62, R70); FL[2] of BFPCVT is EXPAND (R191). -/
def vxCtor : Nat → Option (VX → Instr)
  | 34 => some .fadd
  | 35 => some .fsub
  | 36 => some .fmul
  | 37 => some .ffma
  | 48 => some .fsqrt
  | 53 => some .badd2
  | 54 => some .bmul2
  | 55 => some .bfma2
  | 56 => some .dadd
  | 57 => some .dmul
  | 58 => some .dfma
  | 59 => some .cvt
  | 60 => some (fun f => if f.fl.getLsbD 2 then .bfpcvtExpand f else .bfpcvt f)
  | 61 => some .resc
  | 62 => some .modop
  | _ => none

/-- The SR instructions by domain and opcode (R71). -/
def srCtor : Nat → Option (SR → Instr)
  | 64 => some .sadd
  | 65 => some .ssub
  | 66 => some .smul
  | 67 => some .smulhI
  | 68 => some .smulhN
  | 69 => some .sand
  | 70 => some .sor
  | 71 => some .sxor
  | 72 => some .sshl
  | 73 => some .sshr
  | 74 => some .ssar
  | 75 => some .sminI
  | 76 => some .sminN
  | 77 => some .smaxI
  | 78 => some .smaxN
  | 79 => some .sceq
  | 80 => some .scltI
  | 81 => some .scltN
  | 82 => some .ssel
  | 83 => some .smov
  | 84 => some .sbfe
  | 85 => some .spopc
  | 86 => some .sclz
  | 87 => some .srdl
  | 88 => some .srdsr
  | 89 => some .swrsr
  | 90 => some .sfirst
  | 91 => some .sldk
  | 92 => some .sldg
  | 93 => some .sstg
  | 94 => some .saadd
  | 95 => some .sacas
  | _ => none

/-- The MX instructions by domain and opcode (R72); SZ tells the long forms and TTQ.mem apart (R350, R391). -/
def mxCtor : Nat → Option (MX → Instr)
  | 128 => some .ldg
  | 129 => some .ldgb
  | 130 => some .stg
  | 131 => some .stgb
  | 132 => some .lds
  | 133 => some .ldsb
  | 134 => some .sts
  | 135 => some .stsb
  | 136 => some .ldk
  | 137 => some .aadd
  | 138 => some .aminI
  | 139 => some .aminN
  | 140 => some .amaxI
  | 141 => some .amaxN
  | 142 => some .aand
  | 143 => some .aor
  | 144 => some .axor
  | 145 => some .axchg
  | 146 => some .acas
  | 147 => some .afadd
  | 148 => some .aincw
  | 149 => some .gather
  | 150 => some .scatter
  | 151 => some .pref
  | 152 => some .acq
  | 153 => some .rel
  | 154 => some .fence
  | 155 => some .lidbind
  | 156 => some .lidunb
  | 157 => some .seal
  | 158 => some .unseal
  | 159 => some .cinv
  | 160 => some .spalloc
  | 161 => some .spfree
  | 162 => some .sprenew
  | 163 => some .spquery
  | 164 => some .cbcfg
  | 165 => some .cbwait
  | 166 => some .cbrel
  | 167 => some .npush
  | 168 => some .npop
  | 169 => some .npeek
  | 170 => some .npstat
  | 171 => some .shfl
  | 172 => some .vote
  | 173 => some (fun f => if f.sz = 2 then .reduxLong f else .redux f)
  | 174 => some (fun f => if f.sz.getLsbD 1 then .prfxLong f else .prfx f)
  | 175 => some .cpg2s
  | 176 => some .cps2g
  | 177 => some .cpmc
  | 178 => some .cpxf
  | 179 => some .cpt2s
  | 180 => some .cps2t
  | 181 => some .cseal
  | 182 => some .cwait
  | 183 => some (fun f => if f.sz = 1 then .ttqMem f else .ttq f)
  | 184 => some .sigadd
  | 185 => some .sigwait
  | 186 => some .sqadd
  | 187 => some .sqtake
  | _ => none

/-- The CXN instructions by domain and opcode (R67). -/
def cxnCtor : Nat → Option (CXN → Instr)
  | 192 => some .nop
  | 200 => some .exit
  | 201 => some .yield
  | 212 => some .rte
  | 221 => some .halt
  | 222 => some .ckpt
  | _ => none

/-- The CXR instructions by domain and opcode (R67). -/
def cxrCtor : Nat → Option (CXR → Instr)
  | 196 => some .brx
  | 198 => some .calli
  | 199 => some .ret
  | 202 => some .sleep
  | 203 => some .bar
  | 204 => some .bara
  | 205 => some .barw
  | 206 => some .bcarm
  | 207 => some .bcwait
  | 208 => some .treduce
  | 209 => some .launch
  | 210 => some .cancel
  | 211 => some .trap
  | 213 => some .chkerr
  | 214 => some .pcvrd
  | 215 => some .pcvwr
  | 216 => some .rdcont
  | 217 => some .fltinj
  | 218 => some .tlbinv
  | 219 => some .l2wb
  | 220 => some .bkpt
  | _ => none

/-- One instruction from the front of a list of code words, with the words that are left (R55, R59 to R67). -/
def decode (ws : List Word) : Except DecodeError (Instr × List Word) :=
  match ws with
  | [] => .error .empty
  | w :: rest =>
    let op := (fieldOf w 24 8).toNat
    match vrCtor op with
    | some mk =>
      match takeLit (fieldOf w 4 7 = 127) rest with
      | .ok (lit, rest) => .ok (mk (vrOf w lit), rest)
      | .error e => .error e
    | none =>
    match vxCtor op with
    | some mk =>
      match rest with
      | [] => .error .truncated
      | x :: rest =>
        match takeLit (fieldOf w 4 7 = 127) rest with
        | .ok (lit, rest) => .ok (mk (vxOf w x lit), rest)
        | .error e => .error e
    | none =>
    match srCtor op with
    | some mk =>
      match takeLit (fieldOf w 3 7 = 127) rest with
      | .ok (lit, rest) => .ok (mk (srOf w lit), rest)
      | .error e => .error e
    | none =>
    match mxCtor op with
    | some mk => .ok (mk (mxOf w), rest)
    | none =>
    match cxnCtor op with
    | some mk => .ok (mk ⟨fieldOf w 0 24⟩, rest)
    | none =>
    match cxrCtor op with
    | some mk =>
      match takeLit (fieldOf w 17 7 = 127 || fieldOf w 10 7 = 127) rest with
      | .ok (lit, rest) => .ok (mk (cxrOf w lit), rest)
      | .error e => .error e
    | none =>
      if op = 193 then .ok (.bra ⟨fieldOf w 0 24⟩, rest)
      else if op = 194 then .ok (.brv (cxbOf w), rest)
      else if op = 195 then .ok (.brs (cxbOf w), rest)
      else if op = 197 then .ok (.call (cxlOf w), rest)
      else .error (.unassigned (fieldOf w 24 8))

/-- The domain and opcode of an instruction word (R59, R70 to R73); none for an event. -/
def Instr.top : Instr → Option (BitVec 8)
  | .powerGood => none
  | .reset => none
  | .bringupStepEnd => none
  | .bringupStepTimeout => none
  | .controlDieError => none
  | .partLost => none
  | .serviceActionComplete => none
  | .channelDieRetire => none
  | .dieRebuild => none
  | .dieRetired => none
  | .retirecntSet => none
  | .busLaneRecalibrate => none
  | .sliceRetire => none
  | .sliceForward => none
  | .sliceHandover => none
  | .sliceOff => none
  | .tsBankFence => none
  | .tsBankRetire => none
  | .hbmStackRetire => none
  | .firmwareUpdate => none
  | .attestationRequest => none
  | .managementWindowRead => none
  | .profileWrite => none
  | .contextCreate => none
  | .contextDestroy => none
  | .contextReleased => none
  | .ctxcfgSet => none
  | .parkTimeout => none
  | .parkRenewal => none
  | .queueCreate => none
  | .queueActivate => none
  | .queueSuspend => none
  | .queueResume => none
  | .queueDestroy => none
  | .tailObserve => none
  | .recordRead => none
  | .admission => none
  | .dependenceMet => none
  | .dispatchTeam => none
  | .teamSave => none
  | .deferralTimeout => none
  | .backpressureTimeout => none
  | .haltResume => none
  | .heldTeamCancel => none
  | .cancellationObserved => none
  | .launchDrained => none
  | .clauseFetch => none
  | .haltArrival => none
  | .sstepTrap => none
  | .rowGrant => none
  | .rowSpill => none
  | .rowDrowsy => none
  | .groupRelease => none
  | .countedOpComplete => none
  | .shadowMismatch => none
  | .shadowLagTimeout => none
  | .sleepExpiry => none
  | .portEntryArrival => none
  | .portWaitMet => none
  | .portTimeout => none
  | .barrierRelease => none
  | .treduceRelease => none
  | .bcwaitMet => none
  | .lidGrant => none
  | .signalObserved => none
  | .stageQueueWaitMet => none
  | .slotLanded => none
  | .copyComplete => none
  | .retnPublish => none
  | .mirrorAckTimeout => none
  | .faultRingSet => none
  | .resolve => none
  | .recode => none
  | .migrate => none
  | .release => none
  | .l2EvictionWriteback => none
  | .chunkListFill => none
  | .chunkListDrain => none
  | .reserveSet => none
  | .chunkReserveReplay => none
  | .hotidleSet => none
  | .windowTableWrite => none
  | .inboundTableWrite => none
  | .inboundRequest => none
  | .inboundMessageRequest => none
  | .peerFaultResponse => none
  | .peerTimeout => none
  | .portTrained => none
  | .trainingTimeout => none
  | .linkErrorRetrain => none
  | .retrainDone => none
  | .retrainTimeout => none
  | .linkFence => none
  | .linkReturn => none
  | .linkRetire => none
  | .busRetrainDue => none
  | .busRetrainStart => none
  | .busRetrainDone => none
  | .burstRetry => none
  | .laneRepairStart => none
  | .quiesceDone => none
  | .repairDone => none
  | .patrolScrub => none
  | .tokenRegenerate => none
  | .heaterTrim => none
  | .debugRegisterRead => none
  | .taskQueueCreate => none
  | .taskQueueDestroy => none
  | .taskWindowEntry => none
  | .taskReady => none
  | .taskStart => none
  | .note => none
  | .zero => none
  | .loadb => none
  | .mma => none
  | .mmag => none
  | .drain => none
  | .accld => none
  | .accst => none
  | .taskEnd => none
  | .tensorCreate => none
  | .tensorDestroy => none
  | .decodeSessionOpen => none
  | .decodeSessionClose => none
  | .iadd _ => some 0
  | .isub _ => some 1
  | .imul _ => some 2
  | .imulhI _ => some 3
  | .imulhN _ => some 4
  | .imad _ => some 5
  | .iminI _ => some 6
  | .iminN _ => some 7
  | .imaxI _ => some 8
  | .imaxN _ => some 9
  | .iabs _ => some 10
  | .ineg _ => some 11
  | .vand _ => some 12
  | .vor _ => some 13
  | .vxor _ => some 14
  | .vandn _ => some 15
  | .shl _ => some 16
  | .shr _ => some 17
  | .sar _ => some 18
  | .rol _ => some 19
  | .bfeI _ => some 20
  | .bfeN _ => some 21
  | .bfi _ => some 22
  | .popc _ => some 23
  | .clz _ => some 24
  | .brev _ => some 25
  | .iceq _ => some 26
  | .icne _ => some 27
  | .icltI _ => some 28
  | .icltN _ => some 29
  | .icleI _ => some 30
  | .icleN _ => some 31
  | .sel _ => some 32
  | .vmov _ => some 33
  | .fadd _ => some 34
  | .fsub _ => some 35
  | .fmul _ => some 36
  | .ffma _ => some 37
  | .fmin _ => some 38
  | .fmax _ => some 39
  | .fabs _ => some 40
  | .fneg _ => some 41
  | .fceq _ => some 42
  | .fclt _ => some 43
  | .fcle _ => some 44
  | .fcun _ => some 45
  | .frcp _ => some 46
  | .frsq _ => some 47
  | .fsqrt _ => some 48
  | .fexp2 _ => some 49
  | .flog2 _ => some 50
  | .fsinp _ => some 51
  | .fcosp _ => some 52
  | .badd2 _ => some 53
  | .bmul2 _ => some 54
  | .bfma2 _ => some 55
  | .dadd _ => some 56
  | .dmul _ => some 57
  | .dfma _ => some 58
  | .cvt _ => some 59
  | .bfpcvt _ => some 60
  | .bfpcvtExpand _ => some 60
  | .resc _ => some 61
  | .modop _ => some 62
  | .fclass _ => some 63
  | .sadd _ => some 64
  | .ssub _ => some 65
  | .smul _ => some 66
  | .smulhI _ => some 67
  | .smulhN _ => some 68
  | .sand _ => some 69
  | .sor _ => some 70
  | .sxor _ => some 71
  | .sshl _ => some 72
  | .sshr _ => some 73
  | .ssar _ => some 74
  | .sminI _ => some 75
  | .sminN _ => some 76
  | .smaxI _ => some 77
  | .smaxN _ => some 78
  | .sceq _ => some 79
  | .scltI _ => some 80
  | .scltN _ => some 81
  | .ssel _ => some 82
  | .smov _ => some 83
  | .sbfe _ => some 84
  | .spopc _ => some 85
  | .sclz _ => some 86
  | .srdl _ => some 87
  | .srdsr _ => some 88
  | .swrsr _ => some 89
  | .sfirst _ => some 90
  | .sldk _ => some 91
  | .sldg _ => some 92
  | .sstg _ => some 93
  | .saadd _ => some 94
  | .sacas _ => some 95
  | .ldg _ => some 128
  | .ldgb _ => some 129
  | .stg _ => some 130
  | .stgb _ => some 131
  | .lds _ => some 132
  | .ldsb _ => some 133
  | .sts _ => some 134
  | .stsb _ => some 135
  | .ldk _ => some 136
  | .aadd _ => some 137
  | .aminI _ => some 138
  | .aminN _ => some 139
  | .amaxI _ => some 140
  | .amaxN _ => some 141
  | .aand _ => some 142
  | .aor _ => some 143
  | .axor _ => some 144
  | .axchg _ => some 145
  | .acas _ => some 146
  | .afadd _ => some 147
  | .aincw _ => some 148
  | .gather _ => some 149
  | .scatter _ => some 150
  | .pref _ => some 151
  | .acq _ => some 152
  | .rel _ => some 153
  | .fence _ => some 154
  | .lidbind _ => some 155
  | .lidunb _ => some 156
  | .seal _ => some 157
  | .unseal _ => some 158
  | .cinv _ => some 159
  | .spalloc _ => some 160
  | .spfree _ => some 161
  | .sprenew _ => some 162
  | .spquery _ => some 163
  | .cbcfg _ => some 164
  | .cbwait _ => some 165
  | .cbrel _ => some 166
  | .npush _ => some 167
  | .npop _ => some 168
  | .npeek _ => some 169
  | .npstat _ => some 170
  | .shfl _ => some 171
  | .vote _ => some 172
  | .redux _ => some 173
  | .reduxLong _ => some 173
  | .prfx _ => some 174
  | .prfxLong _ => some 174
  | .cpg2s _ => some 175
  | .cps2g _ => some 176
  | .cpmc _ => some 177
  | .cpxf _ => some 178
  | .cpt2s _ => some 179
  | .cps2t _ => some 180
  | .cseal _ => some 181
  | .cwait _ => some 182
  | .ttq _ => some 183
  | .ttqMem _ => some 183
  | .sigadd _ => some 184
  | .sigwait _ => some 185
  | .sqadd _ => some 186
  | .sqtake _ => some 187
  | .nop _ => some 192
  | .bra _ => some 193
  | .brv _ => some 194
  | .brs _ => some 195
  | .brx _ => some 196
  | .call _ => some 197
  | .calli _ => some 198
  | .ret _ => some 199
  | .exit _ => some 200
  | .yield _ => some 201
  | .sleep _ => some 202
  | .bar _ => some 203
  | .bara _ => some 204
  | .barw _ => some 205
  | .bcarm _ => some 206
  | .bcwait _ => some 207
  | .treduce _ => some 208
  | .launch _ => some 209
  | .cancel _ => some 210
  | .trap _ => some 211
  | .rte _ => some 212
  | .chkerr _ => some 213
  | .pcvrd _ => some 214
  | .pcvwr _ => some 215
  | .rdcont _ => some 216
  | .fltinj _ => some 217
  | .tlbinv _ => some 218
  | .l2wb _ => some 219
  | .bkpt _ => some 220
  | .halt _ => some 221
  | .ckpt _ => some 222
  | .copyPieceLanded => none
  | .mirrorAcknowledgement => none
  | .faultRingHeadAdvance => none
  | .deviceNumberAssign => none
  | .coreClockThrottle => none
  | .frameTableSet => none

/-- The word of a VR instruction (R189). -/
def VR.word (op : BitVec 8) (f : VR) : Word :=
  op ++ f.d ++ f.a ++ BitVec.ofBool f.la ++ f.b ++ BitVec.ofBool f.lb ++ f.stall

/-- The extension word of a VX instruction (R62). -/
def VX.ext (f : VX) : Word := f.rm ++ f.sub ++ f.k ++ f.fl ++ f.mbz

/-- The word of an SR instruction (R189). -/
def SR.word (op : BitVec 8) (f : SR) : Word := op ++ f.d ++ f.a ++ f.b ++ f.stall

/-- The word of an MX instruction (R241, R305). -/
def MX.word (op : BitVec 8) (f : MX) : Word := op ++ f.data ++ f.off ++ f.base ++ f.dc ++ f.sz

/-- The word of a CXR instruction (R67). -/
def CXR.word (op : BitVec 8) (f : CXR) : Word := op ++ f.p ++ f.q ++ f.imm

/-- The words of an instruction: its word, its extension word and its literal (R55); none for an event. -/
def encode (i : Instr) : List Word :=
  match i with
  | .powerGood => []
  | .reset => []
  | .bringupStepEnd => []
  | .bringupStepTimeout => []
  | .controlDieError => []
  | .partLost => []
  | .serviceActionComplete => []
  | .channelDieRetire => []
  | .dieRebuild => []
  | .dieRetired => []
  | .retirecntSet => []
  | .busLaneRecalibrate => []
  | .sliceRetire => []
  | .sliceForward => []
  | .sliceHandover => []
  | .sliceOff => []
  | .tsBankFence => []
  | .tsBankRetire => []
  | .hbmStackRetire => []
  | .firmwareUpdate => []
  | .attestationRequest => []
  | .managementWindowRead => []
  | .profileWrite => []
  | .contextCreate => []
  | .contextDestroy => []
  | .contextReleased => []
  | .ctxcfgSet => []
  | .parkTimeout => []
  | .parkRenewal => []
  | .queueCreate => []
  | .queueActivate => []
  | .queueSuspend => []
  | .queueResume => []
  | .queueDestroy => []
  | .tailObserve => []
  | .recordRead => []
  | .admission => []
  | .dependenceMet => []
  | .dispatchTeam => []
  | .teamSave => []
  | .deferralTimeout => []
  | .backpressureTimeout => []
  | .haltResume => []
  | .heldTeamCancel => []
  | .cancellationObserved => []
  | .launchDrained => []
  | .clauseFetch => []
  | .haltArrival => []
  | .sstepTrap => []
  | .rowGrant => []
  | .rowSpill => []
  | .rowDrowsy => []
  | .groupRelease => []
  | .countedOpComplete => []
  | .shadowMismatch => []
  | .shadowLagTimeout => []
  | .sleepExpiry => []
  | .portEntryArrival => []
  | .portWaitMet => []
  | .portTimeout => []
  | .barrierRelease => []
  | .treduceRelease => []
  | .bcwaitMet => []
  | .lidGrant => []
  | .signalObserved => []
  | .stageQueueWaitMet => []
  | .slotLanded => []
  | .copyComplete => []
  | .retnPublish => []
  | .mirrorAckTimeout => []
  | .faultRingSet => []
  | .resolve => []
  | .recode => []
  | .migrate => []
  | .release => []
  | .l2EvictionWriteback => []
  | .chunkListFill => []
  | .chunkListDrain => []
  | .reserveSet => []
  | .chunkReserveReplay => []
  | .hotidleSet => []
  | .windowTableWrite => []
  | .inboundTableWrite => []
  | .inboundRequest => []
  | .inboundMessageRequest => []
  | .peerFaultResponse => []
  | .peerTimeout => []
  | .portTrained => []
  | .trainingTimeout => []
  | .linkErrorRetrain => []
  | .retrainDone => []
  | .retrainTimeout => []
  | .linkFence => []
  | .linkReturn => []
  | .linkRetire => []
  | .busRetrainDue => []
  | .busRetrainStart => []
  | .busRetrainDone => []
  | .burstRetry => []
  | .laneRepairStart => []
  | .quiesceDone => []
  | .repairDone => []
  | .patrolScrub => []
  | .tokenRegenerate => []
  | .heaterTrim => []
  | .debugRegisterRead => []
  | .taskQueueCreate => []
  | .taskQueueDestroy => []
  | .taskWindowEntry => []
  | .taskReady => []
  | .taskStart => []
  | .note => []
  | .zero => []
  | .loadb => []
  | .mma => []
  | .mmag => []
  | .drain => []
  | .accld => []
  | .accst => []
  | .taskEnd => []
  | .tensorCreate => []
  | .tensorDestroy => []
  | .decodeSessionOpen => []
  | .decodeSessionClose => []
  | .iadd f => f.word 0 :: f.lit.toList
  | .isub f => f.word 1 :: f.lit.toList
  | .imul f => f.word 2 :: f.lit.toList
  | .imulhI f => f.word 3 :: f.lit.toList
  | .imulhN f => f.word 4 :: f.lit.toList
  | .imad f => f.word 5 :: f.lit.toList
  | .iminI f => f.word 6 :: f.lit.toList
  | .iminN f => f.word 7 :: f.lit.toList
  | .imaxI f => f.word 8 :: f.lit.toList
  | .imaxN f => f.word 9 :: f.lit.toList
  | .iabs f => f.word 10 :: f.lit.toList
  | .ineg f => f.word 11 :: f.lit.toList
  | .vand f => f.word 12 :: f.lit.toList
  | .vor f => f.word 13 :: f.lit.toList
  | .vxor f => f.word 14 :: f.lit.toList
  | .vandn f => f.word 15 :: f.lit.toList
  | .shl f => f.word 16 :: f.lit.toList
  | .shr f => f.word 17 :: f.lit.toList
  | .sar f => f.word 18 :: f.lit.toList
  | .rol f => f.word 19 :: f.lit.toList
  | .bfeI f => f.word 20 :: f.lit.toList
  | .bfeN f => f.word 21 :: f.lit.toList
  | .bfi f => f.word 22 :: f.lit.toList
  | .popc f => f.word 23 :: f.lit.toList
  | .clz f => f.word 24 :: f.lit.toList
  | .brev f => f.word 25 :: f.lit.toList
  | .iceq f => f.word 26 :: f.lit.toList
  | .icne f => f.word 27 :: f.lit.toList
  | .icltI f => f.word 28 :: f.lit.toList
  | .icltN f => f.word 29 :: f.lit.toList
  | .icleI f => f.word 30 :: f.lit.toList
  | .icleN f => f.word 31 :: f.lit.toList
  | .sel f => f.word 32 :: f.lit.toList
  | .vmov f => f.word 33 :: f.lit.toList
  | .fadd f => f.v.word 34 :: f.ext :: f.v.lit.toList
  | .fsub f => f.v.word 35 :: f.ext :: f.v.lit.toList
  | .fmul f => f.v.word 36 :: f.ext :: f.v.lit.toList
  | .ffma f => f.v.word 37 :: f.ext :: f.v.lit.toList
  | .fmin f => f.word 38 :: f.lit.toList
  | .fmax f => f.word 39 :: f.lit.toList
  | .fabs f => f.word 40 :: f.lit.toList
  | .fneg f => f.word 41 :: f.lit.toList
  | .fceq f => f.word 42 :: f.lit.toList
  | .fclt f => f.word 43 :: f.lit.toList
  | .fcle f => f.word 44 :: f.lit.toList
  | .fcun f => f.word 45 :: f.lit.toList
  | .frcp f => f.word 46 :: f.lit.toList
  | .frsq f => f.word 47 :: f.lit.toList
  | .fsqrt f => f.v.word 48 :: f.ext :: f.v.lit.toList
  | .fexp2 f => f.word 49 :: f.lit.toList
  | .flog2 f => f.word 50 :: f.lit.toList
  | .fsinp f => f.word 51 :: f.lit.toList
  | .fcosp f => f.word 52 :: f.lit.toList
  | .badd2 f => f.v.word 53 :: f.ext :: f.v.lit.toList
  | .bmul2 f => f.v.word 54 :: f.ext :: f.v.lit.toList
  | .bfma2 f => f.v.word 55 :: f.ext :: f.v.lit.toList
  | .dadd f => f.v.word 56 :: f.ext :: f.v.lit.toList
  | .dmul f => f.v.word 57 :: f.ext :: f.v.lit.toList
  | .dfma f => f.v.word 58 :: f.ext :: f.v.lit.toList
  | .cvt f => f.v.word 59 :: f.ext :: f.v.lit.toList
  | .bfpcvt f => f.v.word 60 :: f.ext :: f.v.lit.toList
  | .bfpcvtExpand f => f.v.word 60 :: f.ext :: f.v.lit.toList
  | .resc f => f.v.word 61 :: f.ext :: f.v.lit.toList
  | .modop f => f.v.word 62 :: f.ext :: f.v.lit.toList
  | .fclass f => f.word 63 :: f.lit.toList
  | .sadd f => f.word 64 :: f.lit.toList
  | .ssub f => f.word 65 :: f.lit.toList
  | .smul f => f.word 66 :: f.lit.toList
  | .smulhI f => f.word 67 :: f.lit.toList
  | .smulhN f => f.word 68 :: f.lit.toList
  | .sand f => f.word 69 :: f.lit.toList
  | .sor f => f.word 70 :: f.lit.toList
  | .sxor f => f.word 71 :: f.lit.toList
  | .sshl f => f.word 72 :: f.lit.toList
  | .sshr f => f.word 73 :: f.lit.toList
  | .ssar f => f.word 74 :: f.lit.toList
  | .sminI f => f.word 75 :: f.lit.toList
  | .sminN f => f.word 76 :: f.lit.toList
  | .smaxI f => f.word 77 :: f.lit.toList
  | .smaxN f => f.word 78 :: f.lit.toList
  | .sceq f => f.word 79 :: f.lit.toList
  | .scltI f => f.word 80 :: f.lit.toList
  | .scltN f => f.word 81 :: f.lit.toList
  | .ssel f => f.word 82 :: f.lit.toList
  | .smov f => f.word 83 :: f.lit.toList
  | .sbfe f => f.word 84 :: f.lit.toList
  | .spopc f => f.word 85 :: f.lit.toList
  | .sclz f => f.word 86 :: f.lit.toList
  | .srdl f => f.word 87 :: f.lit.toList
  | .srdsr f => f.word 88 :: f.lit.toList
  | .swrsr f => f.word 89 :: f.lit.toList
  | .sfirst f => f.word 90 :: f.lit.toList
  | .sldk f => f.word 91 :: f.lit.toList
  | .sldg f => f.word 92 :: f.lit.toList
  | .sstg f => f.word 93 :: f.lit.toList
  | .saadd f => f.word 94 :: f.lit.toList
  | .sacas f => f.word 95 :: f.lit.toList
  | .ldg f => [f.word 128]
  | .ldgb f => [f.word 129]
  | .stg f => [f.word 130]
  | .stgb f => [f.word 131]
  | .lds f => [f.word 132]
  | .ldsb f => [f.word 133]
  | .sts f => [f.word 134]
  | .stsb f => [f.word 135]
  | .ldk f => [f.word 136]
  | .aadd f => [f.word 137]
  | .aminI f => [f.word 138]
  | .aminN f => [f.word 139]
  | .amaxI f => [f.word 140]
  | .amaxN f => [f.word 141]
  | .aand f => [f.word 142]
  | .aor f => [f.word 143]
  | .axor f => [f.word 144]
  | .axchg f => [f.word 145]
  | .acas f => [f.word 146]
  | .afadd f => [f.word 147]
  | .aincw f => [f.word 148]
  | .gather f => [f.word 149]
  | .scatter f => [f.word 150]
  | .pref f => [f.word 151]
  | .acq f => [f.word 152]
  | .rel f => [f.word 153]
  | .fence f => [f.word 154]
  | .lidbind f => [f.word 155]
  | .lidunb f => [f.word 156]
  | .seal f => [f.word 157]
  | .unseal f => [f.word 158]
  | .cinv f => [f.word 159]
  | .spalloc f => [f.word 160]
  | .spfree f => [f.word 161]
  | .sprenew f => [f.word 162]
  | .spquery f => [f.word 163]
  | .cbcfg f => [f.word 164]
  | .cbwait f => [f.word 165]
  | .cbrel f => [f.word 166]
  | .npush f => [f.word 167]
  | .npop f => [f.word 168]
  | .npeek f => [f.word 169]
  | .npstat f => [f.word 170]
  | .shfl f => [f.word 171]
  | .vote f => [f.word 172]
  | .redux f => [f.word 173]
  | .reduxLong f => [f.word 173]
  | .prfx f => [f.word 174]
  | .prfxLong f => [f.word 174]
  | .cpg2s f => [f.word 175]
  | .cps2g f => [f.word 176]
  | .cpmc f => [f.word 177]
  | .cpxf f => [f.word 178]
  | .cpt2s f => [f.word 179]
  | .cps2t f => [f.word 180]
  | .cseal f => [f.word 181]
  | .cwait f => [f.word 182]
  | .ttq f => [f.word 183]
  | .ttqMem f => [f.word 183]
  | .sigadd f => [f.word 184]
  | .sigwait f => [f.word 185]
  | .sqadd f => [f.word 186]
  | .sqtake f => [f.word 187]
  | .nop f => [(192 : BitVec 8) ++ f.mbz]
  | .bra f => [(193 : BitVec 8) ++ f.off]
  | .brv f => [(194 : BitVec 8) ++ f.reg ++ f.cond ++ f.off]
  | .brs f => [(195 : BitVec 8) ++ f.reg ++ f.cond ++ f.off]
  | .brx f => f.word 196 :: f.lit.toList
  | .call f => [(197 : BitVec 8) ++ f.link ++ f.off]
  | .calli f => f.word 198 :: f.lit.toList
  | .ret f => f.word 199 :: f.lit.toList
  | .exit f => [(200 : BitVec 8) ++ f.mbz]
  | .yield f => [(201 : BitVec 8) ++ f.mbz]
  | .sleep f => f.word 202 :: f.lit.toList
  | .bar f => f.word 203 :: f.lit.toList
  | .bara f => f.word 204 :: f.lit.toList
  | .barw f => f.word 205 :: f.lit.toList
  | .bcarm f => f.word 206 :: f.lit.toList
  | .bcwait f => f.word 207 :: f.lit.toList
  | .treduce f => f.word 208 :: f.lit.toList
  | .launch f => f.word 209 :: f.lit.toList
  | .cancel f => f.word 210 :: f.lit.toList
  | .trap f => f.word 211 :: f.lit.toList
  | .rte f => [(212 : BitVec 8) ++ f.mbz]
  | .chkerr f => f.word 213 :: f.lit.toList
  | .pcvrd f => f.word 214 :: f.lit.toList
  | .pcvwr f => f.word 215 :: f.lit.toList
  | .rdcont f => f.word 216 :: f.lit.toList
  | .fltinj f => f.word 217 :: f.lit.toList
  | .tlbinv f => f.word 218 :: f.lit.toList
  | .l2wb f => f.word 219 :: f.lit.toList
  | .bkpt f => f.word 220 :: f.lit.toList
  | .halt f => [(221 : BitVec 8) ++ f.mbz]
  | .ckpt f => [(222 : BitVec 8) ++ f.mbz]
  | .copyPieceLanded => []
  | .mirrorAcknowledgement => []
  | .faultRingHeadAdvance => []
  | .deviceNumberAssign => []
  | .coreClockThrottle => []
  | .frameTableSet => []

/-- Whether a row of the table is an event: a step with no instruction word. -/
def Instr.isEvent (i : Instr) : Bool := i.top.isNone

/-- The clause class of an instruction (R69): none for NOP, which may stand in any clause. -/
def Instr.cls (i : Instr) : Option Nat :=
  match i.top with
  | none => none
  | some t =>
    let n := t.toNat
    if n < 64 + 27 then some 0
    else if n < 128 then some 1
    else if n < 128 + 47 then some 1
    else if n < 192 then some 2
    else if n = 192 then none
    else some 3

/-- The control transfers, which must end their clause (R55). -/
def Instr.isTransfer : Instr → Bool
  | .bra _ | .brv _ | .brs _ | .brx _ | .call _ | .calli _ | .ret _ | .exit _ | .rte _ => true
  | _ => false

/-- A last-use bit on a source that is not a vector register, or a first source given to a one-source instruction
(R60, R61). -/
def VR.rsvf (oneSource : Bool) (f : VR) : Bool :=
  (f.lb && decide (64 ≤ f.b.toNat)) || (oneSource && (f.la || decide (f.a ≠ 0)))

/-- A scalar operand code, s0 to s62 (R61). -/
def isScalarCode (c : BitVec 7) : Bool := decide (64 ≤ c.toNat ∧ c.toNat ≤ 126)

/-- An odd vector register where a pair is named by an operand code (R28, R208). -/
def oddVector (c : BitVec 7) : Bool := decide (c.toNat < 64) && c.getLsbD 0

/-- Whether a conversion code rounds (R210). -/
def cvtRounds (sub : Nat) : Bool := sub ∈ [0, 1, 2, 3, 4, 6, 9, 12, 13, 14, 15, 16, 17, 18, 19, 20, 21]

/-- Whether a conversion code allows SAT (R210). -/
def cvtSat (sub : Nat) : Bool := sub ∈ [4, 6, 9, 20, 21]

/-- Whether the source of a conversion code is a pair (R210). -/
def cvtSrcPair (sub : Nat) : Bool := sub ∈ [9, 12, 13, 14, 15, 16, 17, 18, 20, 21, 28]

/-- Whether the destination of a conversion code is a pair (R210). -/
def cvtDstPair (sub : Nat) : Bool := sub ∈ [8, 10, 11, 14, 15, 16, 17, 19, 22, 23]

/-- The extension word of the rounding arithmetic (R191). -/
def VX.rsvfRound (f : VX) (sat : Bool) : Bool :=
  decide (4 < f.rm.toNat) || decide (f.sub ≠ 0) || decide (f.k ≠ 0) || decide (f.mbz ≠ 0) ||
    decide ((if sat then f.fl.toNat / 2 else f.fl.toNat) ≠ 0)

/-- The pair registers of fp64 arithmetic (R208). -/
def VX.rsvfPairs (f : VX) : Bool := f.v.d.getLsbD 0 || f.v.a.getLsbD 0 || oddVector f.v.b

/-- The modulus choice of RESC and MODOP (R215): CH selects a channel, else K is the modulus minus 1. -/
def VX.rsvfMod (f : VX) : Bool :=
  decide (f.fl.toNat / 2 ≠ 0) || (if f.fl.getLsbD 0 then decide (7 < f.k.toNat) else decide (f.k.toNat < 2))

/-- Register shapes of a size of 1, 2 or 4 registers (R28, R242, R243). -/
def badShape (data : BitVec 6) (regs : Nat) : Bool := decide (data.toNat % regs ≠ 0)

/-- The common reserved values of MX: BASE above its limit, DC outside its range, SZ above its limit (R66). -/
def MX.bad (f : MX) (maxBase maxSz : Nat) (blkOnly : Bool) : Bool :=
  decide (maxBase < f.base.toNat) || decide (maxSz < f.sz.toNat) ||
    (if blkOnly then decide (f.dc ≠ 6) else decide (f.dc = 7))

/-- DATA and OFF that must be zero. -/
def MX.nz (f : MX) : Bool := decide (f.data ≠ 0) || decide (f.off ≠ 0)

/-- Registers moved by SZ 0 to 3 of LDG, STG, LDS and STS (R242). -/
def szRegs (sz : BitVec 2) : Nat := if sz = 1 then 2 else if sz = 2 then 4 else 1

/-- The atomics (R305, R312). -/
def MX.rsvfAtomic (f : MX) (noRed cas : Bool) : Bool :=
  f.bad 126 3 false || badShape f.data ((if f.sz.getLsbD 0 then 2 else 1) * (if cas then 2 else 1)) ||
    (noRed && f.off.getLsbD 5)

/-- The port instructions (R260). -/
def MX.rsvfPort (f : MX) (maxSz : Nat) : Bool :=
  decide (7 ≤ f.off.toNat) || f.bad 0 maxSz true || (decide (f.sz = 1) && f.data.getLsbD 0)

/-- P and Q of an address operand of TLBINV and L2WB (R301, R303). -/
def CXR.rsvfRange (f : CXR) (useP useQ : Bool) : Bool :=
  (if useP then decide (f.p.toNat < 64) else decide (f.p ≠ 0)) ||
  (if useQ then decide (f.q.toNat < 64) else decide (f.q ≠ 0)) || (decide (f.p = 127) && decide (f.q = 127))

/-- The reserved-field check of R74 over one instruction with its extension word: a nonzero must-be-zero or unused
field, or a reserved field value, of the instruction's own entry. -/
def Instr.rsvf : Instr → Bool
  | .powerGood => false
  | .reset => false
  | .bringupStepEnd => false
  | .bringupStepTimeout => false
  | .controlDieError => false
  | .partLost => false
  | .serviceActionComplete => false
  | .channelDieRetire => false
  | .dieRebuild => false
  | .dieRetired => false
  | .retirecntSet => false
  | .busLaneRecalibrate => false
  | .sliceRetire => false
  | .sliceForward => false
  | .sliceHandover => false
  | .sliceOff => false
  | .tsBankFence => false
  | .tsBankRetire => false
  | .hbmStackRetire => false
  | .firmwareUpdate => false
  | .attestationRequest => false
  | .managementWindowRead => false
  | .profileWrite => false
  | .contextCreate => false
  | .contextDestroy => false
  | .contextReleased => false
  | .ctxcfgSet => false
  | .parkTimeout => false
  | .parkRenewal => false
  | .queueCreate => false
  | .queueActivate => false
  | .queueSuspend => false
  | .queueResume => false
  | .queueDestroy => false
  | .tailObserve => false
  | .recordRead => false
  | .admission => false
  | .dependenceMet => false
  | .dispatchTeam => false
  | .teamSave => false
  | .deferralTimeout => false
  | .backpressureTimeout => false
  | .haltResume => false
  | .heldTeamCancel => false
  | .cancellationObserved => false
  | .launchDrained => false
  | .clauseFetch => false
  | .haltArrival => false
  | .sstepTrap => false
  | .rowGrant => false
  | .rowSpill => false
  | .rowDrowsy => false
  | .groupRelease => false
  | .countedOpComplete => false
  | .shadowMismatch => false
  | .shadowLagTimeout => false
  | .sleepExpiry => false
  | .portEntryArrival => false
  | .portWaitMet => false
  | .portTimeout => false
  | .barrierRelease => false
  | .treduceRelease => false
  | .bcwaitMet => false
  | .lidGrant => false
  | .signalObserved => false
  | .stageQueueWaitMet => false
  | .slotLanded => false
  | .copyComplete => false
  | .retnPublish => false
  | .mirrorAckTimeout => false
  | .faultRingSet => false
  | .resolve => false
  | .recode => false
  | .migrate => false
  | .release => false
  | .l2EvictionWriteback => false
  | .chunkListFill => false
  | .chunkListDrain => false
  | .reserveSet => false
  | .chunkReserveReplay => false
  | .hotidleSet => false
  | .windowTableWrite => false
  | .inboundTableWrite => false
  | .inboundRequest => false
  | .inboundMessageRequest => false
  | .peerFaultResponse => false
  | .peerTimeout => false
  | .portTrained => false
  | .trainingTimeout => false
  | .linkErrorRetrain => false
  | .retrainDone => false
  | .retrainTimeout => false
  | .linkFence => false
  | .linkReturn => false
  | .linkRetire => false
  | .busRetrainDue => false
  | .busRetrainStart => false
  | .busRetrainDone => false
  | .burstRetry => false
  | .laneRepairStart => false
  | .quiesceDone => false
  | .repairDone => false
  | .patrolScrub => false
  | .tokenRegenerate => false
  | .heaterTrim => false
  | .debugRegisterRead => false
  | .taskQueueCreate => false
  | .taskQueueDestroy => false
  | .taskWindowEntry => false
  | .taskReady => false
  | .taskStart => false
  | .note => false
  | .zero => false
  | .loadb => false
  | .mma => false
  | .mmag => false
  | .drain => false
  | .accld => false
  | .accst => false
  | .taskEnd => false
  | .tensorCreate => false
  | .tensorDestroy => false
  | .decodeSessionOpen => false
  | .decodeSessionClose => false
  | .iadd f =>
      f.rsvf false
  | .isub f =>
      f.rsvf false
  | .imul f =>
      f.rsvf false
  | .imulhI f =>
      f.rsvf false
  | .imulhN f =>
      f.rsvf false
  | .imad f =>
      f.rsvf false
  | .iminI f =>
      f.rsvf false
  | .iminN f =>
      f.rsvf false
  | .imaxI f =>
      f.rsvf false
  | .imaxN f =>
      f.rsvf false
  | .iabs f =>
      f.rsvf true
  | .ineg f =>
      f.rsvf true
  | .vand f =>
      f.rsvf false
  | .vor f =>
      f.rsvf false
  | .vxor f =>
      f.rsvf false
  | .vandn f =>
      f.rsvf false
  | .shl f =>
      f.rsvf false
  | .shr f =>
      f.rsvf false
  | .sar f =>
      f.rsvf false
  | .rol f =>
      f.rsvf false
  | .bfeI f =>
      f.rsvf false
  | .bfeN f =>
      f.rsvf false
  | .bfi f =>
      f.rsvf false
  | .popc f =>
      f.rsvf true
  | .clz f =>
      f.rsvf true
  | .brev f =>
      f.rsvf true
  | .iceq f =>
      f.rsvf false
  | .icne f =>
      f.rsvf false
  | .icltI f =>
      f.rsvf false
  | .icltN f =>
      f.rsvf false
  | .icleI f =>
      f.rsvf false
  | .icleN f =>
      f.rsvf false
  | .sel f =>
      f.rsvf false
  | .vmov f =>
      f.rsvf true
  | .fadd f =>
      f.v.rsvf false || f.rsvfRound false
  | .fsub f =>
      f.v.rsvf false || f.rsvfRound false
  | .fmul f =>
      f.v.rsvf false || f.rsvfRound false
  | .ffma f =>
      f.v.rsvf false || f.rsvfRound false
  | .fmin f =>
      f.rsvf false
  | .fmax f =>
      f.rsvf false
  | .fabs f =>
      f.rsvf true
  | .fneg f =>
      f.rsvf true
  | .fceq f =>
      f.rsvf false
  | .fclt f =>
      f.rsvf false
  | .fcle f =>
      f.rsvf false
  | .fcun f =>
      f.rsvf false
  | .frcp f =>
      f.rsvf true
  | .frsq f =>
      f.rsvf true
  | .fsqrt f =>
      f.v.rsvf true || f.rsvfRound false
  | .fexp2 f =>
      f.rsvf true
  | .flog2 f =>
      f.rsvf true
  | .fsinp f =>
      f.rsvf true
  | .fcosp f =>
      f.rsvf true
  | .badd2 f =>
      f.v.rsvf false || f.rsvfRound true
  | .bmul2 f =>
      f.v.rsvf false || f.rsvfRound true
  | .bfma2 f =>
      f.v.rsvf false || f.rsvfRound true
  | .dadd f =>
      f.v.rsvf false || f.rsvfRound false || f.rsvfPairs
  | .dmul f =>
      f.v.rsvf false || f.rsvfRound false || f.rsvfPairs
  | .dfma f =>
      f.v.rsvf false || f.rsvfRound false || f.rsvfPairs
  | .cvt f =>
      f.v.rsvf true || decide (28 < f.sub.toNat) || decide (f.k ≠ 0) || decide (f.mbz ≠ 0) ||
      (if cvtRounds f.sub.toNat then decide (4 < f.rm.toNat) else decide (f.rm ≠ 0)) ||
      (if cvtSat f.sub.toNat then decide (f.fl.toNat / 2 ≠ 0) else decide (f.fl ≠ 0)) ||
      (cvtSrcPair f.sub.toNat && oddVector f.v.b) || (cvtDstPair f.sub.toNat && f.v.d.getLsbD 0)
  | .bfpcvt f =>
      f.v.rsvf true || decide (f.rm ≠ 0) || decide (f.sub.toNat < 2) || decide (8 < f.sub.toNat) || decide (f.k ≠ 0) ||
      decide (f.mbz ≠ 0) || f.fl.getLsbD 3 || (f.fl.getLsbD 0 && f.fl.getLsbD 2) || decide (64 ≤ f.v.b.toNat)
  | .bfpcvtExpand f =>
      f.v.rsvf true || decide (f.rm ≠ 0) || decide (f.sub.toNat < 2) || decide (8 < f.sub.toNat) || decide (f.k ≠ 0) ||
      decide (f.mbz ≠ 0) || f.fl.getLsbD 3 || (f.fl.getLsbD 0 && f.fl.getLsbD 2) || decide (64 ≤ f.v.b.toNat)
  | .resc f =>
      f.v.rsvf true || decide (f.rm ≠ 0) || decide (f.mbz ≠ 0) ||
      (match f.sub.toNat with
       | 0 | 1 => f.rsvfMod
       | 2 => decide (f.k ≠ 0) || decide (f.fl ≠ 0) || f.v.d.getLsbD 0
       | 3 => decide (f.k ≠ 0) || decide (f.fl ≠ 0) || f.v.d.getLsbD 0 || oddVector f.v.b
       | _ => true)
  | .modop f =>
      f.v.rsvf false || decide (f.rm ≠ 0) || decide (f.mbz ≠ 0) ||
      (match f.sub.toNat with
       | 0 | 1 | 2 => f.rsvfMod
       | 4 | 5 | 6 => decide (1 < f.k.toNat) || decide (f.fl ≠ 0)
       | _ => true)
  | .fclass f =>
      f.rsvf true
  | .sadd _ => false
  | .ssub _ => false
  | .smul _ => false
  | .smulhI _ => false
  | .smulhN _ => false
  | .sand _ => false
  | .sor _ => false
  | .sxor _ => false
  | .sshl _ => false
  | .sshr _ => false
  | .ssar _ => false
  | .sminI _ => false
  | .sminN _ => false
  | .smaxI _ => false
  | .smaxN _ => false
  | .sceq _ => false
  | .scltI _ => false
  | .scltN _ => false
  | .ssel _ => false
  | .smov f =>
      decide (f.a ≠ 0)
  | .sbfe _ => false
  | .spopc f =>
      decide (f.a ≠ 0)
  | .sclz f =>
      decide (f.a ≠ 0)
  | .srdl f =>
      decide (63 < f.a.toNat)
  | .srdsr f =>
      decide (f.d = 127) || decide (0x10 < f.a.toNat) || decide (f.b ≠ 0) ||
      (decide (64 ≤ f.d.toNat) && (decide (f.a = 0) || decide (f.a = 0x0B)))
  | .swrsr f =>
      decide (f.d ≠ 0) || !(f.a = 0x0B || f.a = 0x0C || f.a = 0x0E || f.a = 0x0F) ||
      (decide (f.a = 0x0B) && decide (f.b = 127))
  | .sfirst f =>
      decide (f.a ≠ 0) || decide (f.b ≠ 0)
  | .sldk f =>
      decide (f.stall = 7)
  | .sldg f =>
      decide (f.stall = 7)
  | .sstg f =>
      decide (f.stall = 7)
  | .saadd f =>
      decide (f.stall = 7)
  | .sacas f =>
      decide (f.stall = 7)
  | .ldg f =>
      f.bad 126 3 false || badShape f.data (szRegs f.sz)
  | .ldgb f =>
      f.bad 126 2 false || decide (f.off ≠ 0) || badShape f.data (szRegs f.sz)
  | .stg f =>
      f.bad 126 3 false || badShape f.data (szRegs f.sz)
  | .stgb f =>
      f.bad 126 2 false || decide (f.off ≠ 0) || badShape f.data (szRegs f.sz)
  | .lds f =>
      f.bad 126 3 false || badShape f.data (szRegs f.sz)
  | .ldsb f =>
      f.bad 125 2 false || decide (f.off ≠ 0) || badShape f.data (szRegs f.sz)
  | .sts f =>
      f.bad 126 3 false || badShape f.data (szRegs f.sz)
  | .stsb f =>
      f.bad 125 2 false || decide (f.off ≠ 0) || badShape f.data (szRegs f.sz)
  | .ldk f =>
      f.bad 126 1 false || badShape f.data (szRegs f.sz)
  | .aadd f =>
      f.rsvfAtomic false false
  | .aminI f =>
      f.rsvfAtomic false false
  | .aminN f =>
      f.rsvfAtomic false false
  | .amaxI f =>
      f.rsvfAtomic false false
  | .amaxN f =>
      f.rsvfAtomic false false
  | .aand f =>
      f.rsvfAtomic false false
  | .aor f =>
      f.rsvfAtomic false false
  | .axor f =>
      f.rsvfAtomic false false
  | .axchg f =>
      f.rsvfAtomic true false
  | .acas f =>
      f.rsvfAtomic true true
  | .afadd f =>
      f.rsvfAtomic false false
  | .aincw f =>
      f.rsvfAtomic false false
  | .gather f =>
      f.bad 121 1 true || f.nz
  | .scatter f =>
      f.bad 121 1 true || f.nz
  | .pref f =>
      decide (126 < f.base.toNat) || decide (f.data ≠ 0) || decide (f.dc ≠ 0) || decide (f.sz = 3)
  | .acq f =>
      f.bad 126 1 true || f.nz
  | .rel f =>
      f.bad 126 1 false || f.nz
  | .fence f =>
      f.bad 0 0 false || decide (f.data ≠ 0) || decide (5 < f.off.toNat)
  | .lidbind f =>
      f.bad 123 0 true || f.nz
  | .lidunb f =>
      f.bad 125 0 true || f.nz
  | .seal f =>
      f.bad 124 0 true || f.nz
  | .unseal f =>
      f.bad 125 0 true || f.nz
  | .cinv f =>
      f.bad (if f.sz = 2 then 126 else 125) 2 false || f.nz
  | .spalloc f =>
      f.bad 126 0 true || f.nz
  | .spfree f =>
      f.bad 126 0 true || f.nz
  | .sprenew f =>
      f.bad 126 0 false || f.nz
  | .spquery f =>
      f.bad 126 1 false || (decide (f.sz = 1) && decide (f.off ≠ 0))
  | .cbcfg f =>
      f.bad 125 0 true || f.nz
  | .cbwait f =>
      f.bad 126 1 true || decide (f.off ≠ 0)
  | .cbrel f =>
      f.bad 126 0 true || f.nz
  | .npush f =>
      f.rsvfPort 1
  | .npop f =>
      f.rsvfPort 1
  | .npeek f =>
      f.rsvfPort 1
  | .npstat f =>
      f.rsvfPort 0
  | .shfl f =>
      f.bad (if f.sz = 0 then 0 else 126) 3 false
  | .vote f =>
      f.bad 0 3 false
  | .redux f =>
      f.bad 126 0 false
  | .reduxLong f =>
      f.bad 124 3 true || decide (f.off ≠ 0)
  | .prfx f =>
      f.bad 126 1 false
  | .prfxLong f =>
      f.bad 124 3 true || decide (f.off ≠ 0)
  | .cpg2s f =>
      f.bad 121 1 false || f.nz
  | .cps2g f =>
      f.bad 121 0 false || f.nz
  | .cpmc f =>
      f.bad 120 0 false || f.nz
  | .cpxf f =>
      f.bad 121 0 false || f.nz
  | .cpt2s f =>
      f.bad 122 0 false || f.nz
  | .cps2t f =>
      f.bad 122 0 false || f.nz
  | .cseal f =>
      f.bad 126 0 true || f.nz
  | .cwait f =>
      f.bad 126 0 false || f.nz
  | .ttq f =>
      f.bad 0 0 false || decide (f.off ≠ 0)
  | .ttqMem f =>
      f.bad 126 1 false || f.nz
  | .sigadd f =>
      f.bad 125 0 false || f.nz
  | .sigwait f =>
      f.bad 124 3 false || f.nz
  | .sqadd f =>
      f.bad 126 0 true || f.data.getLsbD 0
  | .sqtake f =>
      f.bad 126 0 true || f.data.getLsbD 0
  | .nop f =>
      decide (f.mbz ≠ 0)
  | .bra _ => false
  | .brv f =>
      decide (64 ≤ f.reg.toNat)
  | .brs _ => false
  | .brx f =>
      decide (f.q ≠ 0) || decide (f.imm ≠ 0)
  | .call _ => false
  | .calli f =>
      decide (64 ≤ f.p.toNat) || decide (f.imm ≠ 0)
  | .ret f =>
      decide (f.p = 127) || decide (f.q ≠ 0) || decide (f.imm ≠ 0)
  | .exit f =>
      decide (f.mbz ≠ 0)
  | .yield f =>
      decide (f.mbz ≠ 0)
  | .sleep f =>
      decide (f.p.toNat < 64) || decide (f.q ≠ 0) || decide (f.imm ≠ 0)
  | .bar f =>
      decide (f.p ≠ 0) || decide (f.q ≠ 0) || decide (4 ≤ f.imm.toNat)
  | .bara f =>
      decide (f.p ≠ 0) || decide (f.q ≠ 0) || decide (4 ≤ f.imm.toNat)
  | .barw f =>
      decide (f.p ≠ 0) || decide (f.q ≠ 0) || decide (4 ≤ f.imm.toNat)
  | .bcarm f =>
      decide (f.p.toNat < 64) || decide (f.q ≠ 0) || decide (8 ≤ f.imm.toNat)
  | .bcwait f =>
      decide (f.p ≠ 0) || decide (f.q ≠ 0) || decide (8 ≤ f.imm.toNat)
  | .treduce f =>
      decide (64 ≤ f.p.toNat) || decide (64 ≤ f.q.toNat) || decide (11 ≤ f.imm.toNat)
  | .launch f =>
      !isScalarCode f.p || !isScalarCode f.q || decide (f.imm ≠ 0)
  | .cancel f =>
      !isScalarCode f.p || decide (f.q ≠ 0) || decide (f.imm ≠ 0)
  | .trap f =>
      decide (f.p ≠ 0) || decide (f.q ≠ 0)
  | .rte f =>
      decide (f.mbz ≠ 0)
  | .chkerr f =>
      decide (f.p = 127) || decide (f.q ≠ 0) || decide (256 ≤ f.imm.toNat)
  | .pcvrd f =>
      decide (64 ≤ f.p.toNat) || decide (f.q ≠ 0) || decide (f.imm ≠ 0)
  | .pcvwr f =>
      decide (f.q ≠ 0) || decide (f.imm ≠ 0)
  | .rdcont f =>
      decide (f.p.toNat < 64) || decide (125 < f.p.toNat) || decide (f.q ≠ 0) || decide (2 ≤ f.imm.toNat)
  | .fltinj f =>
      !isScalarCode f.p || decide (f.q ≠ 0) || decide (f.imm ≠ 0)
  | .tlbinv f =>
      decide (8 ≤ f.imm.toNat) || f.rsvfRange (!f.imm.getLsbD 1) (!f.imm.getLsbD 1 && f.imm.getLsbD 0)
  | .l2wb f =>
      decide (8 ≤ f.imm.toNat) || f.rsvfRange (!f.imm.getLsbD 2) (!f.imm.getLsbD 2)
  | .bkpt f =>
      decide (f.p ≠ 0) || decide (f.q ≠ 0)
  | .halt f =>
      decide (f.mbz ≠ 0)
  | .ckpt f =>
      decide (f.mbz ≠ 0)
  | .copyPieceLanded => false
  | .mirrorAcknowledgement => false
  | .faultRingHeadAdvance => false
  | .deviceNumberAssign => false
  | .coreClockThrottle => false
  | .frameTableSet => false

/-- The privileged instructions (R73), with SWRSR to CTXCFG (R65). -/
def Instr.privileged : Instr → Bool
  | .fltinj _ | .tlbinv _ | .l2wb _ | .halt _ => true
  | .swrsr f => f.a = 0x0F
  | _ => false

/-- The cause of R74 that a decoded instruction raises by itself: RSVF before PRIV (R75). -/
def Instr.defect (i : Instr) (priv : Bool) : Option Nat :=
  if i.rsvf then some 0x03
  else if i.privileged && !priv then some 0x04
  else none

/-- The header fields of R54. -/
structure Header where
  n : Nat
  cls : Nat
  wmask : BitVec 6
  wth : Nat
  rgn : Bool
  yld : Bool
  mbz : BitVec 14
  deriving DecidableEq, Repr

/-- The fields of a header word (R54). -/
def headerOf (w : Word) : Header :=
  { n := (fieldOf w 28 4).toNat, cls := (fieldOf w 25 3).toNat, wmask := fieldOf w 19 6, wth := (fieldOf w 16 3).toNat,
    rgn := w.getLsbD 15, yld := w.getLsbD 14, mbz := fieldOf w 0 14 }

/-- A header that R54 refuses. -/
def Header.defective (h : Header) : Bool :=
  decide (h.n = 0) || decide (3 < h.cls) || decide (h.mbz ≠ 0)

/-- The higher of two decode causes: the causes 1 to 4 are numbered in falling priority (R75, R93). -/
def higherCause (a b : Option Nat) : Option Nat :=
  match a, b with
  | none, b => b
  | a, none => a
  | some x, some y => some (min x y)

/-- The check of R74 over the words after the header: the highest cause of all defects (R75), stopping at an unassigned
opcode (R456). `fuel` bounds the number of instructions; `ended` says that a control transfer has gone before. The manual does
not say which cause an unassigned opcode after a control transfer has: the model gives it both, so that ILLCL, the higher, is
raised (DESIGN CHOICE: log entry 94). -/
def checkWords (cls : Nat) (priv : Bool) : Nat → Bool → List Word → Option Nat
  | 0, _, _ => none
  | _ + 1, _, [] => none
  | fuel + 1, ended, w :: ws =>
    match decode (w :: ws) with
    | .error (.unassigned _) => higherCause (if ended then some 0x01 else none) (some 0x02)
    | .error _ => some 0x01
    | .ok (i, rest) =>
      let here := if ended || (i.cls.isSome && i.cls ≠ some cls) then some 0x01 else i.defect priv
      higherCause here (checkWords cls priv fuel (ended || i.isTransfer) rest)

/-- The check of R74 over a whole clause whose words have been fetched (R53). -/
def checkClause (h : Header) (priv : Bool) (ws : List Word) : Option Nat :=
  if h.defective then some 0x01 else checkWords h.cls priv 16 false ws

/-- The instruction that the decoder reads from the bits `w` of an opcode-table row, every later word zero. -/
def decodeTableWord (nbits w : Nat) : Option Instr :=
  match decode [BitVec.ofNat 32 (w % 2 ^ nbits), BitVec.ofNat 32 (w % 2 ^ nbits >>> 32), BitVec.ofNat 32 (w % 2 ^ nbits >>> 64)] with
  | .ok (i, _) => some i
  | .error _ => none

end Sys2Proof
end

