-- ==== Sys2Proof/Machine/Ops.lean ====
section
/-! DEFINITION. The named operations over the parts of the state, over registers, and over a group's control: taking an
exception (R90 to R97), the return from one (R101), halts, and what a team or group leaves behind. -/

namespace Sys2Proof.Machine

open Sys2Proof

/-! ## Parts that have never changed -/

/-- A tower at its fresh values (R277, R281, R293, R294, R407). -/
def freshTower : Tower :=
  { dies := [], corrected := [], dieAsked := [], retireCnt := 64, sliceMap := [], sliceOld := [], ver := 0, slices := [], l2 := [],
    rdc := [], frameBase := none, frames := [], openChunk := [], freeList := [], reserve := 49152,
    reserveTold := true, chunks := [], hotIdle := 64, sessions := [], ts := [], tsPoison := [], buses := [],
    lights := [], throttled := false, lastQ := [], reserveWait := 0 }

/-- A cluster at its fresh values (R402). -/
def freshCluster : Cluster :=
  { tlb := [], const := [], queues := [], lastQ := 7, engines := [], contain0 := 0, contain1 := 0, arm := none }

/-- A core at its fresh values; RETN before its first publication is log entry 11 (R223, R224). -/
def freshCore : Core :=
  { sp := [], bufs := [], gens := [], l1 := [], log := [], retnUs := 200, retnTj := 0, allocWait := [], freedAt := 0 }

/-- A scratchpad row that was never written (R222). -/
def freshRow : SpRow :=
  { st := .never, stamp := 0, dirty0 := false, dirty1 := false, data := 0, poison := 0 }

/-- An engine with its slots free (R376). -/
def freshEngine : Engine := { fenced := false, b := [], acc := [] }

/-- A free B slot. -/
def freshB : BSlot := { used := false, res := [], eb := [], bmax := [], kb := 0, mb := 0, lost := false }

/-- A free accumulator slot. -/
def freshA : ASlot := { used := false, seed := 0, rows := [] }

/-- A context number that is FREE (R87). -/
def freshCtx : Context :=
  { st := .free, ptRoot := 0, profile := 0, ctxcfg := 0, codeBase := 0, saveBase := 0, saveSize := 0, snapBase := 0,
    snapSize := 0, lids := [], seals := [], chkAcc := 0, ring := none, faults := [], tensors := [], tensorGen := [],
    parkedSince := 0, saveUsed := [], snapUsed := [] }

/-- A vertical bus in service (R435). -/
def freshBus : Bus :=
  { st := .service, swapped := [], repairing := 0, retries := [], fails := 0, trained := 0, dueAt := 0 }

/-- A link port that is DOWN (R426). -/
def freshPort : LinkPort := { st := .down, fails := 0, since := 0, returning := false }

/-- A home channel with all its wavelengths (R440). -/
def freshLight : Light := { lostRings := 0, tokenLost := false }

/-- A frame that was never set (R281). -/
def freshFrame : Frame := { st := .normal, wver := 0, ptr := 0, since := 0 }

/-! ## Reading and writing parts -/

def State.tower (s : State) (t : Nat) : Tower := s.towers.findD t freshTower
def State.setTower (s : State) (t : Nat) (x : Tower) : State := { s with towers := s.towers.put t x }
def State.modTower (s : State) (t : Nat) (f : Tower → Tower) : State := s.setTower t (f (s.tower t))
def State.cluster (s : State) (c : Nat) : Cluster := s.clusters.findD c freshCluster
def State.setCluster (s : State) (c : Nat) (x : Cluster) : State := { s with clusters := s.clusters.put c x }
def State.modCluster (s : State) (c : Nat) (f : Cluster → Cluster) : State := s.setCluster c (f (s.cluster c))
def State.core (s : State) (c : Nat) : Core := s.cores.findD c freshCore
def State.setCore (s : State) (c : Nat) (x : Core) : State := { s with cores := s.cores.put c x }
def State.modCore (s : State) (c : Nat) (f : Core → Core) : State := s.setCore c (f (s.core c))
def State.ctx (s : State) (c : Nat) : Context := s.ctxs.findD c freshCtx
def State.modCtx (s : State) (c : Nat) (f : Context → Context) : State := { s with ctxs := s.ctxs.put c (f (s.ctx c)) }
def State.link (s : State) (p : Nat) : LinkPort := s.links.findD p freshPort
def State.modLink (s : State) (p : Nat) (f : LinkPort → LinkPort) : State :=
  { s with links := s.links.put p (f (s.link p)) }

/-- A vertical bus, by tower × 1,984 + number (R428). -/
def State.bus (s : State) (b : Nat) : Bus := (s.tower (b / 1984)).buses.findD (b % 1984) freshBus
def State.modBus (s : State) (b : Nat) (f : Bus → Bus) : State :=
  s.modTower (b / 1984) fun w => { w with buses := w.buses.put (b % 1984) (f (w.buses.findD (b % 1984) freshBus)) }

/-- Whether transfers of a bus wait; read-modify-writes wait from the moment it falls due (R432, R435). -/
def Bus.waits (rmw : Bool) (b : Bus) : Bool :=
  match b.st with
  | .retrain | .quiesce | .repair => true
  | .due => rmw
  | _ => false

/-- The bus of a bank of a core's scratchpad (R220, R428). -/
def padBus (core bank : Nat) : Nat := 1984 * (core / 96) + 288 + core % 96 * 16 + bank

/-- Change an entry that a table holds. -/
def Tbl.modify {α : Type} (t : Tbl α) (n : Nat) (f : α → α) : Tbl α :=
  match t.find n with
  | some a => t.put n (f a)
  | none => t

def State.modGroup (s : State) (g : Nat) (f : Group → Group) : State := { s with groups := s.groups.modify g f }
def State.modTeam (s : State) (t : Nat) (f : Team → Team) : State := { s with teams := s.teams.modify t f }
def State.modLaunch (s : State) (l : Nat) (f : Launch → Launch) : State := { s with launches := s.launches.modify l f }
def State.modQueue (s : State) (q : Nat) (f : Queue → Queue) : State := { s with queues := s.queues.modify q f }
def State.modCopy (s : State) (c : Nat) (f : Copy → Copy) : State := { s with copies := s.copies.modify c f }
def State.modDev (s : State) (f : Device → Device) : State := { s with dev := f s.dev }

/-- A fresh number. -/
def State.gensym (s : State) : Nat × State := (s.fresh, { s with fresh := s.fresh + 1 })

/-- Answer a request. -/
def State.answer (s : State) (st : Status) (v : List Byte := []) : State :=
  { s with responses := ⟨st, v, []⟩ :: s.responses }

/-- Interrupt the driver or the service cores. -/
def State.interrupt (s : State) (i : Irq) : State := { s with irqs := i :: s.irqs }

/-! ## Where a group stands (R13, R154, R163): group `gid` is slot `gid mod 128` of core `gid / 128` -/

def coreOf (gid : Nat) : Nat := gid / 128
def slotOf (gid : Nat) : Nat := gid % 128
def clusterOfCore (core : Nat) : Nat := core / 8
def towerOfCore (core : Nat) : Nat := core / 96
def clusterOf (gid : Nat) : Nat := clusterOfCore (coreOf gid)
def towerOf (gid : Nat) : Nat := towerOfCore (coreOf gid)

/-- The launch of a team. -/
def State.launchOf (s : State) (t : Team) : Option Launch := s.launches.find t.launch

/-- The handler's address from the descriptor as latched (R139). -/
def Launch.handler (l : Launch) : Word := BitVec.ofNat 32 (field l.desc 8 4)

/-- RMIN and RMAX (R139). -/
def Launch.rmin (l : Launch) : Nat := field l.desc 0xC 1
def Launch.rmax (l : Launch) : Nat := field l.desc 0xD 1

/-- The options of the record (R141). -/
def Launch.redundant (l : Launch) : Bool := bit (field l.record 0x34 2) 0
def Launch.snap (l : Launch) : Bool := bit (field l.record 0x34 2) 1
def Launch.inorder (l : Launch) : Bool := bit (field l.record 0x34 2) 2

/-- The PORTS byte (R139). -/
def Launch.portMask (l : Launch) : Nat := field l.desc 0x15 1

/-- PRIV, SBCHK, FPT, SSTEP and PORTTO of a CTXCFG value (R88). -/
def cfgPriv (c : DWord) : Bool := c.getLsbD 0
def cfgSbchk (c : DWord) : Bool := c.getLsbD 1
def cfgFpt (c : DWord) : Nat := bits c.toNat 6 2
def cfgSstep (c : DWord) : Bool := c.getLsbD 7
def cfgPortto (c : DWord) : Nat := bits c.toNat 19 8

/-- The exit value of a program counter (R53). -/
def exitPc : Word := 0xFFFFFFFF

/-- The issue address: the least program counter (R172). -/
def minPc (r : Row) : Word := r.foldl (fun m w => if w.toNat < m.toNat then w else m) exitPc

/-- The active set: the lanes at the issue address (R172). -/
def Group.active (g : Group) : Word :=
  if minPc g.pcv = exitPc then 0 else maskOf fun l => lane g.pcv l == minPc g.pcv

/-- The lanes that have not exited (R160). -/
def Group.alive (g : Group) : Word := maskOf fun l => lane g.pcv l != exitPc

/-- A group on the cores that still issues or waits: not RETIRING. -/
def Group.live (g : Group) : Bool := decide (g.st ≠ .retiring)

/-- The groups of a team that are on the cores. -/
def State.groupsOf (s : State) (t : Nat) : List (Nat × Group) := s.groups.filter fun p => p.2.team == t

/-! ## Registers (R156, R161, R162) -/

/-- The value of a vector register: zero for a name with no row. -/
def Group.vreg (g : Group) (v : Nat) : Row := (g.rows.find v).getD zeroRow

/-- The value of a scalar register. -/
def Group.sreg (g : Group) (n : Nat) : DWord := (g.sregs.find n).getD 0

/-- Write the lanes of a mask of a vector register: a row is allocated with zeros if the name has none; a pending free
is cancelled (R156, R186). -/
def Group.setV (g : Group) (v : Nat) (m : Word) (r : Row) : Group :=
  { g with rows := g.rows.put v (mergeRow m (g.vreg v) r), pendFree := g.pendFree.filter (· != v),
           drowsy := g.drowsy.filter (· != v) }

/-- Write a scalar register. -/
def Group.setS (g : Group) (n : Nat) (x : DWord) : Group := { g with sregs := g.sregs.put n x }

/-- A dependency counter (R168). -/
def Group.dc (g : Group) (k : Nat) : Nat := (g.dcs.find k).getD 0

/-- A group as it starts (R146). -/
def newGroup (team num tcore : Nat) (shadow : Bool) (entry : Word) (cfg : DWord) (sregs : Tbl DWord) (tick : Nat) : Group :=
  { team := team, num := num, tcore := tcore, shadow := shadow, st := .ready, pcv := rowOf fun _ => entry
    rev := rowOf fun _ => entry, region := false, spcv := zeroRow, cause := 0, tword := 0, tmask := 0, tclause := 0
    skidn := 0, hmode := false, pidx := 0, ctxcfg := cfg, dphase := 0, rows := [], pendFree := [], spilled := []
    drowsy := [], sregs := sregs, dcs := [], ports := [], lag := [], clause := none, wait := none, wanted := 0
    granted := false, ops := [], hazards := [], stall := 0, age := tick, after := []
    bars := List.replicate 4 .none, batch := 0, deferred := [], halt := none, skid := 0, pendHalt := false, pendSkid := 0
    trapPending := false, stepDue := false, shq := [], heldOp := none, matched := false, heldAt := 0, hword := 0, again := false, allocStop := false }

/-! ## CHKIV and SPOOR (R114 to R116, R231) -/

/-- Whether a launch has ended (R145). -/
def Launch.hasEnded (l : Launch) : Bool :=
  match l.st with
  | .complete | .cancelled | .faulted | .refused => true
  | _ => false

/-- Set bits of a launch's CHKIV, or of its context's accumulator once it has ended (R115). -/
def State.setChk (s : State) (launch : Nat) (m : BitVec 8) : State :=
  match s.launches.find launch with
  | none => s
  | some l =>
    if l.hasEnded then s.modCtx l.ctx fun c => { c with chkAcc := c.chkAcc ||| m }
    else s.modLaunch launch fun l => { l with chkiv := l.chkiv ||| m }

/-- Set bits of CHKIV in a launch, or in a context's accumulator if no launch has the number (R115). -/
def State.setChkAt (s : State) (ctx launch : Nat) (m : BitVec 8) : State :=
  if (s.launches.find launch).isSome then s.setChk launch m else s.modCtx ctx fun c => { c with chkAcc := c.chkAcc ||| m }

def chkPoison : BitVec 8 := 0x01
def chkMirror : BitVec 8 := 0x02
def chkPeerPost : BitVec 8 := 0x04
def chkChanCorr : BitVec 8 := 0x08
def chkInexact : BitVec 8 := 0x10
def chkOverrange : BitVec 8 := 0x20
def chkSpoor : BitVec 8 := 0x40
def chkRolled : BitVec 8 := 0x80

/-- The SPOOR word of an event (R231). -/
def spoorWord (off buf kind : Nat) (write : Bool) (ln core : Nat) : DWord :=
  BitVec.ofNat 64 (off % 2 ^ 32 + buf % 64 * 2 ^ 32 + kind * 2 ^ 38 + (if write then 2 ^ 40 else 0) + ln * 2 ^ 41
    + core * 2 ^ 46 + 2 ^ 63)

/-- An out-of-range scratchpad access: CHKIV.SPOOR is set, and SPOOR latches the first event (R231). -/
def State.setSpoor (s : State) (launch : Nat) (w : DWord) : State :=
  match s.launches.find launch with
  | none => s
  | some l =>
    if l.hasEnded then s.setChk launch chkSpoor
    else s.modLaunch launch fun l =>
      if l.chkiv &&& chkSpoor = 0 then { l with chkiv := l.chkiv ||| chkSpoor, spoor := w } else l

/-- Clear bits of a launch's CHKIV; clearing SPOOR re-arms the latch (R104, R231). -/
def State.clearChk (s : State) (launch : Nat) (m : BitVec 8) : State :=
  s.modLaunch launch fun l =>
    { l with chkiv := l.chkiv &&& ~~~m, spoor := if m &&& chkSpoor = 0 then l.spoor else 0 }

/-! ## Contexts as their teams come and go (R87) -/

/-- A team is on the cores while it runs, stops or has its prologue running. -/
def Team.onCores (t : Team) : Bool :=
  match t.st with
  | .saved _ => false
  | _ => true

/-- Whether a core keeps a PARK buffer of a team of the context. -/
def State.keepsPark (s : State) (c : Nat) : Bool :=
  s.cores.any fun p => p.2.bufs.any fun b => b.2.parked && ((s.teams.find b.2.team).map (·.ctx)) == some c

/-- The state of a context after teams were placed or left (R87). -/
def State.refreshCtx (s : State) (c : Nat) : State :=
  let x := s.ctx c
  let on := s.teams.any fun p => p.2.ctx == c && p.2.onCores
  match x.st with
  | .created | .parked | .evicted => if on then s.modCtx c fun x => { x with st := .resident } else s
  | .resident =>
    if on then s
    else if s.keepsPark c then s.modCtx c fun x => { x with st := .parked, parkedSince := s.time }
    else s.modCtx c fun x => { x with st := .evicted }
  | _ => s

/-! ## Rows of the pool (R157, R158) -/

/-- The rows a group holds in the register pool: names with a row that are not spilled, and rows granted to its next
instruction (R157 to R159). -/
def Group.held (g : Group) : Nat := g.rows.length - g.spilled.length + (if g.granted then g.wanted else 0)

/-- RMIN of a group's kernel. -/
def State.rminOf (s : State) (g : Group) : Nat :=
  match (s.teams.find g.team).bind s.launchOf with
  | some l => l.rmin
  | none => 0

/-- RMAX of a group's kernel. -/
def State.rmaxOf (s : State) (g : Group) : Nat :=
  match (s.teams.find g.team).bind s.launchOf with
  | some l => l.rmax
  | none => 64

/-- The groups on a core. -/
def State.groupsOn (s : State) (core : Nat) : List (Nat × Group) := s.groups.filter fun p => coreOf p.1 == core

/-- The rows of the shared pool that are free on a core: the pool less what groups hold beyond RMIN (R158). -/
def State.poolFree (s : State) (core : Nat) : Nat :=
  (s.groupsOn core).foldl (fun n p => n - max (s.rminOf p.2) p.2.held) 6144

/-! ## Halts (R94, R95, R98) -/

/-- The cause of a group that a halt of a trap stops: SKIDH (R92, R94). -/
def skidhCause : DWord := 0x70

/-- Raise a halt in a group. A halt of a trap stays pending in handler mode (R98); it outranks one without a cause, also in
a group that has stopped for that one and then records SKIDH (R113). -/
def Group.raiseHalt (cause : Bool) (g : Group) : Group :=
  if g.st == .retiring then g
  else if cause && g.hmode then (if g.pendHalt then g else { g with pendHalt := true, pendSkid := 0 })
  else if g.st == .stopped then
    (if cause && ! g.trapPending then { g with cause := skidhCause, trapPending := true } else g)
  else
    match g.halt with
    | some c => { g with halt := some (c || cause) }
    | none => { g with halt := some cause, skid := 0 }

/-- Apply a change to every group of a team on the cores but `gid`. -/
def State.modSiblings (s : State) (team gid : Nat) (f : Group → Group) : State :=
  { s with groups := s.groups.map fun (p : Nat × Group) => if p.2.team == team && p.1 != gid then (p.1, f p.2) else p }

/-- Whether a halt raised by a trap has still to stop a group of the team: it is on its way, or pending in handler mode
(R94, R98). -/
def State.haltOut (s : State) (team : Nat) : Bool :=
  (s.groupsOf team).any fun p => p.2.live && (p.2.halt == some true || p.2.pendHalt)

/-- Note whether a halt of a trap is still in progress in a team. -/
def State.noteHalting (s : State) (team : Nat) : State :=
  let h := s.haltOut team
  s.modTeam team fun t => { t with halting := h }

/-- A trap broadcasts a halt to the other groups of its team; it merges with a halt in progress (R94). -/
def State.broadcastHalt (s : State) (team gid : Nat) : State :=
  match s.teams.find team with
  | none => s
  | some t =>
    (if t.halting && s.haltOut team then s else s.modSiblings team gid (Group.raiseHalt true)).noteHalting team

/-- A team is to leave the cores: every group receives a halt that records no cause (R98, R105, R106, R145). -/
def State.stopTeam (s : State) (team : Nat) (why : HaltWhy) : State :=
  match s.teams.find team with
  | none => s
  | some t =>
    match t.st with
    | .stopping .discard => s
    | .running | .prologue | .stopping _ =>
      if t.st = .stopping .rollback ∧ why ≠ .discard then s
      else (s.modTeam team fun t => { t with st := .stopping why, stoppedAt := s.time
                                             binds := if why = .discard then [] else t.binds }).modSiblings team (2 ^ 64)
        (Group.raiseHalt false)
    | .saved _ => s

/-- A team is to leave the cores, a port launch as a whole (R256). -/
def State.stopWhole (s : State) (team : Nat) (why : HaltWhy) : State :=
  match (s.teams.find team).bind fun t => (s.launchOf t).map fun l => (t.launch, l) with
  | none => s
  | some (n, l) =>
    if l.portMask = 0 then s.stopTeam team why
    else (s.teams.filter fun p => p.2.launch == n).foldl (fun s p => s.stopTeam p.1 why) s

/-! ## What a team leaves behind (R97, R110, R148, R155, R443) -/

/-- Free the buffers of a team on every core, and drop what the front end keeps of it. -/
def State.freeBuffers (s : State) (team : Nat) : State :=
  { s with cores := s.cores.map fun p => (p.1, { p.2 with bufs := p.2.bufs.filter fun b => b.2.team != team }) }

/-- A core without a team's groups in its order of WAIT_ALLOC; rows were freed on the team's cores (R158, R159). -/
def State.forgetWaits (s : State) (team : Nat) (cores : List Nat) (i : Nat) (c : Core) : Core :=
  { c with allocWait := c.allocWait.filter fun w => (s.groups.find w.1).map (·.team) != some team
           freedAt := if cores.contains i then s.time else c.freedAt }

/-- What outlives a group on a core keeps another name once the group has left it: logged stores, mirrored stores and
requests to peers. -/
def State.renameGid (s : State) (old new : Nat) : State :=
  { s with
    cores := s.cores.map fun (p : Nat × Core) =>
      (p.1, { p.2 with log := p.2.log.map fun e => if e.gid = old then { e with gid := new } else e })
    mirrors := s.mirrors.map fun (p : Nat × MirrorReq) => if p.2.gid = old then (p.1, { p.2 with gid := new }) else p
    peers := s.peers.map fun (p : Nat × PeerReq) => if p.2.gid = old then (p.1, { p.2 with gid := new }) else p }

/-- The name of groups that are gone. -/
def goneGid : Nat := 2 ^ 40

/-- The name of member `k` of a team that is off the cores. -/
def offGid (team k : Nat) : Nat := 2 ^ 48 + team * 8192 + k

/-- A team is gone: its groups, buffers, save-area and snapshot slots are released, its context's state follows. -/
def State.removeTeam (s : State) (team : Nat) : State :=
  match s.teams.find team with
  | none => s
  | some t =>
    let s := s.freeBuffers team
    let s := (s.groupsOf team).foldl (fun s p => s.renameGid p.1 goneGid) s
    let gone := t.slotT :: (t.slotG ++ t.slotR ++ t.extraR)
    let s := s.modCtx t.ctx fun c =>
      { c with saveUsed := c.saveUsed.filter fun n => ! gone.contains n
               snapUsed := c.snapUsed.filter fun p => p.1 != t.snapSlot }
    let s := { s with
      cores := s.cores.map fun (p : Nat × Core) => (p.1, s.forgetWaits team t.cores p.1 p.2)
      groups := s.groups.filter fun p => p.2.team != team
      teams := s.teams.del team
      peers := s.peers.filter fun (p : Nat × PeerReq) => ! (p.2.kind == PeerKind.opRead && p.2.owner == team) }
    s.refreshCtx t.ctx

/-- Whether nothing that a team's groups issued, and nothing of its prologue, is still incomplete (R97, R106, R369). -/
def State.opsDone (s : State) (team : Nat) : Bool :=
  ((s.groupsOf team).all fun p => p.2.ops.isEmpty) && ((s.copies.all fun c => c.2.team != team))
    && ((s.teams.find team).map (·.binds)).getD [] == []

/-- Whether every group of a team on the cores has stopped; groups in RETIRING ignore halts (R155). -/
def State.allStopped (s : State) (team : Nat) : Bool :=
  (s.groupsOf team).all fun p => p.2.st == .stopped || p.2.st == .retiring

/-- A team whose groups are to be discarded is discarded once all have stopped and their counted operations have
completed (R97, R145). -/
def State.settle (s : State) (team : Nat) : State :=
  match s.teams.find team with
  | none => s
  | some t =>
    if t.st == .stopping .discard && s.allStopped team && s.opsDone team then s.removeTeam team else s

/-- Drop or stop every team of a launch (R97, R145). -/
def State.stopLaunch (s : State) (launch : Nat) : State :=
  (s.teams.filter fun p => p.2.launch == launch).foldl (fun s p =>
    if p.2.onCores then (s.stopTeam p.1 .discard).settle p.1 else s.removeTeam p.1) s

/-- A launch enters DRAINING with an END and its detail; the first to come fixes it (R145). -/
def State.drainLaunch (s : State) (launch endv : Nat) (info : FaultInfo) : State :=
  match s.launches.find launch with
  | none => s
  | some l =>
    match l.st with
    | .admitted | .dispatching | .running =>
      (s.modLaunch launch fun l =>
        { l with st := .draining, endv := endv, info := info, footprint := [], drainAt := s.time }).stopLaunch launch
    | _ => s

/-- The team fault of R97: the launch drains as FAULTED, its teams are stopped and discarded. -/
def State.faultTeam (s : State) (team : Nat) (group ln : Nat) (pc : Word) (code part pkind : Nat) : State :=
  match s.teams.find team with
  | none => s
  | some t =>
    s.drainLaunch t.launch 3
      { team := t.num, group := group, lane := ln, stage := t.stage, pc := pc, code := code, part := part, pkind := pkind }

/-! ## Taking an exception (R90 to R97) -/

/-- A cause raised by an instruction: its code, SUB and IMM, and the lanes that raised it (R92). -/
structure Cause where
  code : Nat
  sub : Nat
  imm : Nat
  lanes : Word
  deriving DecidableEq, Repr

/-- The CAUSE register (R92). -/
def Cause.word (c : Cause) : DWord :=
  BitVec.ofNat 64 (c.code + c.imm * 2 ^ 8 + lowLane c.lanes * 2 ^ 18
    + (if (lanesOf c.lanes).length > 1 then 2 ^ 23 else 0) + c.sub * 2 ^ 24)

/-- The numeric rank of a cause: codes rise from the highest priority to the lowest (R93). -/
def Cause.higher (a b : Cause) : Cause := if a.code ≤ b.code then a else b

/-- The SKID register (R91). -/
def Group.skidWord (g : Group) : DWord :=
  BitVec.ofNat 64 (g.skidn + g.tword * 2 ^ 8 + (if g.hmode then 2 ^ 16 else 0) + g.tmask.toNat * 2 ^ 32)

/-- A stopped group enters its handler (R96). -/
def Group.enterHandler (handler : Word) (tick : Nat) (g : Group) : Group :=
  { g with hmode := true, st := .ready, age := tick, clause := none, wait := none, hword := 0, again := false, trapPending := false,
           stepDue := false, pcv := rowOf fun l => if lane g.spcv l = exitPc then exitPc else handler }

/-- A group records its trap frame: `dest` is where its active lanes resume, `tword` the word (R91). -/
def Group.record (c : DWord) (active dest : Word) (tword skid : Nat) (g : Group) : Group :=
  { g with st := .stopped, cause := c, tmask := active, tword := tword, tclause := dest, skidn := skid, halt := none, skid := 0,
           spcv := rowOf fun l => if inMask active l then dest else lane g.pcv l,
           clause := none, wait := none, granted := false, wanted := 0, stepDue := false, again := false }

/-- Leave the order of WAIT_ALLOC (R95, R158). -/
def State.leaveAlloc (s : State) (gid : Nat) : State :=
  s.modCore (coreOf gid) fun c => { c with allocWait := c.allocWait.filter fun w => w.1 != gid }

/-- What follows the recording of a frame: the handler, a team fault when there is none or the group is already in its
handler, or a stop when the team is leaving the cores (R96, R97, R113). -/
def State.afterRecord (s : State) (gid : Nat) (wasHandler : Bool) : State :=
  match s.groups.find gid with
  | none => s
  | some g =>
    match s.teams.find g.team with
    | none => s
    | some t =>
      match s.launchOf t with
      | none => s
      | some l =>
        if l.handler = exitPc || wasHandler then
          let ln := bits g.cause.toNat 22 18
          (s.faultTeam g.team g.num ln (lane g.spcv ln) (bits g.cause.toNat 7 0) 0 0).settle g.team
        else if t.st == .running then s.modGroup gid (Group.enterHandler l.handler s.tick)
        else (s.modGroup gid fun g => { g with trapPending := true }).settle g.team

/-- Taking an exception: the group stops with its frame, every earlier instruction having completed, the halt goes out
unless the cause is SSTEP, and the group enters its handler or its team faults (R90, R91, R94, R96, R97). -/
def takeTrap (s : State) (gid : Nat) (c : Cause) (active dest : Word) (tword : Nat) : State :=
  match s.groups.find gid with
  | none => s
  | some g =>
    let s := (s.modGroup gid fun g => { Group.record c.word active dest tword 0 g with hazards := [] }).leaveAlloc gid
    let s := if c.code = 0x61 then s.noteHalting g.team else s.broadcastHalt g.team gid
    s.afterRecord gid g.hmode

/-- A group whose last lane has exited enters RETIRING (R155, R172, R181). -/
def Group.retireIfDone (g : Group) : Group :=
  if minPc g.pcv = exitPc then { g with st := .retiring, hmode := false, clause := none, wait := none, halt := none }
  else g

/-- Where a group resumes from a frame (R101): at word `tword` of the clause if the lanes at the least program counter
are those of the frame, otherwise at a header. `halted` says that the frame was made by a halt. -/
def Group.resumeAt (tick : Nat) (halted : Bool) (g : Group) : Group :=
  let g := { g with st := .ready, age := tick, clause := none, wait := none, hword := 0, again := false }
  if g.tword ≠ 0 ∧ g.active = g.tmask ∧ minPc g.pcv = g.tclause then
    ({ g with hword := g.tword, again := halted }).retireIfDone
  else g.retireIfDone

/-- The return from a trap (R98, R101); `next` is the address of the next clause. Outside handler mode it only goes on. -/
def returnFromTrap (s : State) (gid : Nat) (next active : Word) : State :=
  match s.groups.find gid with
  | none => s
  | some g =>
    if g.hmode = false then
      s.modGroup gid fun g =>
        { g with clause := none, pcv := rowOf fun l => if inMask active l then next else lane g.pcv l }
    else if g.pendHalt then
      let s := s.modGroup gid fun g =>
        { g with pendHalt := false, cause := skidhCause, st := .stopped, clause := none
                 skidn := min g.pendSkid 32, pendSkid := 0 }
      s.afterRecord gid false
    else
      s.modGroup gid fun g =>
        Group.resumeAt s.tick (bits g.cause.toNat 7 0 = 0x70) { g with pcv := g.spcv, hmode := false, cause := 0 }

end Sys2Proof.Machine
end

