-- ==== Sys2Proof/Machine/Memory.lean ====
section
/-! DEFINITION. Memory at home: bytes, poison, the physical map, frames, and the expanded lines of the compressed
window (R117, R276 to R297). -/

namespace Sys2Proof.Machine

open Sys2Proof

/-! ## Bytes in canonical form: addresses rising, no byte zero; an unlisted byte is zero (R18) -/

/-- What a byte that nothing has written reads as: memory is zero after bring-up (R18, R371). -/
def blankByte : Byte := 0

/-- Read one byte. -/
def Mem.get : List Host.Cell → Nat → Byte
  | [], _ => blankByte
  | (k, v) :: t, a => if k = a then v else Mem.get t a

/-- Write one byte, keeping the canonical form. -/
def Mem.set : List Host.Cell → Nat → Byte → List Host.Cell
  | [], a, b => if b = blankByte then [] else [(a, b)]
  | (k, v) :: t, a, b =>
    if a < k then (if b = blankByte then (k, v) :: t else (a, b) :: (k, v) :: t)
    else if a = k then (if b = blankByte then t else (a, b) :: t)
    else (k, v) :: Mem.set t a b

/-- The canonical form: addresses strictly rising from a bound, and no entry equal to what an unlisted byte reads as. -/
def Mem.wfFrom : Nat → List Host.Cell → Bool
  | _, [] => true
  | n, (k, v) :: t => decide (n ≤ k) && decide (v ≠ blankByte) && Mem.wfFrom (k + 1) t

/-- The canonical form of a memory. -/
def Memory.wf (m : List Host.Cell) : Bool := Mem.wfFrom 0 m

/-- Write bytes from an address on. -/
def Mem.setBytes (m : List Host.Cell) (a : Nat) : List Byte → List Host.Cell
  | [] => m
  | b :: t => Mem.setBytes (Mem.set m a b) (a + 1) t

/-- Read `n` bytes. -/
def Mem.getBytes (m : List Host.Cell) (a n : Nat) : List Byte := (List.range n).map fun j => Mem.get m (a + j)

/-! ## The physical map (R276) -/

/-- The spaces of the physical map. -/
inductive Space where
  | hbm | window | plain | link | reserved
  deriving DecidableEq, Repr

/-- The space of a physical address (R276). -/
def spaceOf (pa : Nat) : Space :=
  if pa < 0x10000000000 then .hbm
  else if pa < 0x20000000000 then .reserved
  else if pa < 0x30000000000 then .window
  else if pa < 0x40000000000 then .plain
  else if pa < 0x800000000000 then .reserved
  else if pa < 0x1000000000000 then .link
  else .reserved

/-- The home tower: PA[39:38] (R276). -/
def homeTower (pa : Nat) : Nat := bits pa 39 38

/-- The key under which home keeps a byte: the plain aperture shows the window (R296). -/
def homeKey (pa : Nat) : Nat := if spaceOf pa = .plain then pa - 0x10000000000 else pa

/-- Whether an HBM4 stack has been retired or mapped out (R19, R21). -/
def State.stackGone (s : State) (pa : Nat) : Bool := s.dev.mapped.contains ⟨.hbmStack, bits pa 39 36⟩

/-- The frame-table number of a frame: HBM frames first, then those of the window (R281). -/
def frameNo (pa : Nat) : Nat := bits pa 37 16 + (if spaceOf pa = .hbm then 0 else 4194304)

/-- The home frame table's entry for an address (R281). -/
def State.frame (s : State) (pa : Nat) : Frame := (s.tower (homeTower pa)).frames.findD (frameNo pa) freshFrame

def State.setFrame (s : State) (pa : Nat) (f : Frame) : State :=
  s.modTower (homeTower pa) fun t => { t with frames := t.frames.put (frameNo pa) f }

/-- Where an access that reaches home is served (R281, R296, R297, R299). -/
inductive Home where
  | here (pa : Nat) | held | attrStale | absent
  deriving DecidableEq, Repr

/-- Follow FORWARD frames; a HELD frame holds the access; a window frame in NORMAL answers ATTRSTALE, and through the
plain aperture it is non-present (R281, R296, R297). The number bounds the forwards followed. -/
def State.home (s : State) : Nat → Nat → Home
  | 0, _ => .held
  | n + 1, pa =>
    let key := homeKey pa
    let f := s.frame key
    match f.st with
    | .held => .held
    | .forward => s.home n (f.ptr + pa % 65536)
    | .compressed => .here key
    | .normal =>
      if spaceOf key = .window then (if spaceOf pa = .plain then .absent else .attrStale) else .here pa

/-! ## Poison (R117) -/

/-- The sector of an address. -/
def sectorOf (pa : Nat) : Nat := pa / 32

def State.poisoned (s : State) (pa : Nat) : Bool := s.poison.contains (sectorOf pa)

def State.addPoison (s : State) (sec : Nat) : State := { s with poison := insertNat sec s.poison }

def State.clearPoison (s : State) (sec : Nat) : State := { s with poison := s.poison.filter (· != sec) }

/-! ## The home slice (R277, R280) -/

/-- The index of a line in the slice map (R277). -/
def sliceIdx (pa : Nat) : Nat := (bits pa 18 7 ^^^ bits pa 30 19 ^^^ bits pa 37 31) % 768

/-- The slice of a line under the tower's current map. -/
def State.sliceFor (s : State) (pa : Nat) : Nat :=
  let i := sliceIdx pa
  (s.tower (homeTower pa)).sliceMap.findD i (i % 48)

/-- The number of a line. -/
def lineNo (pa : Nat) : Nat := homeKey pa / 128

/-- The tag of a line at home. -/
def State.l2 (s : State) (pa : Nat) : Option L2Line := (s.tower (homeTower pa)).l2.find (lineNo pa)

def State.setL2 (s : State) (pa : Nat) (l : L2Line) : State :=
  s.modTower (homeTower pa) fun t => { t with l2 := t.l2.put (lineNo pa) l }

/-! ## Compressed lines (R288 to R292) -/

/-- w, d and the sectors of an encoding (R289). -/
def codeShape (code : Nat) : Option (Nat × Nat × Nat) :=
  match code with
  | 2 => some (8, 1, 1) | 3 => some (8, 2, 2) | 4 => some (8, 4, 3) | 5 => some (4, 1, 2)
  | 6 => some (4, 2, 3) | 7 => some (2, 1, 3) | _ => none

/-- The sectors of an encoding; none for a reserved code (R289). -/
def codeSectors (code : Nat) : Option Nat :=
  if code = 0 then some 0 else if code = 1 then some 1 else if code = 15 then some 4
  else (codeShape code).map fun p => p.2.2

/-- Decode a payload into the 128 bytes of its line (R289). -/
def decodeLine (code : Nat) (pay : List Byte) : List Byte :=
  if code = 0 then List.replicate 128 0
  else if code = 1 then (List.range 128).map fun j => pay.getD (j % 8) 0
  else if code = 15 then sliceBytes pay 0 128
  else
    match codeShape code with
    | none => List.replicate 128 0
    | some (w, d, _) =>
      let base := field pay 0 w
      (List.range (128 / w)).flatMap fun k =>
        toBytes w (wrapInt (8 * w) ((base : Int) + signed (8 * d) (field pay (w + d * k) d)))

/-- The payload of a line under an encoding, if the encoding holds the line exactly (R289). -/
def encodeAs (code : Nat) (l : List Byte) : Option (List Byte) :=
  if code = 0 then (if l.all (· = 0) then some [] else none)
  else if code = 1 then
    (if (List.range 128).all fun j => l.getD j 0 = l.getD (j % 8) 0 then some (sliceBytes l 0 32 |>.take 8) else none)
  else if code = 15 then some l
  else
    match codeShape code with
    | none => none
    | some (w, d, _) =>
      let base := field l 0 w
      let ds := (List.range (128 / w)).map fun k => wrapInt (8 * w) ((field l (w * k) w : Int) - base)
      if ds.all fun x => wrapInt (8 * w) (signed (8 * d) x) = x then
        some (toBytes w base ++ ds.flatMap fun x => toBytes d x) else none

/-- The order in which encodings are tried (R290). -/
def codeOrder : List Nat := [0, 1, 2, 3, 5, 4, 6, 7, 15]

/-- The first encoding that holds a line (R290). -/
def bestCode (l : List Byte) : List Nat → Nat
  | [] => 15
  | c :: t => if (encodeAs c l).isSome then c else bestCode l t

/-- The fields of a line map entry (R288). -/
structure LineMap where
  code : Nat
  sect : Nat
  hot : Bool
  soff : Nat
  chunk : Nat
  ok : Bool
  deriving DecidableEq, Repr

/-- The address of the line map entry of a window line (R288). -/
def State.mapAddr (s : State) (key : Nat) : Nat := (s.frame key).ptr + 8 * (bits key 15 7)

/-- Read the line map entry of a window line; `ok` is false for a metadata error (R291). -/
def State.lineMap (s : State) (key : Nat) : LineMap :=
  let a := s.mapAddr key
  let v := ofBytes (Mem.getBytes s.mem a 8)
  let code := bits v 3 0
  let sect := bits v 6 4
  let soff := bits v 13 8
  { code := code, sect := sect, hot := bit v 7, soff := soff, chunk := bits v 44 16 * 2048,
    ok := codeSectors code = some sect && decide (code = 0 ∨ soff + sect ≤ 64) && bits v 15 14 = 0
      && bits v 63 45 = 0 && ! s.poisoned a }

/-- Write a line map entry (R288, R292). -/
def State.setLineMap (s : State) (key : Nat) (m : LineMap) : State :=
  let v := m.code + m.sect * 16 + (if m.hot then 128 else 0) + m.soff * 256 + m.chunk / 2048 * 65536
  { s with mem := Mem.setBytes s.mem (s.mapAddr key) (toBytes 8 v) }

/-- The bytes of a line as one number, byte j in bits 8j+7..8j. -/
def lineOf (l : List Byte) : BitVec 1024 := BitVec.ofNat 1024 (ofBytes l)

/-- Byte `j` of a line. -/
def lineByte (d : BitVec 1024) (j : Nat) : Byte := BitVec.ofNat 8 (bits d.toNat (8 * j + 7) (8 * j))

/-- Overlay bytes on a line where a mask has them. -/
def overlay (old new : BitVec 1024) (m : BitVec 128) : BitVec 1024 :=
  lineOf ((List.range 128).map fun j => if m.getLsbD j then lineByte new j else lineByte old j)

/-- The mask of `n` bytes from offset `o` of a line. -/
def byteMask (o n : Nat) : BitVec 128 := BitVec.ofNat 128 ((2 ^ n - 1) * 2 ^ o)

/-! ## Chunks (R292, R294) -/

/-- A tower takes a chunk from its free list. -/
def State.takeChunk (s : State) (t : Nat) : Option (Nat × State) :=
  match (s.tower t).freeList with
  | [] => none
  | c :: r =>
    let s := s.modTower t fun w => { w with freeList := r, chunks := w.chunks.put c ⟨0, false⟩ }
    let w := s.tower t
    some (c, if w.freeList.length ≤ w.reserve ∧ ! w.reserveTold then
      (s.modTower t fun w => { w with reserveTold := true }).interrupt (.reserve t) else s)

/-- A counted chunk returns to the free list once it is closed with no live sector (R292). -/
def State.recycle (s : State) (t c : Nat) : State :=
  s.modTower t fun w =>
    match w.chunks.find c with
    | some ⟨0, true⟩ =>
      let fl := w.freeList ++ [c]
      { w with chunks := w.chunks.del c, freeList := fl, reserveTold := w.reserveTold && decide (fl.length ≤ w.reserve) }
    | _ => w

/-- Change the live-sector count of a chunk that the device took (R294). -/
def State.countChunk (s : State) (t c add sub : Nat) : State :=
  (s.modTower t fun w => { w with chunks := w.chunks.modify c fun k => { k with live := k.live + add - sub } }).recycle t c

/-- Close a slice's open chunk (R292). -/
def State.closeChunk (s : State) (t slice : Nat) : State :=
  match (s.tower t).openChunk.find slice with
  | none => s
  | some (c, _) =>
    (s.modTower t fun w => { w with openChunk := w.openChunk.del slice
                                    chunks := w.chunks.modify c fun k => { k with closed := true } }).recycle t c

/-- A place of `n` sectors in a slice's open chunk, away from chunk `avoid`; a full or avoided chunk is closed and a new
one taken (R292). The free list is never empty here while RESERVE is kept (R294); if it is, nothing moves. -/
def State.placeSectors (s : State) (t slice n avoid : Nat) : Option (Nat × Nat × State) :=
  let fits := match (s.tower t).openChunk.find slice with
    | some (c, k) => decide (k + n ≤ 64 ∧ c ≠ avoid)
    | none => false
  let got : Option State :=
    if fits then some s
    else
      let s := s.closeChunk t slice
      (s.takeChunk t).map fun p => p.2.modTower t fun w => { w with openChunk := w.openChunk.put slice (p.1, 0) }
  got.bind fun s =>
    ((s.tower t).openChunk.find slice).map fun p =>
      (p.1, p.2, s.modTower t fun w => { w with openChunk := w.openChunk.put slice (p.1, p.2 + n) })

/-- Write a window line's data and marks as a payload and its line map entry, in place or moved (R292 to R294). -/
def State.writeBackWindow (s : State) (key : Nat) : State :=
  let t := homeTower key
  let base := key / 128 * 128
  match s.l2 key with
  | none => s
  | some l =>
    if ! l.dirty then s
    else
      let m := s.lineMap key
      let w := s.tower t
      let data := Mem.getBytes s.mem base 128
      let marks := (List.range 4).map fun k => s.poisoned (base + 32 * k)
      let idle := decide (s.time - max l.fill l.atom ≥ w.hotIdle * 1000)
      let stay := m.hot && ! idle
      let recent := decide (l.atom ≠ 0 ∨ m.hot) && ! idle
      let code := if marks.any id || recent || decide (w.freeList.length ≤ w.reserve) then 15
        else bestCode data codeOrder
      let n := (codeSectors code).getD 4
      let pay := (encodeAs code data).getD data
      let pay := sliceBytes pay 0 (32 * n)
      let old := if m.ok then m.sect else 0
      let store := fun (s : State) (chunk soff : Nat) =>
        let pa := chunk + 32 * soff
        let s := { s with mem := Mem.setBytes s.mem pa pay }
        let s := (List.range n).foldl (fun s k =>
          if marks.getD k false && code = 15 then s.addPoison (sectorOf pa + k) else s.clearPoison (sectorOf pa + k)) s
        s.setLineMap key { code := code, sect := n, hot := stay, soff := soff, chunk := chunk, ok := true }
      let clean := fun (s : State) => s.setL2 key { l with dirty := false }
      if n = 0 then
        clean ((s.setLineMap key { code := 0, sect := 0, hot := stay, soff := 0, chunk := 0, ok := true }).countChunk t m.chunk 0 old)
      else if n ≤ old then clean ((store s m.chunk m.soff).countChunk t m.chunk 0 (old - n))
      else
        match s.placeSectors t l.slice n (if old = 0 then 2 ^ 64 else m.chunk) with
        | none => s
        | some (c, o, s) => clean (((store s c o).countChunk t c n 0).countChunk t m.chunk 0 old)

/-- Drop a line from its home slice; a window line's expanded bytes and marks go with it. -/
def State.dropHome (s : State) (key : Nat) : State :=
  let base := key / 128 * 128
  let s := s.modTower (homeTower key) fun t => { t with l2 := t.l2.del (key / 128) }
  if spaceOf key = .window then
    let s := { s with mem := Mem.setBytes s.mem base (List.replicate 128 0) }
    (List.range 4).foldl (fun s k => s.clearPoison (sectorOf base + k)) s
  else s

/-- Write a line back to memory; a plain line's value already stands there. -/
def State.writeBackHome (s : State) (key : Nat) : State :=
  if spaceOf key = .window then s.writeBackWindow key
  else
    match s.l2 key with
    | some l => s.setL2 key { l with dirty := false }
    | none => s

/-- A line leaves its slice, written back first if it is dirty (R292). -/
def State.evictHome (s : State) (key : Nat) : State :=
  let s := s.writeBackHome key
  match s.l2 key with
  | some l => if l.dirty then s else s.dropHome key
  | none => s

/-! ## Filling a line at home (R10, R278, R292) -/

/-- The lines that a slice of a tower holds. -/
def State.slicedBy (s : State) (t slice : Nat) : List Nat :=
  ((s.tower t).l2.filter fun (p : Nat × L2Line) => p.2.slice == slice).map (·.1)

/-- Room for one more line in the slice of a line: a full slice of 2 MiB writes a line back and drops it (R10, R14, R292;
log entry 6). -/
def State.makeRoom (s : State) (key : Nat) : State :=
  let held := s.slicedBy (homeTower key) (s.sliceFor key)
  if held.length < 16384 then s
  else
    match held[Config.victim s.tick % held.length]? with
    | some n => s.evictHome (n * 128)
    | none => s

/-- The tag of a line that its slice fills. -/
def State.freshL2 (s : State) (key : Nat) : State :=
  s.setL2 key { slice := s.sliceFor key, dirty := false, fill := s.time, atom := 0 }

/-- Bring a window line into its slice: decode its payload; poison marks travel with a RAW line's sectors, and a
metadata error gives four poisoned sectors (R291, R292). -/
def State.fillWindow (s : State) (key : Nat) : State :=
  match s.l2 key with
  | some _ => s
  | none =>
    let s := s.makeRoom key
    let m := s.lineMap key
    let base := key / 128 * 128
    let pa := m.chunk + 32 * m.soff
    let lost := (List.range m.sect).any fun j => s.poisoned (pa + 32 * j) && m.code != 15
    let bad := ! m.ok || lost
    let data := if bad then List.replicate 128 0 else decodeLine m.code (Mem.getBytes s.mem pa (32 * m.sect))
    let s := { s with mem := Mem.setBytes s.mem base data }
    let s := (List.range 4).foldl (fun s j =>
      if bad || (m.code = 15 && s.poisoned (pa + 32 * j)) then s.addPoison (sectorOf (base + 32 * j)) else s) s
    s.freshL2 key

/-- Put a line's tag into its home slice, filling a window line first (R278, R292). -/
def State.touchHome (s : State) (pa : Nat) : State :=
  let key := homeKey pa
  if spaceOf key = .window then s.fillWindow key
  else
    match s.l2 key with
    | some _ => s
    | none => (s.makeRoom key).freshL2 key

/-- The entry of the home frame table as its 128 bits (R281). -/
def Frame.word (f : Frame) : Nat :=
  (match f.st with
   | .normal => 0
   | .compressed => 1
   | .forward => 2
   | .held => 3) + f.wver.toNat * 2 ^ 16 + f.ptr * 2 ^ 64

/-- The byte of a tower's frame table at an address of its HBM, where the table is placed: home answers with the entries it
caches (R281; log entry 80). -/
def State.tableByte (s : State) (a : Nat) : Option Byte :=
  let w := s.tower (homeTower a)
  match w.frameBase with
  | some b =>
    if b ≤ a ∧ a < b + 2 ^ 27 then
      some (BitVec.ofNat 8 ((w.frames.findD ((a - b) / 16) freshFrame).word / 2 ^ (8 * ((a - b) % 16))))
    else none
  | none => none

/-- Read a byte at home, as it stands in the (filled) line. -/
def State.homeByte (s : State) (pa : Nat) : Byte := (s.tableByte (homeKey pa)).getD (Mem.get s.mem (homeKey pa))

/-- The bytes of a line at home. -/
def State.homeBytes (s : State) (pa n : Nat) : List Byte := (List.range n).map fun j => s.homeByte (homeKey pa + j)

/-- Read bytes of one line at home, filling it first. -/
def State.homeRead (s : State) (pa n : Nat) : List Byte × State :=
  let s := s.touchHome pa
  (s.homeBytes pa n, s)

/-! ## Changing a line at home (R278, R281, R329) -/

/-- Whether an RDC line is a copy of a line at home, wherever FORWARD leads. -/
def State.copyOf (s : State) (ln : Nat) (r : RdcLine) : Bool :=
  match s.home 8 (r.pline * 128) with
  | .here p => lineNo p == ln
  | _ => r.pline == ln

/-- What a change of a line at home does to one RDC copy: a clean one goes, bytes that are dirty there stay, and a copy that
home keeps no record of is left alone (R328, R329). -/
def State.refreshCopy (s : State) (ln : Nat) (now : BitVec 1024) (r : RdcLine) : Option RdcLine :=
  if ! s.copyOf ln r || r.sealed then some r
  else if r.line.dirty = 0 then none
  else some { r with line := { r.line with data := overlay now r.line.data r.line.dirty } }

/-- A change of a line at home invalidates the clean RDC copies; bytes that are dirty there stay (R329). -/
def State.dropClean (s : State) (pa : Nat) : State :=
  let ln := lineNo pa
  let now := lineOf (Mem.getBytes s.mem (ln * 128) 128)
  { s with towers := s.towers.map fun (p : Nat × Tower) => (p.1, { p.2 with rdc := p.2.rdc.filterMap (s.refreshCopy ln now) }) }

/-- Merge masked bytes into a line at home: bytes outside the mask stay; a sector written whole loses its mark; the
frame's write version advances; RDC copies are invalidated (R117, R278, R281, R329). -/
def State.homeMerge (s : State) (pa : Nat) (data : BitVec 1024) (m : BitVec 128) : State :=
  if m = 0 then s
  else
    let s := s.touchHome pa
    let base := lineNo pa * 128
    let mem := (List.range 128).foldl (fun mem j =>
      if m.getLsbD j then Mem.set mem (base + j) (lineByte data j) else mem) s.mem
    let s := { s with mem := mem }
    let s := (List.range 4).foldl (fun s k =>
      if (List.range 32).all fun j => m.getLsbD (32 * k + j) then s.clearPoison (sectorOf base + k) else s) s
    let f := s.frame base
    let s := s.setFrame base { f with wver := f.wver + 1 }
    let s := match s.l2 base with
      | some l => s.setL2 base { l with dirty := true }
      | none => s
    s.dropClean pa

/-- Write bytes that lie in one line at home. -/
def State.homeWrite (s : State) (pa : Nat) (bs : List Byte) : State :=
  let o := pa % 128
  s.homeMerge pa (BitVec.ofNat 1024 (ofBytes bs * 2 ^ (8 * o))) (byteMask o bs.length)

/-- An atomic was performed on a line: its time, and the HOT bit of a window line (R293). -/
def State.noteAtomic (s : State) (pa : Nat) : State :=
  let key := homeKey pa
  let s := match s.l2 key with
    | some l => s.setL2 key { l with atom := s.time, dirty := true }
    | none => s
  if spaceOf key = .window then s.setLineMap key { s.lineMap key with hot := true } else s

/-- Give masked bytes of a physical line, with the marks of the sectors they cover whole, to home, wherever FORWARD leads;
while home is HELD they wait there (R117, R281). -/
def State.giveHome (s : State) (w : HeldWrite) : State :=
  match s.home 8 (w.pline * 128) with
  | .here pa =>
    let s := s.homeMerge pa w.line.data w.line.dirty
    (List.range 4).foldl (fun (s : State) k =>
      if w.marks.getLsbD k then s.addPoison (sectorOf (lineNo pa * 128) + k) else s) s
  | _ => { s with held := s.held ++ [w] }

/-- Give masked bytes of a physical line to home. -/
def State.toHome (s : State) (pline : Nat) (l : Line) : State := s.giveHome ⟨pline, l, 0⟩

/-- A store's bytes within its line, as a masked line. -/
def storeLine (va : Nat) (bs : List Byte) : Line :=
  { data := BitVec.ofNat 1024 (ofBytes bs * 2 ^ (8 * (va % 128))), dirty := byteMask (va % 128) bs.length }

/-- Write bytes of one line at home, wherever FORWARD leads. -/
def State.putHome (s : State) (pa : Nat) (bs : List Byte) : State := s.toHome (pa / 128) (storeLine pa bs)

/-- A frame has changed its state: what waits at homes goes on in order, or waits again (R281, R299). -/
def State.drainHeld (s : State) : State := s.held.foldl State.giveHome { s with held := [] }

end Sys2Proof.Machine
end

