-- ==== Sys2Proof/Machine/Translate.lean ====
section
/-! DEFINITION. From a virtual address to its home: the walk, the TLB, aliases, fault records, and the caches of cores and
towers (R268 to R275, R279, R282, R283, R328, R329). -/

namespace Sys2Proof.Machine

open Sys2Proof

/-! ## Writing lines back from the L1s and RDCs (R274, R279) -/

/-- The RDC line of a tower for a physical line. -/
def State.rdcLine (s : State) (t pline : Nat) : Option RdcLine := (s.tower t).rdc.find? fun r => r.pline == pline

/-- Put a line into a tower's RDC; a full RDC gives up a line, whose dirty bytes go home (R279; log entry 6). -/
def State.putRdc (s : State) (t : Nat) (r : RdcLine) : State :=
  let rest := (s.tower t).rdc.filter fun x => x.pline != r.pline
  let v := if rest.length < 262144 then none else rest[Config.victim s.tick % 262144]?
  let s := match v with
    | some x => s.toHome x.pline x.line
    | none => s
  let rest := match v with
    | some x => rest.filter fun y => y.pline != x.pline
    | none => rest
  s.modTower t fun w => { w with rdc := r :: rest }

/-- The dirty bytes of an RDC line under a change of owner: a context's new bytes are no longer another's (R324). -/
def RdcLine.merge (ctx : Nat) (l : Line) (r : RdcLine) : RdcLine :=
  let mine := (r.own.find ctx).getD 0 ||| l.dirty
  { r with line := { data := overlay r.line.data l.data l.dirty, dirty := r.line.dirty ||| l.dirty }
           own := Tbl.put (r.own.map fun (p : Nat × BitVec 128) => (p.1, p.2 &&& ~~~l.dirty)) ctx mine
           sealed := false }

/-- Merge masked bytes of a context into a tower's RDC: the path of FENCE codes 1 to 3 for lines homed elsewhere (R324). A
line that waits for its home to take it goes home. -/
def State.toRdc (s : State) (t ctx pline : Nat) (l : Line) : State :=
  match s.rdcLine t pline with
  | some r => s.putRdc t (r.merge ctx l)
  | none =>
    match s.home 8 (pline * 128) with
    | .here pa =>
      let (bs, s) := s.homeRead (pa / 128 * 128) 128
      s.putRdc t (RdcLine.merge ctx l { pline := pline, line := { data := lineOf bs, dirty := 0 }, own := [], sealed := false })
    | _ => s.toHome pline l

/-- The dirty bytes of an RDC line that belong to a context, or all of them (R321 to R325). -/
def RdcLine.bytesOf (r : RdcLine) (ctx : Option Nat) : BitVec 128 :=
  match ctx with
  | some c => ((r.own.find c).getD 0) &&& r.line.dirty
  | none => r.line.dirty

/-- An RDC line whose bytes of a context, or all of whose bytes, have gone home. -/
def RdcLine.cleaned (ctx : Option Nat) (r : RdcLine) : RdcLine :=
  { r with line := { r.line with dirty := r.line.dirty &&& ~~~(r.bytesOf ctx) }
           own := match ctx with
             | some c => r.own.del c
             | none => [] }

/-- Write back dirty bytes of a tower's RDC lines that satisfy a test, those of one context or all; the lines stay. -/
def State.cleanRdcOf (s : State) (t : Nat) (ctx : Option Nat) (p : RdcLine → Bool) : State :=
  let ls := (s.tower t).rdc.filter fun r => p r && r.bytesOf ctx != 0
  let s := ls.foldl (fun (s : State) r => s.toHome r.pline { r.line with dirty := r.bytesOf ctx }) s
  s.modTower t fun w => { w with rdc := w.rdc.map fun r => if p r then r.cleaned ctx else r }

/-- Write back the dirty bytes of a tower's RDC lines that satisfy a test. -/
def State.cleanRdc (s : State) (t : Nat) (p : RdcLine → Bool) : State := s.cleanRdcOf t none p

/-- Write back and drop the RDC lines of a tower that satisfy a test. -/
def State.flushRdc (s : State) (t : Nat) (p : RdcLine → Bool) : State :=
  let ls := (s.tower t).rdc.filter fun r => p r && r.line.dirty != 0
  let s := s.modTower t fun w => { w with rdc := w.rdc.filter fun r => ! p r }
  ls.foldl (fun (s : State) r => s.toHome r.pline r.line) s

/-- Dirty bytes of an L1 go home; bytes of the line that its tower's RDC holds dirty are older and go before them (R329 to
R332). -/
def State.l1Home (s : State) (tower pline : Nat) (l : Line) : State :=
  if l.dirty = 0 then s else (s.cleanRdc tower fun r => r.pline == pline).toHome pline l

/-- Write back the dirty bytes of the L1 lines of a core that satisfy a test; the lines stay, clean. With `viaRdc`, a line
homed on another tower goes to this tower's RDC (R324). -/
def State.cleanL1 (s : State) (core : Nat) (viaRdc : Bool) (p : L1Line → Bool) : State :=
  let ls := (s.core core).l1.filter fun l => p l && l.line.dirty != 0
  let s := ls.foldl (fun s l =>
    if viaRdc && homeTower (l.pline * 128) != towerOfCore core then s.toRdc (towerOfCore core) l.ctx l.pline l.line
    else s.l1Home (towerOfCore core) l.pline l.line) s
  s.modCore core fun c => { c with l1 := c.l1.map fun l => if p l then { l with line := { l.line with dirty := 0 } } else l }

/-- Write back and drop the L1 lines of a core that satisfy a test. -/
def State.flushL1 (s : State) (core : Nat) (viaRdc : Bool) (p : L1Line → Bool) : State :=
  (s.cleanL1 core viaRdc p).modCore core fun c => { c with l1 := c.l1.filter fun l => ! p l }

/-! ## The TLB (R273, R275) -/

/-- The bytes a TLB entry's page holds. -/
def TlbEntry.size (e : TlbEntry) : Nat := if e.big then 0x200000 else 0x10000

/-- Whether an entry translates a virtual address of a context. -/
def TlbEntry.hits (e : TlbEntry) (ctx va : Nat) : Bool := e.ctx == ctx && decide (e.va ≤ va ∧ va < e.va + e.size)

/-- The L1 lines of an entry's page. -/
def TlbEntry.owns (e : TlbEntry) (l : L1Line) : Bool := e.hits l.ctx (l.vline * 128)

/-- Remove an entry: the L1 lines of its page are written back and dropped in the eight cores (R275, R302). -/
def State.dropTlb (s : State) (cl : Nat) (e : TlbEntry) : State :=
  let s := (List.range 8).foldl (fun s k => s.flushL1 (8 * cl + k) false e.owns) s
  s.modCluster cl fun c => { c with tlb := c.tlb.filter (· != e)
                                    const := c.const.filter fun l => ! e.hits l.ctx (l.vline * 128) }

/-- The set of the TLB, of 512 sets of eight ways, that an entry belongs to: by context and virtual page (R273; log entry
81). -/
def TlbEntry.set (e : TlbEntry) : Nat := Config.tlbSet e.ctx (e.va / e.size) % 512

/-- Install a translation: other aliases of its frames lose their L1 lines and entries (R275); a full set gives up an entry
(R273; log entry 6). -/
def State.putTlb (s : State) (cl : Nat) (e : TlbEntry) : State :=
  let others := (s.cluster cl).tlb.filter fun x => overlaps x.pa x.size e.pa e.size && (x.ctx != e.ctx || x.va != e.va)
  let s := others.foldl (fun s x => s.dropTlb cl x) s
  let full := (s.cluster cl).tlb.filter fun x => x.set == e.set && (x.ctx != e.ctx || x.va != e.va)
  let s := if full.length < 8 then s else
    match full[Config.victim s.tick % full.length]? with
    | some v => s.dropTlb cl v
    | none => s
  s.modCluster cl fun c => { c with tlb := e :: c.tlb.filter fun x => x.ctx != e.ctx || x.va != e.va }

/-! ## The walk (R268 to R272) -/

/-- How a walk or an access check ends. -/
inductive Xlat where
  | ok (e : TlbEntry)
  | absent (pte : Nat) (level3 : Bool)
  | trap (sub : Nat)
  | held
  deriving DecidableEq, Repr

/-- The table a walk is about to read must lie in HBM, in a live stack, aligned to its size (R272). -/
def State.badTable (s : State) (pa size : Nat) : Bool :=
  spaceOf pa != .hbm || s.stackGone pa || pa % size != 0

/-- The leaf checks of R272 and the entry they give. -/
def State.leafOf (s : State) (ctx va : Nat) (pte : Nat) (big : Bool) : Xlat :=
  let pa := bits pte 47 16 * 65536
  let c := bit pte 5
  let bad := bits pte 15 8 ≠ 0 ∨ bits pte 63 48 ≠ 0 ∨ (big = true ∧ bits pte 20 16 ≠ 0) ∨ (c = true ∧ bit pte 6 = true)
    ∨ (c = true ∧ spaceOf pa ≠ .window) ∨ (c = false ∧ spaceOf pa = .window) ∨ spaceOf pa = .reserved
    ∨ (spaceOf pa = .hbm ∧ s.stackGone pa = true)
  if bad then .trap 1
  else .ok { ctx := ctx, va := if big then va / 0x200000 * 0x200000 else va / 0x10000 * 0x10000, big := big, pa := pa
             w := bit pte 2, x := bit pte 3, p := bit pte 4, c := c, mirror := bit pte 6, s := bit pte 7 }

/-- Read an entry of a page table at home (R272, R281). -/
def State.pteAt (s : State) (pa : Nat) : Option Nat :=
  match s.home 8 pa with
  | .here pa => some (ofBytes (s.homeBytes pa 8))
  | _ => none

/-- The last level of a walk: every entry is a leaf (R269, R272). -/
def State.walkStep (s : State) (ctx va level idx size table : Nat) : Xlat :=
  if s.badTable table size then .trap 1
  else
    match s.pteAt (table + 8 * idx) with
    | none => .held
    | some pte =>
      if ! bit pte 0 then .absent (table + 8 * idx) (level = 3)
      else if ! bit pte 1 then .trap 1
      else s.leafOf ctx va pte false

/-- The walk from level `3 - n` on (R269, R272). -/
def State.walkFrom (s : State) (ctx va : Nat) : Nat → Nat → Xlat
  | 0, table => s.walkStep ctx va 3 (bits va 20 16) 256 table
  | n + 1, table =>
    let level := 2 - n
    let (idx, size) := if level = 0 then (bits va 51 39, 65536) else if level = 1 then (bits va 38 30, 4096)
      else (bits va 29 21, 4096)
    if s.badTable table size then .trap 1
    else
      match s.pteAt (table + 8 * idx) with
      | none => .held
      | some pte =>
        if ! bit pte 0 then .absent (table + 8 * idx) false
        else if bit pte 1 then (if level = 2 then s.leafOf ctx va pte true else .trap 1)
        else if bits pte 7 2 ≠ 0 ∨ bits pte 63 48 ≠ 0 then .trap 1
        else s.walkFrom ctx va n (bits pte 47 8 * 256)

/-! ## Regions (R300, R320 to R326) -/

/-- The translation of an address in a cluster without a fault: the TLB's, or the walk's (R272, R273). -/
def State.entryFor (s : State) (cl ctx va : Nat) : Option TlbEntry :=
  match (s.cluster cl).tlb.find? fun e => e.hits ctx va with
  | some e => some e
  | none =>
    match s.walkFrom ctx va 3 (s.ctx ctx).ptRoot with
    | .ok e => some e
    | _ => none

/-- The pages of a range of virtual addresses that the cluster translates without a fault. -/
def State.pagesIn (s : State) (cl ctx a n : Nat) : List TlbEntry :=
  ((List.range (n / 65536 + 2)).filterMap fun k =>
    let va := (a / 65536 + k) * 65536
    if va < a + n then s.entryFor cl ctx va else none).eraseDups

/-- The virtual address at which a page shows a physical line. -/
def TlbEntry.vaOf (e : TlbEntry) (pline : Nat) : Nat := e.va + (pline * 128 - e.pa)

/-- Whether a page shows a physical line within a range of virtual addresses. -/
def TlbEntry.shows (e : TlbEntry) (a n pline : Nat) : Bool :=
  decide (e.pa ≤ pline * 128 ∧ pline * 128 < e.pa + e.size) && overlaps (e.vaOf pline) 128 a n

/-- The RDC lines that one of some pages shows within a range. -/
def rdcIn (pages : List TlbEntry) (a n : Nat) (r : RdcLine) : Bool := pages.any fun e => e.shows a n r.pline

end Sys2Proof.Machine
end

