-- ==== Sys2Proof/Machine/Access.lean ====
section
/-! DEFINITION. Accesses to global memory: the checks before an access, non-present pages and fault records, and reading
and writing through the caches (R282, R283, R287, R304, R325 to R329, R417, R418). -/

namespace Sys2Proof.Machine

open Sys2Proof

/-- The kinds of access that the checks tell apart. `engine` is a copy or a task, which reads compressed pages and whose
pages may stay away while it runs (R287, R282). -/
inductive AccKind where
  | load | store | atomic | fetch | engineRead | engineWrite
  deriving DecidableEq, Repr

def AccKind.writes : AccKind → Bool
  | .store | .atomic | .engineWrite => true
  | _ => false

/-- How the checks of an access end: it may be performed at a physical address, it raises a cause (code, SUB), its page
is not present (entry, level 3), it must wait at home, or the group has logged its line (R286). -/
inductive Check where
  | ok (pa : Nat) (e : TlbEntry)
  | trap (code sub : Nat)
  | absent (pte : Nat) (level3 attr : Bool)
  | held
  | logged (reserve : Bool)
  deriving DecidableEq, Repr

/-- Whether bytes overlap a sealed region of the context (R325). -/
def State.sealedAt (s : State) (ctx va n : Nat) : Bool := (s.ctx ctx).seals.any fun p => overlaps va n p.1 p.2

/-- The translation of an address in a cluster, and whether the TLB holds it: the TLB's, or the walk's (R272, R273). -/
def State.lookup (s : State) (cl ctx va : Nat) : Xlat × Bool :=
  match (s.cluster cl).tlb.find? fun e => e.hits ctx va with
  | some e => (.ok e, true)
  | none => (s.walkFrom ctx va 3 (s.ctx ctx).ptRoot, false)

/-- The permission checks on a translation, in the order of R272, then SEALW (R272, R325) and CMPLD (R287); a code fetch
through a link aperture has no execute permission (R416). -/
def permits (priv sld : Bool) (k : AccKind) (va : Nat) (e : TlbEntry) : Check :=
  let pa := e.pa + (va - e.va)
  if e.p && ! priv then .trap 0x10 4
  else if k.writes && ! e.w && ! e.s then .trap 0x10 2
  else if k == .fetch && (! e.x || spaceOf pa == .link) then .trap 0x10 3
  else if k.writes && (e.s || sld) then .trap 0x12 0
  else if e.c && (k == .load || k == .fetch) then .trap 0x13 0
  else .ok pa e

/-- The translation and permissions of an access; a walk whose access is permitted is stored in the TLB (R272, R273). -/
def State.permitted (s : State) (cl ctx : Nat) (priv : Bool) (k : AccKind) (a n : Nat) : Check × State :=
  match s.lookup cl ctx a with
  | (.trap sub, _) => (.trap 0x10 sub, s)
  | (.absent p l, _) => (.absent p l false, s)
  | (.held, _) => (.held, s)
  | (.ok e, stored) =>
    match permits priv (s.sealedAt ctx a n) k a e with
    | .ok pa e => (.ok pa e, if stored then s else s.putTlb cl e)
    | r => (r, s)

/-- Check `n` bytes of one page at an address below 2^52: translation and permissions, and the state of the home frame; at
ATTRSTALE the requester drops its entry and walks again, and a second one counts as non-present (R272, R281, R297). -/
def State.reach (s : State) (cl ctx : Nat) (priv : Bool) (k : AccKind) (a n : Nat) : Check × State :=
  match s.permitted cl ctx priv k a n with
  | (.ok pa e, s) =>
    if spaceOf pa = .link then (.ok pa e, s)
    else
      match s.home 8 pa with
      | .here _ => (.ok pa e, s)
      | .held => (.held, s)
      | .absent => (.absent 0 false false, s)
      | .attrStale =>
        match (s.dropTlb cl e).permitted cl ctx priv k a n with
        | (.ok pa e, s) =>
          (match s.home 8 pa with
           | .here _ => (.ok pa e, s)
           | .held => (.held, s)
           | _ => (.absent 0 false true, s))
        | r => r
  | r => r

/-- Check an access of `n` bytes at a 64-bit address: bits 63:52 (R268), alignment (R304), then as above. -/
def State.check (s : State) (cl ctx : Nat) (priv : Bool) (k : AccKind) (a n : Nat) : Check × State :=
  if 2 ^ 52 ≤ a then (.trap 0x10 1, s)
  else if a % n ≠ 0 then (.trap 0x11 1, s)
  else s.reach cl ctx priv k a n

/-! ## Fault records (R282, R283) -/

/-- Write the records that fit into a context's fault ring (R283). The ring's address is physical: log entry 12. -/
def State.drainFaults (s : State) (c : Nat) : State :=
  let x := s.ctx c
  match x.ring with
  | none => s
  | some _ =>
    x.faults.foldl (fun s f =>
      match (s.ctx c).ring with
      | some r =>
        if f.written || decide (r.tail - r.head ≥ 2 ^ r.k) then s
        else
          let pa := r.addr + 32 * (r.tail % 2 ^ r.k)
          let rc := (f.record.take 12) ++ toBytes 4 r.tail ++ (f.record.drop 16)
          let s := s.putHome pa rc
          s.modCtx c fun x =>
            { x with ring := some { r with tail := r.tail + 1 }
                     faults := x.faults.map fun g => if g.page == f.page && g.kind == f.kind then { g with written := true } else g }
      | none => s) s

/-- Report a fault once for each page and kind while it is unresolved (R282, R283). -/
def State.reportFault (s : State) (c va kind core pte : Nat) (level3 attr : Bool) : State :=
  let page := va / 0x10000
  if (s.ctx c).faults.any fun f => f.page == page && f.kind == kind then s
  else
    let flags := (if attr then 1 else 0) + (if level3 then 2 else 0)
    let rc := toBytes 8 va ++ toBytes 2 core ++ toBytes 1 kind ++ toBytes 1 flags ++ toBytes 4 0
      ++ toBytes 8 (if kind = 5 || attr then 0 else pte) ++ toBytes 8 0
    (s.modCtx c fun x => { x with faults := x.faults ++ [⟨page, kind, rc, false⟩] }).drainFaults c

/-! ## Reading and writing lines through the caches (R274, R279, R329) -/

/-- The physical line's content as a miss of an L1 of the tower fetches it: from the RDC for a line homed elsewhere,
otherwise from home (R279, R329). -/
def State.fetchLine (s : State) (tower pa : Nat) (sld : Bool) : BitVec 1024 × State :=
  match s.home 8 pa with
  | .here p =>
    if homeTower pa ≠ tower ∧ spaceOf pa = .hbm then
      match s.rdcLine tower (pa / 128) with
      | some r => (r.line.data, s)
      | none =>
        let (bs, s) := s.homeRead (lineNo p * 128) 128
        let d := lineOf bs
        (d, s.putRdc tower { pline := pa / 128, line := { data := d, dirty := 0 }, own := [], sealed := sld })
    else
      let (bs, s) := s.homeRead (lineNo p * 128) 128
      (lineOf bs, s)
  | _ => (0, s)

/-- Whether lines of a page may live in an L1: plain HBM pages only (R274, R296, R416). -/
def cacheable (e : TlbEntry) (pa : Nat) : Bool := ! e.c && spaceOf pa == .hbm

/-- The L1 line of a context. -/
def State.l1Line (s : State) (core ctx vline : Nat) : Option L1Line :=
  (s.core core).l1.find? fun l => l.ctx == ctx && l.vline == vline

/-- Put a line into an L1; a full L1 gives up a line, whose dirty bytes go home (R274; log entry 6). -/
def State.putL1 (s : State) (core : Nat) (l : L1Line) : State :=
  let rest := (s.core core).l1.filter fun x => x.ctx != l.ctx || x.vline != l.vline
  let v := if rest.length < 1024 then none else rest[Config.victim s.tick % 1024]?
  let s := match v with
    | some x => s.l1Home (towerOfCore core) x.pline x.line
    | none => s
  let rest := match v with
    | some x => rest.filter (· != x)
    | none => rest
  s.modCore core fun c => { c with l1 := l :: rest }

/-- The L1 line of an address, fetched on a miss. -/
def State.fillL1 (s : State) (core ctx va pa : Nat) (e : TlbEntry) : L1Line × State :=
  match s.l1Line core ctx (va / 128) with
  | some l => (l, s)
  | none =>
    let sld := e.s || s.sealedAt ctx va 1
    let (d, s) := s.fetchLine (towerOfCore core) pa sld
    let l := { ctx := ctx, vline := va / 128, pline := pa / 128, line := { data := d, dirty := 0 }, sealed := sld }
    (l, s.putL1 core l)

/-- The bytes of a load after its checks: from the L1 for a cacheable page, otherwise from home; a poisoned sector reads
as zero and sets CHKIV.POISON unless this core holds the byte dirty (R117, R306, R329). -/
def State.loadBytes (s : State) (core ctx launch va pa n : Nat) (e : TlbEntry) : List Byte × State :=
  if cacheable e pa then
    let (l, s) := s.fillL1 core ctx va pa e
    let real := match s.home 8 pa with
      | .here p => p
      | _ => pa
    let bad := (List.range n).filter fun j => s.poisoned (real + j) && ! l.line.dirty.getLsbD ((va + j) % 128)
    let bs := (List.range n).map fun j => if bad.contains j then 0 else lineByte l.line.data ((va + j) % 128)
    (bs, if bad.isEmpty then s else s.setChk launch chkPoison)
  else
    match s.home 8 pa with
    | .here p =>
      let (bs, s) := s.homeRead p n
      let bad := (List.range n).any fun j => s.poisoned (homeKey p + j)
      let bs := (List.range n).map fun j => if s.poisoned (homeKey p + j) then 0 else bs.getD j 0
      (bs, if bad then s.setChk launch chkPoison else s)
    | _ => (List.replicate n 0, s)

/-- A fresh mirror request for a store to a MIRROR page (R121). -/
def State.mirrorStore (s : State) (gid launch ctx pa : Nat) (e : TlbEntry) : State :=
  if e.mirror then
    let (n, s) := s.gensym
    { s with mirrors := s.mirrors.put n { gid := gid, launch := launch, ctx := ctx, pa := pa, since := none } }
  else s

/-- The bytes of a store after its checks: into the L1 for a cacheable page, home for one that bypasses it (R306). -/
def State.storeBytes (s : State) (core ctx va pa : Nat) (e : TlbEntry) (bs : List Byte) : State :=
  if cacheable e pa then
    let (l, s) := s.fillL1 core ctx va pa e
    let o := va % 128
    let m := byteMask o bs.length
    let d := BitVec.ofNat 1024 (ofBytes bs * 2 ^ (8 * o))
    s.putL1 core { l with line := { data := overlay l.line.data d m, dirty := l.line.dirty ||| m } }
  else s.putHome pa bs

/-! ## The store side log (R285, R286) -/

/-- Entries of the core's log that a group owns, the chunk reserve's apart or not (R286). -/
def State.loggedBy (s : State) (gid : Nat) : Bool := s.cores.any fun p => p.2.log.any fun e => e.gid == gid

/-- Whether a window store must wait for the chunk reserve: FREECNT is down to RESERVE and the line is not dirty (R294). -/
def State.reserveHolds (s : State) (pa : Nat) : Bool :=
  let key := homeKey pa
  spaceOf key == .window &&
    (let w := s.tower (homeTower key)
     decide (w.freeList.length ≤ w.reserve) && ! ((s.l2 key).map (·.dirty)).getD false)

/-! ## Link apertures (R417, R418) -/

/-- The window of a link address (R417). -/
def windowNo (pa : Nat) : Nat := bits pa 46 36

def State.window (s : State) (pa : Nat) : DWord := s.dev.windows.findD (windowNo pa) 0

/-- Whether a window admits an access (R418): loads of `n` bytes, stores, atomics, copy reads. -/
inductive LinkAcc where
  | load (n : Nat) | store | atomic | copyRead
  deriving DecidableEq, Repr

def admits (w : DWord) (a : LinkAcc) : Bool :=
  w.getLsbD 0 &&
    match bits w.toNat 3 1, a with
    | 0, _ => true
    | 1, .atomic => false
    | 1, _ => true
    | 2, .copyRead => true
    | 3, .load n => n == 8
    | _, _ => false

/-- The link port that a request takes: one of the UP ports of the trunk to the next hop, by a hash of target and line; none
if none of them is UP (R414; log entry 34). -/
def State.portFor (s : State) (dev pa : Nat) : Option Nat :=
  let up := (s.links.filter fun p => p.2.st == .up && Config.portHop p.1 == Config.nextHop dev).map (·.1)
  up[Config.linkHash dev (pa / 128) % up.length]?

/-- A request of 1 to 256 bytes leaves for a link aperture (R415, R416). -/
def State.sendPeer (s : State) (k : PeerKind) (op : PeerOp) (gid launch ctx pa size owner : Nat) : Nat × State :=
  let (n, s) := s.gensym
  let dev := bits (s.window pa).toNat 17 8
  let r : PeerReq := { kind := k, gid := gid, launch := launch, ctx := ctx, pa := pa, size := size, op := op, dev := dev
                       when := s.time, done := false, data := [], marks := [], owner := owner, cause := 0
                       port := s.portFor dev pa }
  (n, { s with peers := s.peers.put n r })

/-- A posted request leaves if its window admits it; otherwise CHKIV.PEERPOST is set (R416, R418). -/
def State.post (s : State) (op : PeerOp) (gid launch ctx pa size : Nat) : State :=
  let acc : LinkAcc := match op with
    | .read => .load size
    | .write _ _ => .store
    | .atomic _ _ _ => .atomic
  if admits (s.window pa) acc then (s.sendPeer .posted op gid launch ctx pa size 0).2 else s.setChk launch chkPeerPost

end Sys2Proof.Machine
end

