-- ==== Sys2Proof/Machine/Issue.lean ====
section
/-! DEFINITION. Issuing an instruction: what every instruction of a group shares (R56 to R58, R74 to R80, R155 to R160,
R168 to R173, R186). A meaning gives its shape and its body to `issue`. -/

namespace Sys2Proof.Machine

open Sys2Proof

/-- What passes between a leader and its shadow (R119): nothing, a value from outside, an operation that leaves the
group, or both. -/
inductive Outside where
  | no | input | output | both
  deriving DecidableEq, Repr

/-- The shape of an instruction: registers read and written, marked last uses, latency (R77), stall count, counter, MA
opcode and size, the lanes of a vector register that it reads or writes: the active set unless its entry names others
(R80), and whether it writes REV itself (R165). -/
structure Shape where
  vr : List Nat := []
  vw : List Nat := []
  sr : List Nat := []
  sw : List Nat := []
  lu : List Nat := []
  lat : Nat := 8
  stall : Nat := 0
  dc : Nat := 6
  opc : Nat := 0
  sz : Nat := 0
  lanes : Nat → Group → Word → Word := fun _ _ act => act
  out : Outside := .no
  setsRev : Bool := false

/-- The register writes of an instruction: vector register, row and lanes; scalar register and value. -/
structure Eff where
  vw : List (Nat × Row × Word) := []
  sw : List (Nat × DWord) := []
  deriving DecidableEq, Repr

/-- How a body ends. -/
inductive Res where
  /-- It has its effect; results are written now, or under its counter when one is named. -/
  | done (e : Eff) (s : State)
  /-- As `done`, and the operation still has something to do when it completes (R168). -/
  | later (e : Eff) (a : OpAct) (s : State)
  /-- It has its effect and sends the active lanes elsewhere (R173). -/
  | jump (pcv : Row) (e : Eff) (s : State)
  /-- It traps and resumes at itself (R90). -/
  | trap (c : Cause) (s : State)
  /-- It traps and resumes at the next instruction (R90, R100). -/
  | trapNext (c : Cause) (s : State)
  /-- It waits and has no effect yet (R95); limit and phase as its entry says. -/
  | wait (k : WaitKind) (lim phase : Nat) (s : State)
  /-- It has set the group's own control state itself (R101). -/
  | own (s : State)

/-- What a body is given: the issuing group's number, its view of the group, its clause, and the state. -/
structure Env where
  gid : Nat
  g : Group
  c : Clause
  team : Team
  launch : Launch

/-- The active set of the issuing clause (R58). -/
def Env.act (e : Env) : Word := e.c.active

/-- Whether lane `l` is active. -/
def Env.on (e : Env) (l : Nat) : Bool := inMask e.act l

/-- The address of the next clause: H + N + 1 (R55). -/
def Clause.next (c : Clause) : Word := c.addr + BitVec.ofNat 32 (bits c.header.toNat 31 28 + 1)

/-- The instruction at a clause's position. -/
def Clause.instr (c : Clause) : Except DecodeError (Instr × List Word) := decode (c.words.drop c.pos)

/-! ## What a group sees of its registers (R78, R79) -/

/-- A register whose fixed-latency result is not due yet reads, per lane, old or new (R78). -/
def seeHazard (tick : Nat) (g : Group) (h : Hazard) : Group :=
  if h.left = 0 then g
  else
    { g with rows := g.rows.modify h.reg fun r =>
        rowOf fun l => if inMask h.lanes l && Config.freeBit tick (32 * h.reg + l) then lane h.old l else lane r l }

/-- A register that a counted operation is still to write reads an unspecified value (R79). -/
def seePending (tick : Nat) (g : Group) (o : Op) : Group :=
  let g := o.vres.foldl (fun (g : Group) (p : Nat × Row × Word) =>
    { g with rows := g.rows.modify p.1 fun r =>
        rowOf fun l => if inMask p.2.2 l then Config.freeWord tick (32 * p.1 + l) else lane r l }) g
  o.sres.foldl (fun (g : Group) (p : Nat × DWord) =>
    g.setS p.1 (Config.freeWord tick (4096 + 2 * p.1) ++ Config.freeWord tick (4097 + 2 * p.1))) g

/-- The group as its next instruction reads it. -/
def Group.view (tick : Nat) (g : Group) : Group :=
  g.ops.foldl (seePending tick) (g.hazards.foldl (seeHazard tick) g)

/-- Whether SBCHK finds a register too early (R80). -/
def Group.tooEarly (g : Group) (sh : Shape) (act : Word) : Bool :=
  let rs := sh.vr ++ sh.vw
  let ss := sh.sr ++ sh.sw
  (g.hazards.any fun h => rs.contains h.reg && decide (h.left > 0) && h.lanes &&& sh.lanes h.reg g act != 0)
    || g.ops.any fun o => (o.vres.any fun p => rs.contains p.1) || o.sres.any fun p => ss.contains p.1

/-! ## Rows (R156, R158) -/

/-- The names among `vw` that need a new row. -/
def Group.newNames (g : Group) (vw : List Nat) : List Nat := vw.eraseDups.filter fun v => (g.rows.find v).isNone

/-- The answer to the rows that an instruction asks for: nothing needed or granted, BUDGET, or a wait (R158). -/
inductive Rows where
  | granted | budget | wait (k : Nat)
  deriving DecidableEq, Repr

/-- Ask for the rows of an instruction (R158). Rows whose free is pending count toward h also for the first instruction of
a clause with RGN: the rows are asked for before the clause performs those frees (R186; log entry 83). -/
def State.askRows (s : State) (gid : Nat) (g : Group) (k : Nat) : Rows :=
  let h := g.rows.length
  let rmin := s.rminOf g
  if k = 0 then .granted
  else if h + k > s.rmaxOf g then .budget
  else if g.granted then .granted
  else
    let pool := max (h + k) rmin - max h rmin
    if pool = 0 then .granted
    else if s.poolFree (coreOf gid) ≥ pool ∧ (s.core (coreOf gid)).allocWait = [] then .granted
    else .wait k

/-! ## Writing results -/

/-- Write an instruction's results. -/
def Group.apply (e : Eff) (g : Group) : Group :=
  let g := e.vw.foldl (fun (g : Group) (p : Nat × Row × Word) => g.setV p.1 p.2.2 p.2.1) g
  e.sw.foldl (fun (g : Group) (p : Nat × DWord) => g.setS p.1 p.2) g

/-- Give rows to names that counted operations or partial writes need, filled with zeros (R156). -/
def Group.allocate (vw : List Nat) (g : Group) : Group :=
  vw.foldl (fun (g : Group) v => g.setV v 0 zeroRow) g

/-- The hazards after an instruction that wrote `e` with latency `lat` and stall count `stall` (R78). With two results to
one register not due yet, an early reader sees in each lane of the later one what stood there before it, the earlier
result, or the newest value, and never the value before both (log entry 4). -/
def nextHazards (g : Group) (e : Eff) (lat stall : Nat) : List Hazard :=
  let kept := g.hazards.map fun h =>
    { h with lanes := e.vw.foldl (fun (m : Word) (p : Nat × Row × Word) => if p.1 = h.reg then m &&& ~~~p.2.2 else m) h.lanes }
  let new := if lat ≤ 8 then [] else e.vw.map fun (p : Nat × Row × Word) => Hazard.mk p.1 (g.vreg p.1) p.2.2 lat
  ((kept ++ new).map fun h => { h with left := h.left - (8 + 4 * stall) }).filter fun h => h.left > 0 && h.lanes != 0

/-- Give up the row of a name (R160). -/
def Group.freeRow (g : Group) (v : Nat) : Group :=
  { g with rows := g.rows.del v, spilled := g.spilled.filter (· != v) }

/-- The region entry of a clause: its address for the active lanes (R186). -/
def Group.noteRegion (c : Clause) (g : Group) : Group :=
  { g with rev := rowOf fun l => if inMask c.active l then c.addr else lane g.rev l, region := true }

/-- The first instruction of a clause with RGN issues: the region entry is recorded and, under a full active set, pending
frees are performed but those of names that it writes (R57, R185, R186). -/
def Group.enterRegion (c : Clause) (vw : List Nat) (g : Group) : Group :=
  if c.pos = 0 ∧ c.header.getLsbD 15 then
    if c.active = g.alive then
      (g.pendFree.filter fun v => ! vw.contains v).foldl Group.freeRow { g.noteRegion c with pendFree := [] }
    else g.noteRegion c
  else g

/-- Free a marked source: at once outside a region, pending inside one (R160, R186). -/
def Group.markFree (g : Group) (v : Nat) : Group :=
  if g.region then { g with pendFree := insertNat v g.pendFree } else g.freeRow v

/-- Free the marked sources, never under a partial active set and never a name that is written (R160, R186). -/
def Group.freeMarked (lu vw : List Nat) (act : Word) (g : Group) : Group :=
  if act = g.alive then
    (lu.eraseDups.filter fun v => ! vw.contains v && (g.rows.find v).isSome).foldl Group.markFree g
  else g

/-! ## The lathe (R57, R169, R182) -/

/-- The READY groups of a group's lathe but itself. -/
def State.readyBeside (s : State) (gid : Nat) : List Nat :=
  (s.groups.filter fun p => p.1 != gid && coreOf p.1 == coreOf gid && p.1 % 32 == gid % 32 && p.2.st == .ready).map (·.1)

/-- A group has issued: it leaves the lists of those that yielded to it, and its own age restarts. -/
def State.issued (s : State) (gid : Nat) : State :=
  { s with groups := s.groups.map fun (p : Nat × Group) =>
      if p.1 = gid then (p.1, { p.2 with age := s.tick, wait := none, st := .ready, granted := false, wanted := 0, again := false })
      else (p.1, { p.2 with after := p.2.after.filter (· != gid) }) }

/-! ## Ends of instructions and clauses -/

/-- The end of an instruction that set its group's control state itself: the others' lists and its hazards. -/
def State.ownEnd (s : State) (gid : Nat) : State :=
  { s with groups := s.groups.map fun (p : Nat × Group) =>
      if p.1 = gid then (p.1, { p.2 with hazards := nextHazards p.2 {} 8 0 })
      else (p.1, { p.2 with after := p.2.after.filter (· != gid) }) }

/-- A clause ends: the active lanes go on at the next clause unless the instruction sent them elsewhere; YLD and SSTEP
act; a group whose last lane has exited enters RETIRING (R57, R99, R155, R173). -/
def State.endClause (s : State) (gid : Nat) (c : Clause) (pcv : Option Row) : State :=
  let beside := s.readyBeside gid
  s.modGroup gid fun g =>
    let g := { g with
      clause := none
      pcv := pcv.getD (rowOf fun l => if inMask c.active l then c.next else lane g.pcv l)
      after := if c.header.getLsbD 14 then beside else g.after
      stepDue := cfgSstep g.ctxcfg && ! g.hmode
      tmask := if cfgSstep g.ctxcfg && ! g.hmode then c.active else g.tmask }
    g.retireIfDone

/-- The instruction at the group's position occupies `n` words: go on behind it, or end the clause. -/
def State.advance (s : State) (gid : Nat) (c : Clause) (n : Nat) (pcv : Option Row) : State :=
  if pcv.isSome || decide (c.pos + n ≥ c.words.length) then s.endClause gid c pcv
  else s.modGroup gid fun g => { g with clause := some { c with pos := c.pos + n } }

/-- Make a group wait (R155). A wait of the same kind keeps its beginning and its place. -/
def State.waitFor (s : State) (gid : Nat) (k : WaitKind) (lim phase : Nat) : State :=
  let (n, s) := s.gensym
  s.modGroup gid fun g =>
    { g with st := .waiting
             age := s.tick
             wait := match g.wait with
               | some w => if w.kind = k then some { w with lim := lim, phase := phase } else some ⟨k, s.time, n, lim, phase⟩
               | none => some ⟨k, s.time, n, lim, phase⟩ }

/-- Enter WAIT_ALLOC to reload the names that were spilled (R155, R159). -/
def State.enterReload (s : State) (gid : Nat) : State :=
  let s := s.modGroup gid fun g => { g with st := .waitAlloc }
  s.modCore (coreOf gid) fun c =>
    { c with allocWait := if c.allocWait.any fun w => w.1 == gid then c.allocWait else c.allocWait ++ [(gid, s.time)] }

/-- Enter WAIT_ALLOC (R158). -/
def State.enterAlloc (s : State) (gid k : Nat) : State :=
  let s := s.modGroup gid fun g => { g with st := .waitAlloc, wanted := k }
  s.modCore (coreOf gid) fun c =>
    { c with allocWait := if c.allocWait.any fun w => w.1 == gid then c.allocWait else c.allocWait ++ [(gid, s.time)] }

/-- A SIGWAIT whose register other operations also write delivers the value kept for it and not the signal's (R79). -/
def OpAct.divert (taken : Nat → Bool) (a : OpAct) : OpAct :=
  match a with
  | .sigwait va c cond dreg => if taken dreg then .sigwait va c cond 128 else a
  | a => a

/-- A row of unspecified values (R79). -/
def freeRow (tick reg : Nat) : Row := rowOf fun l => Config.freeWord tick (8192 + 32 * reg + l)

/-- Results to a register that a pending operation also writes: its final value is unspecified (R79). -/
def Op.clobber (tick : Nat) (e : Eff) (o : Op) : Op :=
  { o with
    act := o.act.divert fun d => e.sw.any fun q => q.1 == d
    vres := o.vres.map fun (p : Nat × Row × Word) =>
      match e.vw.find? fun q => q.1 == p.1 with
      | some q => (p.1, freeRow tick p.1, p.2.2 ||| q.2.2)
      | none => p
    sres := o.sres.map fun (p : Nat × DWord) =>
      if e.sw.any fun q => q.1 == p.1 then
        (p.1, Config.freeWord tick (16384 + 2 * p.1) ++ Config.freeWord tick (16385 + 2 * p.1)) else p }

/-- The results of a counted operation whose registers other operations have pending (R79). -/
def Eff.clobbered (tick : Nat) (ops : List Op) (e : Eff) : Eff :=
  { vw := e.vw.map fun (p : Nat × Row × Word) =>
      if ops.any fun o => o.vres.any fun q => q.1 == p.1 then (p.1, freeRow tick p.1, p.2.2) else p
    sw := e.sw.map fun (p : Nat × DWord) =>
      if ops.any fun o => o.sres.any fun q => q.1 == p.1 then
        (p.1, Config.freeWord tick (16384 + 2 * p.1) ++ Config.freeWord tick (16385 + 2 * p.1)) else p }

/-- A group with an incomplete counted operation, number `n`; a register that another operation is still to write gets a
value that the manual leaves open (R79, R168). -/
def Group.withOp (tick n : Nat) (sh : Shape) (e : Eff) (a : OpAct) (clause : Word) (g : Group) : Group :=
  let e := e.clobbered tick g.ops
  { (g.allocate (e.vw.map (·.1))) with
    dcs := g.dcs.put sh.dc (g.dc sh.dc + 1)
    ops := g.ops ++ [⟨n, sh.dc, sh.opc, sh.sz, e.vw, e.sw,
      a.divert fun d => g.ops.any fun o => o.sres.any fun q => q.1 == d, clause⟩] }

/-- Record an incomplete counted operation. -/
def State.addOp (s : State) (gid : Nat) (sh : Shape) (e : Eff) (a : OpAct) (clause : Word) : State :=
  s.gensym.2.modGroup gid (Group.withOp s.tick s.gensym.1 sh e a clause)

/-- The issuing group at the entry of a region; what the instruction itself wrote to REV stays (R57, R165). -/
def Group.atRegion (sh : Shape) (c : Clause) (g : Group) : Group :=
  if sh.setsRev then { g.enterRegion c sh.vw with rev := g.rev } else g.enterRegion c sh.vw

/-- The issuing group before its results are written: the region entry, the results not due yet, and pending results to
registers that it writes (R57, R78, R79, R186). -/
def Group.issuing (tick : Nat) (sh : Shape) (c : Clause) (e : Eff) (g : Group) : Group :=
  let g := g.atRegion sh c
  let g := { g with hazards := nextHazards g (if sh.dc = 6 then e else {}) sh.lat sh.stall }
  { g with ops := g.ops.map (Op.clobber tick e) }

/-- The issuing group after its results: names it read are awake, marked sources are freed, the stall interval begins
(R157, R160, R170). -/
def Group.settled (sh : Shape) (c : Clause) (g : Group) : Group :=
  { Group.freeMarked sh.lu sh.vw c.active { g with drowsy := g.drowsy.filter fun v => ! sh.vr.contains v } with
    stall := sh.stall }

/-- The rows that a group holds of the pool: those beyond RMIN (R158). -/
def State.poolRows (s : State) (gid : Nat) : Nat := ((s.groups.find gid).map fun g => g.held - s.rminOf g).getD 0

/-- The results that a body leaves, applied at once or under a counter, with the frees, the hazards and the ages. -/
def State.finish (s : State) (gid : Nat) (i : Instr) (sh : Shape) (c : Clause) (e : Eff) (a : OpAct) (pcv : Option Row) :
    State :=
  let held := s.poolRows gid
  let s := (s.issued gid).modGroup gid (Group.issuing s.tick sh c e)
  let s := if sh.dc = 6 then s.modGroup gid (Group.apply e)
    else s.addOp gid sh e a c.addr
  let s := s.modGroup gid (Group.settled sh c)
  let s := if s.poolRows gid < held then s.modCore (coreOf gid) fun k => { k with freedAt := s.time } else s
  s.advance gid c (encode i).length pcv

/-- A trap at the instruction itself: the active lanes resume at its word (R90, R91). -/
def trapHere (s : State) (gid : Nat) (c : Clause) (k : Cause) : State := takeTrap s gid k c.active c.addr (c.pos + 1)

/-- A trap that resumes at the next instruction, or at the next clause beyond the last word (R90). -/
def trapAfter (s : State) (gid : Nat) (c : Clause) (n : Nat) (k : Cause) : State :=
  if c.pos + n ≥ c.words.length then takeTrap s gid k c.active c.next 0
  else takeTrap s gid k c.active c.addr (c.pos + n + 1)

/-! ## REDUNDANT launches (R119) -/

/-- The leader of a shadow and the shadow of a leader sit on one core: group g and 64 + ((g + 16) mod 64). -/
def twinOf (gid : Nat) : Nat :=
  let slot := slotOf gid
  if slot < 64 then coreOf gid * 128 + 64 + (slot + 16) % 64 else coreOf gid * 128 + (slot - 64 + 48) % 64

/-- What a held operation is compared by: its words, the active lanes and what it reads of its registers. -/
def opKey (i : Instr) (sh : Shape) (g : Group) (act : Word) : List Word :=
  encode i ++ [act] ++ (sh.vr.flatMap fun v => lanesOf (sh.lanes v g act) |>.map fun l => lane (g.vreg v) l)
    ++ sh.sr.flatMap fun n => [(g.sreg n).setWidth 32, ((g.sreg n) >>> 32).setWidth 32]

/-- The results that a leader keeps for its shadow: a SIGWAIT under a counter has none yet (R119, R345). -/
def Eff.kept (a : OpAct) (e : Eff) : OutVals :=
  ⟨e.vw, e.sw, match a with
    | .sigwait _ _ _ _ => true
    | _ => false⟩

/-- Add to the queue of a leader. -/
def State.keepFor (s : State) (gid : Nat) (v : OutVals) : State := s.modGroup gid fun g => { g with shq := g.shq ++ [v] }

/-- The first entry of a leader's queue, taken by its shadow. -/
def State.takeFrom (s : State) (twin : Nat) (r : List OutVals) : State := s.modGroup twin fun g => { g with shq := r }

/-- The step of a group in a REDUNDANT launch: a shadow takes values from its leader's queue and is compared where an
operation leaves the group; the leader holds such an operation until its shadow has produced the same. Phase 2 of the
shadow's wait stands at an operation that its leader did not produce. A shadow whose operation was matched and performed
(`matched`) takes its result; a SIGWAIT of a shadow ends when its leader's does. -/
def redundant (s : State) (env : Env) (i : Instr) (sh : Shape) (body : Env → State → Res) : Res :=
  let twin := twinOf env.gid
  let key := opKey i sh env.g env.act
  match s.groups.find twin with
  | none => body env s
  | some tg =>
    if env.g.shadow then
      match sh.out with
      | .no => body env s
      | .input =>
        match tg.shq with
        | [] => .wait .shadow 0 (if tg.st = .retiring then 2 else 0) s
        | ⟨v, x, false⟩ :: r => .done { vw := v, sw := x } (s.takeFrom twin r)
        | ⟨_, _, true⟩ :: r =>
          match body env s with
          | .later e a s => .later e a (s.takeFrom twin r)
          | x => x
      | o =>
        if env.g.matched then
          match tg.shq with
          | [] => .wait .shadow 0 1 s
          | v :: r =>
            .done { vw := v.vw, sw := v.sw } ((s.takeFrom twin r).modGroup env.gid fun g => { g with matched := false })
        else if tg.heldOp == some key && ! tg.matched then
          let s := s.modGroup twin fun g => { g with matched := true }
          if o == .output then .done {} s else .wait .shadow 0 1 s
        else if tg.heldOp == some key && o == .both then .wait .shadow 0 1 s
        else .wait .shadow 0 (if (tg.heldOp.isSome && ! tg.matched) || tg.st == .retiring then 2 else 0) s
    else
      match sh.out with
      | .no => body env s
      | .input =>
        if env.g.shq.length ≥ 64 then .wait .shadow 0 0 s
        else
          match body env s with
          | .done e s => .done e (s.keepFor env.gid (e.kept .none))
          | .later e a s => .later e a (s.keepFor env.gid (e.kept a))
          | r => r
      | o =>
        if env.g.heldOp.isNone then
          .wait .shadow 0 0 (s.modGroup env.gid fun g => { g with heldOp := some key, matched := false, heldAt := s.time })
        else if ! env.g.matched then .wait .shadow 0 0 s
        else
          let release := fun (s : State) (e : Eff) =>
            let s := s.modGroup env.gid fun g => { g with heldOp := none, matched := false }
            if o == .both then (s.keepFor env.gid (e.kept .none)).modGroup twin fun g => { g with matched := true } else s
          match body env s with
          | .done e s => .done e (release s e)
          | .later e a s => .later e a (release s e)
          | r => r

/-! ## Issue -/

/-- How an issued instruction ends, from what its body answered. -/
def conclude (gid : Nat) (i : Instr) (sh : Shape) (c : Clause) (r : Res) : State :=
  match r with
  | .done e s => s.finish gid i sh c e .none none
  | .later e a s => s.finish gid i sh c e a none
  | .jump p e s => s.finish gid i sh c e .none (some p)
  | .trap k s => trapHere s gid c k
  | .trapNext k s => trapAfter (s.modGroup gid (Group.enterRegion c [])) gid c (encode i).length k
  | .wait k lim ph s => s.waitFor gid k lim ph
  | .own s => (s.modGroup gid (Group.enterRegion c [])).ownEnd gid

/-- An instruction whose waits and rows allow it to issue: its body runs, and it ends; while it waits, the rows that it
needs stay granted. A group whose names were spilled reloads them first when its wait ends (R155, R158, R159). -/
def runBody (i : Instr) (sh : Shape) (body : Env → State → Res) (env : Env) (spilled : List Nat) (need : Nat) (s : State) :
    State :=
  let r := if env.launch.redundant then redundant s env i sh body else body env s
  match r with
  | .wait k lim ph s =>
    (s.waitFor env.gid k lim ph).modGroup env.gid fun g => { g with wanted := need, granted := decide (need > 0) }
  | r => if spilled ≠ [] then s.enterReload env.gid else conclude env.gid i sh env.c r

/-- Issue for a group with its clause, team and launch: the checks in the order of their priority (R74, R80, R158,
R168), then the body. -/
def issueIn (i : Instr) (sh : Shape) (body : Env → State → Res) (gid : Nat) (g : Group) (c : Clause) (t : Team)
    (l : Launch) (s : State) : State :=
  match i.defect (cfgPriv g.ctxcfg) with
  | some code => takeTrap s gid { code := code, sub := 0, imm := 0, lanes := c.active } c.active c.addr 0
  | none =>
    if g.spilled ≠ [] ∧ g.wait = none then s.enterReload gid
    else
      let need := (g.newNames sh.vw).length
      let rows := s.askRows gid g need
      if rows = .budget then trapHere s gid c { code := 0x05, sub := 0, imm := 0, lanes := c.active }
      else if cfgSbchk g.ctxcfg && g.tooEarly sh c.active then
        trapHere s gid c { code := 0x06, sub := 0, imm := 0, lanes := c.active }
      else match rows with
      | .wait k => s.enterAlloc gid k
      | _ =>
        if sh.dc < 6 ∧ g.dc sh.dc ≥ 63 then s.waitFor gid .dcFull 0 0
        else runBody i sh body ⟨gid, g.view s.tick, c, t, l⟩ g.spilled need s

/-- Issue an instruction of the current group. -/
def issue (i : Instr) (sh : Shape) (body : Env → State → Res) (s : State) : Host.Outcome State Fault Refusal :=
  match s.cur with
  | none => .fault .noIssuingGroup
  | some gid =>
    match s.groups.find gid with
    | none => .fault .noIssuingGroup
    | some g =>
      match g.clause, s.teams.find g.team with
      | some c, some t =>
        match s.launches.find t.launch with
        | none => .fault .noIssuingGroup
        | some l => .next (issueIn i sh body gid g c t l s)
      | _, _ => .fault .noIssuingGroup

end Sys2Proof.Machine
end

