-- ==== Sys2Proof/Machine/Operands.lean ====
section
/-! DEFINITION. Operand forms: vector registers and pairs, operand codes, literals and how they widen, scalars, and the
registers that a format's fields name (R28, R60 to R64, R188, R218). -/

namespace Sys2Proof.Machine

open Sys2Proof

/-- How a literal becomes a 64-bit operand (R63). -/
inductive Wide where
  | int | fp64 | twin
  deriving DecidableEq, Repr

/-- An fp32 bit pattern widened exactly to fp64, NaN payloads with it (R63). -/
def widen32 (b : Nat) : Nat :=
  match fp32.read b with
  | .nan _ => fp64.infBits (bit b 31) + b % 2 ^ 23 * 2 ^ 29
  | v => (fp64.convert rne false v).1

/-- A literal as a 64-bit operand (R63). -/
def Wide.lit (w : Wide) (x : Word) : DWord :=
  match w with
  | .int => x.signExtend 64
  | .fp64 => BitVec.ofNat 64 (widen32 x.toNat)
  | .twin => x ++ x

/-- A 64-bit value of a register pair in a lane (R28). -/
def Group.pair (g : Group) (v l : Nat) : DWord := lane (g.vreg (v + 1)) l ++ lane (g.vreg v) l

/-- A vector register in a lane. -/
def Group.v32 (g : Group) (v l : Nat) : Word := lane (g.vreg v) l

/-- Operand code B, read at 32 bits in a lane (R61, R188). -/
def Group.code32 (g : Group) (b : Nat) (lit : Option Word) (l : Nat) : Word :=
  if b < 64 then g.v32 b l
  else if b = 127 then lit.getD 0
  else (g.sreg (b - 64)).setWidth 32

/-- Operand code B, read at 64 bits in a lane (R61, R63, R188). -/
def Group.code64 (g : Group) (w : Wide) (b : Nat) (lit : Option Word) (l : Nat) : DWord :=
  if b < 64 then g.pair b l
  else if b = 127 then w.lit (lit.getD 0)
  else g.sreg (b - 64)

/-- The vector registers that an operand code names, as one register or a pair. -/
def codeV (wide : Bool) (b : Nat) : List Nat := if b < 64 then (if wide then [b, b + 1] else [b]) else []

/-- The scalar register that an operand code names. -/
def codeS (b : Nat) : List Nat := if 64 ≤ b ∧ b < 127 then [b - 64] else []

/-- A register or a pair. -/
def regs (wide : Bool) (v : Nat) : List Nat := if wide then [v, v + 1] else [v]

/-- Which operands an instruction of format VR or VX has: a first source, the destination as a third source, and which of
destination, first and second source are pairs. -/
structure Form where
  two : Bool := true
  three : Bool := false
  wd : Bool := false
  wa : Bool := false
  wb : Bool := false
  lat : Nat := 8
  deriving DecidableEq, Repr

/-- The shape of an instruction of format VR or VX (R60, R61, R77). -/
def Form.shape (m : Form) (f : VR) : Shape :=
  let d := f.d.toNat
  let a := f.a.toNat
  let b := f.b.toNat
  { vr := (if m.two then regs m.wa a else []) ++ codeV m.wb b ++ (if m.three then regs m.wd d else [])
    vw := regs m.wd d, sr := codeS b
    lu := (if f.la && m.two then regs m.wa a else []) ++ (if f.lb then codeV m.wb b else [])
    lat := m.lat, stall := f.stall.toNat }

/-- The first scalar source of format SR. -/
def srA (f : SR) (g : Group) : DWord := g.sreg f.a.toNat

/-- The second scalar source of format SR: s0 to s126 or the sign-extended literal (R63, R218). -/
def srB (f : SR) (g : Group) : DWord :=
  if f.b.toNat = 127 then (f.lit.getD 0).signExtend 64 else g.sreg f.b.toNat

/-- The scalar registers that the second source names. -/
def srBRegs (f : SR) : List Nat := if f.b.toNat = 127 then [] else [f.b.toNat]

/-- An operand code of shape CXR as a 64-bit uniform value: a scalar or the sign-extended literal; a vector register gives
zero here and is read by lane where an entry allows one (R61, R67). -/
def Group.code (g : Group) (p : Nat) (lit : Option Word) : DWord :=
  if p = 127 then (lit.getD 0).signExtend 64 else if 64 ≤ p then g.sreg (p - 64) else 0

end Sys2Proof.Machine
end

