-- ==== Sys2Proof/Machine/Flags.lean ====
section
/-! DEFINITION. What an instruction leaves besides its value: comparison masks (R197), and floating-point exceptions and
the FPX trap (R35, R190); the shared bodies of lane-wise instructions. -/

namespace Sys2Proof.Machine

open Sys2Proof

/-- The mask of a 32-bit comparison (R197). -/
def mask32 (b : Bool) : Word := if b then 0xFFFFFFFF else 0

/-- The mask of a 64-bit comparison (R218). -/
def mask64 (b : Bool) : DWord := if b then 0xFFFFFFFFFFFFFFFF else 0

/-- The exceptions of two elements of one lane together. -/
def orEx (a b : Nat) : Nat := a ||| b

/-- The lanes of a mask whose exceptions `ex` has an enabled one (R190). -/
def raised (en : Nat) (act : Word) (ex : Nat → Nat) : Word :=
  maskOf fun l => inMask act l && decide (ex l &&& en ≠ 0)

/-- The FPX cause of an instruction, if an enabled exception was raised in an active lane (R35, R190). -/
def fpxCause (en : Nat) (act : Word) (ex : Nat → Nat) : Option Cause :=
  let lanes := raised en act ex
  if lanes = 0 then none
  else some { code := 0x20, sub := (lanesOf lanes).foldl (fun n l => n ||| (ex l &&& en)) 0, imm := 0, lanes := lanes }

/-- The results of a lane-wise instruction: a register, or a pair, written in the active lanes (R189). -/
def vectorEff (d : Nat) (wide : Bool) (act : Word) (res : Nat → DWord) : Eff :=
  if wide then
    { vw := [(d, rowOf fun l => (res l).setWidth 32, act), (d + 1, rowOf fun l => ((res l) >>> 32).setWidth 32, act)] }
  else { vw := [(d, rowOf fun l => (res l).setWidth 32, act)] }

/-- The body of a lane-wise instruction: `fn` gives a lane's result and its exceptions (R189, R190). -/
def vectorBody (d : Nat) (wide : Bool) (fn : Group → Nat → DWord × Nat) (e : Env) (s : State) : Res :=
  let out := (List.range 32).map fun l => if e.on l then fn e.g l else (0, 0)
  match fpxCause (cfgFpt e.g.ctxcfg) e.act fun l => (out.getD l (0, 0)).2 with
  | some c => .trap c s
  | none => .done (vectorEff d wide e.act fun l => (out.getD l (0, 0)).1) s

/-- A lane-wise instruction on 32-bit operands with exceptions: `fn` takes the lane, the dither phase, a, b and the old
destination d. -/
def floatLane (f : VR) (fn : Nat → Nat → Nat → Nat → Nat → Nat × Nat) (g : Group) (l : Nat) : DWord × Nat :=
  let r := fn l g.dphase (g.v32 f.a.toNat l).toNat (g.code32 f.b.toNat f.lit l).toNat (g.v32 f.d.toNat l).toNat
  (BitVec.ofNat 64 r.1, r.2)

/-- A lane-wise instruction on 32-bit operands without exceptions. -/
def intLane (f : VR) (fn : Word → Word → Word → Word) (g : Group) (l : Nat) : DWord × Nat :=
  ((fn (g.v32 f.a.toNat l) (g.code32 f.b.toNat f.lit l) (g.v32 f.d.toNat l)).setWidth 64, 0)

/-- Issue an integer instruction of two sources. -/
def int2 (i : Instr) (f : VR) (fn : Word → Word → Word) (s : State) : Host.Outcome State Fault Refusal :=
  issue i (({} : Form).shape f) (vectorBody f.d.toNat false (intLane f fun a b _ => fn a b)) s

/-- Issue an integer instruction of one source. -/
def int1 (i : Instr) (f : VR) (fn : Word → Word) (s : State) : Host.Outcome State Fault Refusal :=
  issue i (({ two := false } : Form).shape f) (vectorBody f.d.toNat false (intLane f fun _ b _ => fn b)) s

/-- Issue an integer instruction that also reads its destination. -/
def int3 (i : Instr) (f : VR) (fn : Word → Word → Word → Word) (s : State) : Host.Outcome State Fault Refusal :=
  issue i (({ three := true } : Form).shape f) (vectorBody f.d.toNat false (intLane f fn)) s

/-- How a VX instruction rounds in a lane (R33, R36). -/
def rndOf (f : VX) (l phase : Nat) : Rnd := ⟨f.rm.toNat, dither l phase⟩

/-- Issue an fp32 instruction of two sources that does not round. -/
def flt2 (i : Instr) (f : VR) (fn : Nat → Nat → Nat × Nat) (s : State) : Host.Outcome State Fault Refusal :=
  issue i (({} : Form).shape f) (vectorBody f.d.toNat false (floatLane f fun _ _ a b _ => fn a b)) s

/-- Issue an fp32 instruction of one source of latency class C (R205) or A. -/
def flt1 (i : Instr) (f : VR) (lat : Nat) (fn : Nat → Nat × Nat) (s : State) : Host.Outcome State Fault Refusal :=
  issue i (({ two := false, lat := lat } : Form).shape f)
    (vectorBody f.d.toNat false (floatLane f fun _ _ _ b _ => fn b)) s

end Sys2Proof.Machine
end

