-- ==== Sys2Proof/Machine/Residue.lean ====
section
/-! DEFINITION. Residues: profiles as a tower runs them, residue elements, reconstruction and correction (R44 to R52, R392
to R396, R404). -/

namespace Sys2Proof.Machine

open Sys2Proof

/-- A profile as run on a tower: moduli and dies of the used channels in channel order, the number of information
channels, whether it is degraded, and W (R44, R49, R404). -/
structure Run where
  mods : List Nat
  dies : List Nat
  ninfo : Nat
  degr : Bool
  w : Nat
  deriving DecidableEq, Repr

/-- The form that a descriptor states (R49). -/
def descRun (d : BitVec 128) : Run :=
  let v := d.toNat
  let n := bits v 66 64
  { mods := (List.range (n + 2)).map fun c => bits v (8 * c + 7) (8 * c) + 1
    dies := (List.range (n + 2)).map fun c => bits v (82 + 3 * c) (80 + 3 * c)
    ninfo := n, degr := false, w := bits v 77 72 }

/-- A list without its element `n`. -/
def dropNth {α : Type} (l : List α) (n : Nat) : List α := l.take n ++ l.drop (n + 1)

/-- The information channel with the smallest modulus (R404). -/
def Run.smallest (r : Run) : Nat := (minBy (fun c => r.mods.getD c 0) (List.range r.ninfo)).getD 0

/-- A profile after the loss of a die: unchanged, remapped to the lowest live die it leaves free, or degraded (R404). -/
def Run.lose (lost : List Nat) (r : Run) (die : Nat) : Run :=
  match r.dies.findIdx? (· == die) with
  | none => r
  | some c =>
    match (List.range 8).find? fun d => ! lost.contains d && ! r.dies.contains d with
    | some d => { r with dies := listSet r.dies c d }
    | none =>
      if c < r.ninfo then { r with mods := dropNth r.mods c, dies := dropNth r.dies c, ninfo := r.ninfo - 1, degr := true }
      else
        let k := r.smallest
        { r with mods := dropNth r.mods k, dies := dropNth (listSet r.dies c (r.dies.getD k 0)) k,
                 ninfo := r.ninfo - 1, degr := true }

/-- The dies of a tower that no longer compute: mapped out, or past RETIRING (R19, R406). -/
def State.lostDies (s : State) (t : Nat) : List Nat :=
  (List.range 8).filter fun d =>
    s.dev.mapped.contains ⟨.channelDie, 8 * t + d⟩
      || (match (s.tower t).dies.find d with
          | some .rebuild | some .retired => true
          | _ => false)

/-- The profile as run on a tower (R217, R404). -/
def State.runOf (s : State) (prof t : Nat) : Run :=
  let lost := s.lostDies t
  lost.foldl (Run.lose lost) (descRun (s.dev.profiles.findD prof 0))

/-- The profile as run of a context on a tower. -/
def State.ctxRun (s : State) (ctx t : Nat) : Run := s.runOf (s.ctx ctx).profile t

/-- The modulus of channel `c`, if it is used. -/
def Run.mod (r : Run) (c : Nat) : Option Nat := r.mods[c]?

/-- M, and the largest value H of the legitimate range (R44, R48). -/
def Run.big (r : Run) : Nat := (r.mods.take r.ninfo).foldl (· * ·) 1
def Run.top (r : Run) : Nat := (r.big - 1) / 2

/-- The PROFILE register (R38). -/
def profileWord (prof : Nat) (r : Run) (dphase : Nat) : DWord :=
  BitVec.ofNat 64 (prof + (if r.degr then 8 else 0) + dphase * 2 ^ 8 + r.ninfo * 2 ^ 16)

/-- Byte `c` of an RE8 element. -/
def re8Byte (x : DWord) (c : Nat) : Nat := bits x.toNat (8 * c + 7) (8 * c)

/-- The RE8 element of an integer (R45). -/
def Run.re8 (r : Run) (x : Int) : DWord :=
  BitVec.ofNat 64 (sumBy (fun c => match r.mod c with
    | some m => (x % (m : Int)).toNat * 2 ^ (8 * c)
    | none => 0) (List.range 8))

/-- The least number with the given residues, and the product of the moduli (R394, R395). -/
def crt : List (Nat × Nat) → Nat × Nat
  | [] => (0, 1)
  | (x, m) :: t =>
    let (y, p) := crt t
    let k := ((List.range m).find? fun k => (y + p * k) % m == x % m).getD 0
    (y + p * k, p * m)

/-- The value in the legitimate range that a number below M stands for (R48). -/
def Run.fold (r : Run) (x : Nat) : Int := if x > r.top then (x : Int) - r.big else x

/-- X of R48, from the information channels of an RE8 element. -/
def Run.value (r : Run) (e : DWord) : Int :=
  r.fold (crt ((List.range r.ninfo).map fun c => (re8Byte e c, r.mods.getD c 1))).1

/-- How the RCU ends with an element (R394 to R396): its value, corrected on a channel or not, or none. -/
inductive Rcu where
  | clean (x : Int)
  | corrected (x : Int) (chan : Nat)
  | nocand (chan : Nat)
  | multi (chan : Nat)
  deriving DecidableEq, Repr

/-- Whether a byte is not below its channel's modulus (R396). -/
def Run.wild (r : Run) (x : DWord) (c : Nat) : Bool := decide (re8Byte x c ≥ r.mods.getD c 1)

/-- The value that excludes channel `e`, if it lies in the legitimate range; no value has a residue that is not below its
modulus (R395). -/
def Run.without (r : Run) (x : DWord) (e : Nat) : Option Int :=
  if ((List.range r.mods.length).any fun c => c != e && r.wild x c) then none
  else
  let (y, p) := crt (((List.range r.mods.length).filter (· != e)).map fun c => (re8Byte x c, r.mods.getD c 1))
  if y ≤ r.top then some y
  else if p - r.big / 2 ≤ y then some ((y : Int) - p)
  else none

/-- Reconstruction, checking and correction of an element (R394 to R396). -/
def Run.rcu (r : Run) (x : DWord) : Rcu :=
  let used := List.range r.mods.length
  let wild := used.filter (r.wild x)
  let v := r.value x
  let off := (used.drop r.ninfo).filter fun c => (v % (r.mods.getD c 1 : Int)).toNat != re8Byte x c
  if wild = [] ∧ off = [] then .clean v
  else
    -- the lowest channel whose check or byte failed (R402)
    let first := (minBy id (wild ++ off)).getD 0
    let cands := used.filterMap fun e => (r.without x e).map fun v => (e, v)
    match cands with
    | [] => .nocand first
    | [(e, v)] => if wild.all (· == e) then .corrected v e else .nocand first
    | _ => if wild = [] then .multi first else .nocand first

end Sys2Proof.Machine
end

