-- ==== Sys2Proof/Machine/Arith.lean ====
section
/-! DEFINITION. The vector instructions VA 0x00 to 0x3F (R188 to R217). -/

namespace Sys2Proof.Machine

open Sys2Proof

/-! ## Integer arithmetic and logic (R192, R193) -/

/-- IADD (R192). -/
def execIadd (f : VR) (s : State) : Host.Outcome State Fault Refusal :=
  int2 (.iadd f) f (fun a b => a + b) s

/-- ISUB (R192). -/
def execIsub (f : VR) (s : State) : Host.Outcome State Fault Refusal :=
  int2 (.isub f) f (fun a b => a - b) s

/-- IMUL (R192). -/
def execImul (f : VR) (s : State) : Host.Outcome State Fault Refusal :=
  int2 (.imul f) f (fun a b => a * b) s

/-- IMULH.i: the high word of the signed product (R192). -/
def execImulhI (f : VR) (s : State) : Host.Outcome State Fault Refusal :=
  int2 (.imulhI f) f (fun a b => ((a.signExtend 64 * b.signExtend 64) >>> 32).setWidth 32) s

/-- IMULH.n: the high word of the unsigned product (R192). -/
def execImulhN (f : VR) (s : State) : Host.Outcome State Fault Refusal :=
  int2 (.imulhN f) f (fun a b => ((a.setWidth 64 * b.setWidth 64) >>> 32).setWidth 32) s

/-- IMAD (R192). -/
def execImad (f : VR) (s : State) : Host.Outcome State Fault Refusal :=
  int3 (.imad f) f (fun a b d => a * b + d) s

/-- IMIN.i (R193). -/
def execIminI (f : VR) (s : State) : Host.Outcome State Fault Refusal :=
  int2 (.iminI f) f (fun a b => if a.slt b then a else b) s

/-- IMIN.n (R193). -/
def execIminN (f : VR) (s : State) : Host.Outcome State Fault Refusal :=
  int2 (.iminN f) f (fun a b => if a.ult b then a else b) s

/-- IMAX.i (R193). -/
def execImaxI (f : VR) (s : State) : Host.Outcome State Fault Refusal :=
  int2 (.imaxI f) f (fun a b => if a.slt b then b else a) s

/-- IMAX.n (R193). -/
def execImaxN (f : VR) (s : State) : Host.Outcome State Fault Refusal :=
  int2 (.imaxN f) f (fun a b => if a.ult b then b else a) s

/-- IABS: −2^31 stays (R193). -/
def execIabs (f : VR) (s : State) : Host.Outcome State Fault Refusal :=
  int1 (.iabs f) f (fun b => if b.slt 0 then -b else b) s

/-- INEG (R193). -/
def execIneg (f : VR) (s : State) : Host.Outcome State Fault Refusal :=
  int1 (.ineg f) f (fun b => -b) s

/-- AND (R193). -/
def execVand (f : VR) (s : State) : Host.Outcome State Fault Refusal :=
  int2 (.vand f) f (fun a b => a &&& b) s

/-- OR (R193). -/
def execVor (f : VR) (s : State) : Host.Outcome State Fault Refusal :=
  int2 (.vor f) f (fun a b => a ||| b) s

/-- XOR (R193). -/
def execVxor (f : VR) (s : State) : Host.Outcome State Fault Refusal :=
  int2 (.vxor f) f (fun a b => a ^^^ b) s

/-- ANDN (R193). -/
def execVandn (f : VR) (s : State) : Host.Outcome State Fault Refusal :=
  int2 (.vandn f) f (fun a b => a &&& ~~~b) s

/-! ## Shifts and bit fields (R194 to R196) -/

/-- The shift count b[7:0] (R194). -/
def shiftCount (b : Word) : Nat := b.toNat % 256

/-- Position and width of a bit field: p = b[4:0], w = min(b[13:8], 32 − p) (R195). -/
def fieldPos (b : Word) : Nat := b.toNat % 32
def fieldLen (b : Word) : Nat := min (bits b.toNat 13 8) (32 - fieldPos b)

/-- BFE with and without a sign (R195). -/
def bfe (sign : Bool) (a b : Word) : Word :=
  let w := fieldLen b
  let x := a.toNat / 2 ^ fieldPos b % 2 ^ w
  if w = 0 then 0 else if sign then BitVec.ofInt 32 (signed w x) else BitVec.ofNat 32 x

/-- BFI (R195). -/
def bfi (a b d : Word) : Word :=
  let m : Word := BitVec.ofNat 32 ((2 ^ fieldLen b - 1) * 2 ^ fieldPos b)
  (d &&& ~~~m) ||| ((a <<< fieldPos b) &&& m)

/-- The number of 1 bits of a number of `w` bits (R196, R218). -/
def popCount (w v : Nat) : Nat := sumBy (fun k => if bit v k then 1 else 0) (List.range w)

/-- Leading zeros of a number of `w` bits (R196, R218). -/
def leadZeros (w v : Nat) : Nat := if v = 0 then w else w - 1 - Nat.log2 v

/-- The 32 bits in reverse (R196). -/
def revBits (b : Word) : Word :=
  BitVec.ofNat 32 (sumBy (fun k => if bit b.toNat (31 - k) then 2 ^ k else 0) (List.range 32))

/-- SHL (R194). -/
def execShl (f : VR) (s : State) : Host.Outcome State Fault Refusal :=
  int2 (.shl f) f (fun a b => if shiftCount b < 32 then a <<< shiftCount b else 0) s

/-- SHR (R194). -/
def execShr (f : VR) (s : State) : Host.Outcome State Fault Refusal :=
  int2 (.shr f) f (fun a b => if shiftCount b < 32 then a >>> shiftCount b else 0) s

/-- SAR (R194). -/
def execSar (f : VR) (s : State) : Host.Outcome State Fault Refusal :=
  int2 (.sar f) f (fun a b => if shiftCount b < 32 then a.sshiftRight (shiftCount b) else if a.slt 0 then 0xFFFFFFFF else 0) s

/-- ROL (R194). -/
def execRol (f : VR) (s : State) : Host.Outcome State Fault Refusal :=
  int2 (.rol f) f (fun a b => a.rotateLeft (shiftCount b % 32)) s

/-- BFE.i (R195). -/
def execBfeI (f : VR) (s : State) : Host.Outcome State Fault Refusal :=
  int2 (.bfeI f) f (fun a b => bfe true a b) s

/-- BFE.n (R195). -/
def execBfeN (f : VR) (s : State) : Host.Outcome State Fault Refusal :=
  int2 (.bfeN f) f (fun a b => bfe false a b) s

/-- BFI (R195). -/
def execBfi (f : VR) (s : State) : Host.Outcome State Fault Refusal :=
  int3 (.bfi f) f (fun a b d => bfi a b d) s

/-- POPC (R196). -/
def execPopc (f : VR) (s : State) : Host.Outcome State Fault Refusal :=
  int1 (.popc f) f (fun b => BitVec.ofNat 32 (popCount 32 b.toNat)) s

/-- CLZ (R196). -/
def execClz (f : VR) (s : State) : Host.Outcome State Fault Refusal :=
  int1 (.clz f) f (fun b => BitVec.ofNat 32 (leadZeros 32 b.toNat)) s

/-- BREV (R196). -/
def execBrev (f : VR) (s : State) : Host.Outcome State Fault Refusal :=
  int1 (.brev f) f (fun b => revBits b) s

/-! ## Comparisons and selection (R197, R198) -/

/-- ICEQ (R197). -/
def execIceq (f : VR) (s : State) : Host.Outcome State Fault Refusal :=
  int2 (.iceq f) f (fun a b => mask32 (a == b)) s

/-- ICNE (R197). -/
def execIcne (f : VR) (s : State) : Host.Outcome State Fault Refusal :=
  int2 (.icne f) f (fun a b => mask32 (a != b)) s

/-- ICLT.i (R197). -/
def execIcltI (f : VR) (s : State) : Host.Outcome State Fault Refusal :=
  int2 (.icltI f) f (fun a b => mask32 (a.slt b)) s

/-- ICLT.n (R197). -/
def execIcltN (f : VR) (s : State) : Host.Outcome State Fault Refusal :=
  int2 (.icltN f) f (fun a b => mask32 (a.ult b)) s

/-- ICLE.i (R197). -/
def execIcleI (f : VR) (s : State) : Host.Outcome State Fault Refusal :=
  int2 (.icleI f) f (fun a b => mask32 (a.sle b)) s

/-- ICLE.n (R197). -/
def execIcleN (f : VR) (s : State) : Host.Outcome State Fault Refusal :=
  int2 (.icleN f) f (fun a b => mask32 (a.ule b)) s

/-- SEL: the old destination selects (R198). -/
def execSel (f : VR) (s : State) : Host.Outcome State Fault Refusal :=
  int3 (.sel f) f (fun a b d => if d ≠ 0 then a else b) s

/-- VMOV (R198). -/
def execVmov (f : VR) (s : State) : Host.Outcome State Fault Refusal :=
  int1 (.vmov f) f (fun b => b) s

/-! ## fp32 (R199 to R206) -/

/-- Issue an fp32 instruction of two or three sources that rounds (R199). -/
def fround (i : Instr) (f : VX) (three : Bool) (fn : Rnd → FVal → FVal → FVal → Nat × Nat) (s : State) :
    Host.Outcome State Fault Refusal :=
  issue i (({ three := three } : Form).shape f.v)
    (vectorBody f.v.d.toNat false (floatLane f.v fun l p a b d => fn (rndOf f l p) (fp32.read a) (fp32.read b) (fp32.read d))) s

/-- FADD (R199, R200). -/
def execFadd (f : VX) (s : State) : Host.Outcome State Fault Refusal :=
  fround (.fadd f) f false (fun r a b _ => fp32.addV r a b) s

/-- FSUB (R199, R200). -/
def execFsub (f : VX) (s : State) : Host.Outcome State Fault Refusal :=
  fround (.fsub f) f false (fun r a b _ => fp32.addV r a b.neg) s

/-- FMUL (R199, R200). -/
def execFmul (f : VX) (s : State) : Host.Outcome State Fault Refusal :=
  fround (.fmul f) f false (fun r a b _ => fp32.mulR r a b) s

/-- FFMA: fused (R199, R200). -/
def execFfma (f : VX) (s : State) : Host.Outcome State Fault Refusal :=
  fround (.ffma f) f true (fun r a b d => fp32.fmaR r a b d) s

/-- FMIN (R201). -/
def execFmin (f : VR) (s : State) : Host.Outcome State Fault Refusal :=
  flt2 (.fmin f) f (fun a b => minMax32 false a b) s

/-- FMAX (R201). -/
def execFmax (f : VR) (s : State) : Host.Outcome State Fault Refusal :=
  flt2 (.fmax f) f (fun a b => minMax32 true a b) s

/-- FABS clears bit 31 (R202). -/
def execFabs (f : VR) (s : State) : Host.Outcome State Fault Refusal :=
  int1 (.fabs f) f (fun b => b &&& 0x7FFFFFFF) s

/-- FNEG inverts bit 31 (R202). -/
def execFneg (f : VR) (s : State) : Host.Outcome State Fault Refusal :=
  int1 (.fneg f) f (fun b => b ^^^ 0x80000000) s

/-- A floating-point comparison: `quiet` ones signal invalid on signalling NaNs only (R203). -/
def fcmp (quiet : Bool) (rel : FVal → FVal → Bool) (a b : Nat) : Nat × Nat :=
  let x := fp32.read a
  let y := fp32.read b
  let inv := if quiet then x.isSig || y.isSig else x.isNan || y.isNan
  ((mask32 (rel x y)).toNat, if inv then exInv else 0)

/-- A relation that is false on a NaN (R203). -/
def ordered (rel : Int → Bool) (x y : FVal) : Bool := ! x.isNan && ! y.isNan && rel (cmpV x y)

/-- FCEQ (R203). -/
def execFceq (f : VR) (s : State) : Host.Outcome State Fault Refusal :=
  flt2 (.fceq f) f (fun a b => fcmp true (ordered (· == 0)) a b) s

/-- FCLT (R203). -/
def execFclt (f : VR) (s : State) : Host.Outcome State Fault Refusal :=
  flt2 (.fclt f) f (fun a b => fcmp false (ordered (decide <| · < 0)) a b) s

/-- FCLE (R203). -/
def execFcle (f : VR) (s : State) : Host.Outcome State Fault Refusal :=
  flt2 (.fcle f) f (fun a b => fcmp false (ordered (decide <| · ≤ 0)) a b) s

/-- FCUN (R203). -/
def execFcun (f : VR) (s : State) : Host.Outcome State Fault Refusal :=
  flt2 (.fcun f) f (fun a b => fcmp true (fun x y => x.isNan || y.isNan) a b) s

/-- FRCP (R205). -/
def execFrcp (f : VR) (s : State) : Host.Outcome State Fault Refusal :=
  flt1 (.frcp f) f 24 (fun b => frcp32 b) s

/-- FRSQ (R205). -/
def execFrsq (f : VR) (s : State) : Host.Outcome State Fault Refusal :=
  flt1 (.frsq f) f 24 (fun b => frsq32 b) s

/-- FSQRT (R204). -/
def execFsqrt (f : VX) (s : State) : Host.Outcome State Fault Refusal :=
  issue (.fsqrt f) (({ two := false, lat := 24 } : Form).shape f.v)
    (vectorBody f.v.d.toNat false (floatLane f.v fun l p _ b _ => sqrt32 (rndOf f l p) b)) s

/-- FEXP2 (R205). -/
def execFexp2 (f : VR) (s : State) : Host.Outcome State Fault Refusal :=
  flt1 (.fexp2 f) f 24 (fun b => Machine.fexp2 b) s

/-- FLOG2 (R205). -/
def execFlog2 (f : VR) (s : State) : Host.Outcome State Fault Refusal :=
  flt1 (.flog2 f) f 24 (fun b => Machine.flog2 b) s

/-- FSINP (R205). -/
def execFsinp (f : VR) (s : State) : Host.Outcome State Fault Refusal :=
  flt1 (.fsinp f) f 24 (fun b => fsincos false b) s

/-- FCOSP (R205). -/
def execFcosp (f : VR) (s : State) : Host.Outcome State Fault Refusal :=
  flt1 (.fcosp f) f 24 (fun b => fsincos true b) s

/-- FCLASS (R206). -/
def execFclass (f : VR) (s : State) : Host.Outcome State Fault Refusal :=
  flt1 (.fclass f) f 8 (fun b => (fclass32 b, 0)) s

/-! ## Paired bf16 and fp64 (R207, R208) -/

/-- One bf16 element with SAT: a finite value that overflows to infinity delivers the largest finite one (R207). -/
def satBf16 (sat : Bool) (x : Nat × Nat) : Nat × Nat :=
  if sat && decide (x.2 &&& exOf ≠ 0) then
    (if x.1 = bf16.infBits false then bf16.maxBits false else if x.1 = bf16.infBits true then bf16.maxBits true else x.1, x.2)
  else x

/-- Both elements of a packed operation (R207). -/
def twoBf16 (sat : Bool) (fn : FVal → FVal → FVal → Nat × Nat) (a b d : Nat) : Nat × Nat :=
  let el := fun (k : Nat) =>
    satBf16 sat (fn (bf16.read (a / 2 ^ (16 * k) % 65536)) (bf16.read (b / 2 ^ (16 * k) % 65536))
      (bf16.read (d / 2 ^ (16 * k) % 65536)))
  ((el 0).1 + 65536 * (el 1).1, orEx (el 0).2 (el 1).2)

/-- Issue a paired bf16 instruction (R207). -/
def paired (i : Instr) (f : VX) (three : Bool) (fn : Rnd → FVal → FVal → FVal → Nat × Nat) (s : State) :
    Host.Outcome State Fault Refusal :=
  issue i (({ three := three } : Form).shape f.v)
    (vectorBody f.v.d.toNat false (floatLane f.v fun l p a b d => twoBf16 (f.fl.getLsbD 0) (fn (rndOf f l p)) a b d)) s

/-- BADD2 (R207). -/
def execBadd2 (f : VX) (s : State) : Host.Outcome State Fault Refusal :=
  paired (.badd2 f) f false (fun r a b _ => bf16.addV r a b) s

/-- BMUL2 (R207). -/
def execBmul2 (f : VX) (s : State) : Host.Outcome State Fault Refusal :=
  paired (.bmul2 f) f false (fun r a b _ => bf16.mulR r a b) s

/-- BFMA2 (R207). -/
def execBfma2 (f : VX) (s : State) : Host.Outcome State Fault Refusal :=
  paired (.bfma2 f) f true (fun r a b d => bf16.fmaR r a b d) s

/-- Issue an fp64 instruction on pairs (R208). -/
def double (i : Instr) (f : VX) (three : Bool) (fn : Rnd → FVal → FVal → FVal → Nat × Nat) (s : State) :
    Host.Outcome State Fault Refusal :=
  issue i (({ three := three, wd := true, wa := true, wb := true, lat := 16 } : Form).shape f.v)
    (vectorBody f.v.d.toNat true fun g l =>
      let r := fn (rndOf f l g.dphase) (fp64.read (g.pair f.v.a.toNat l).toNat)
        (fp64.read (g.code64 .fp64 f.v.b.toNat f.v.lit l).toNat) (fp64.read (g.pair f.v.d.toNat l).toNat)
      (BitVec.ofNat 64 r.1, r.2)) s

/-- DADD (R208). -/
def execDadd (f : VX) (s : State) : Host.Outcome State Fault Refusal :=
  double (.dadd f) f false (fun r a b _ => fp64.addV r a b) s

/-- DMUL (R208). -/
def execDmul (f : VX) (s : State) : Host.Outcome State Fault Refusal :=
  double (.dmul f) f false (fun r a b _ => fp64.mulR r a b) s

/-- DFMA: fused (R208). -/
def execDfma (f : VX) (s : State) : Host.Outcome State Fault Refusal :=
  double (.dfma f) f true (fun r a b d => fp64.fmaR r a b d) s

/-! ## Conversions (R209 to R211) -/

/-- The codes with a source pair, and with a destination pair (R210). -/
def cvtWideB (c : Nat) : Bool := [9, 12, 13, 14, 15, 16, 17, 18, 20, 21, 28].contains c
def cvtWideD (c : Nat) : Bool := [8, 10, 11, 14, 15, 16, 17, 19, 22, 23].contains c

/-- How the literal of a code with a source pair widens (R63). -/
def cvtLit (c : Nat) : Wide :=
  if [9, 12, 13, 16, 17].contains c then .fp64 else if c = 20 ∨ c = 21 then .twin else .int

/-- An integer result at 32 or 64 bits. -/
def intRes (w : Nat) (r : Int × Nat) : Nat × Nat := (wrapInt w r.1, r.2)

/-- Two elements packed at a distance of `w` bits. -/
def packTwo (w : Nat) (a b : Nat × Nat) : Nat × Nat := (a.1 + 2 ^ w * b.1, orEx a.2 b.2)

/-- The value of a conversion code: `b` is the 32-bit or 64-bit source (R210, R211). -/
def cvtValue (c : Nat) (sat : Bool) (r : Rnd) (b : Nat) : Nat × Nat :=
  let lo : Nat := b % 2 ^ 32
  let hi : Nat := b / 2 ^ 32
  let h0 := b % 65536
  let h1 := b / 65536 % 65536
  match c with
  | 0 => fp32.ofInt r (signed 32 b)
  | 1 => fp32.ofInt r lo
  | 2 => intRes 32 (toIntClamped r (-2 ^ 31) (2 ^ 31 - 1) (fp32.read lo))
  | 3 => intRes 32 (toIntClamped r 0 (2 ^ 32 - 1) (fp32.read lo))
  | 4 => fp16.convert r sat (fp32.read lo)
  | 5 => fp32.convert rne false (fp16.read h0)
  | 6 => bf16.convert r sat (fp32.read lo)
  | 7 => fp32.convert rne false (bf16.read h0)
  | 8 => fp64.convert rne false (fp32.read lo)
  | 9 => fp32.convert r sat (fp64.read b)
  | 10 => fp64.ofInt rne (signed 32 b)
  | 11 => fp64.ofInt rne lo
  | 12 => intRes 32 (toIntClamped r (-2 ^ 31) (2 ^ 31 - 1) (fp64.read b))
  | 13 => intRes 32 (toIntClamped r 0 (2 ^ 32 - 1) (fp64.read b))
  | 14 => fp64.ofInt r (signed 64 b)
  | 15 => fp64.ofInt r b
  | 16 => intRes 64 (toIntClamped r (-2 ^ 63) (2 ^ 63 - 1) (fp64.read b))
  | 17 => intRes 64 (toIntClamped r 0 (2 ^ 64 - 1) (fp64.read b))
  | 18 => fp32.ofInt r (signed 64 b)
  | 19 => intRes 64 (toIntClamped r (-2 ^ 63) (2 ^ 63 - 1) (fp32.read lo))
  | 20 => packTwo 16 (fp16.convert r sat (fp32.read lo)) (fp16.convert r sat (fp32.read hi))
  | 21 => packTwo 16 (bf16.convert r sat (fp32.read lo)) (bf16.convert r sat (fp32.read hi))
  | 22 => packTwo 32 (fp32.convert rne false (fp16.read h0)) (fp32.convert rne false (fp16.read h1))
  | 23 => packTwo 32 (fp32.convert rne false (bf16.read h0)) (fp32.convert rne false (bf16.read h1))
  | 24 => (wrapInt 32 (clampInt (-128) 127 (signed 32 b)), 0)
  | 25 => (wrapInt 32 (clampInt 0 255 (signed 32 b)), 0)
  | 26 => (wrapInt 32 (clampInt (-32768) 32767 (signed 32 b)), 0)
  | 27 => (wrapInt 32 (clampInt 0 65535 (signed 32 b)), 0)
  | _ => (wrapInt 32 (clampInt (-2 ^ 31) (2 ^ 31 - 1) (signed 64 b)), 0)

/-- The source of a conversion in a lane. -/
def cvtSource (c : Nat) (f : VR) (g : Group) (l : Nat) : Nat :=
  if cvtWideB c then (g.code64 (cvtLit c) f.b.toNat f.lit l).toNat else (g.code32 f.b.toNat f.lit l).toNat

/-- CVT (R209 to R211). -/
def execCvt (f : VX) (s : State) : Host.Outcome State Fault Refusal :=
  let c := f.sub.toNat
  issue (.cvt f) (({ two := false, wd := cvtWideD c, wb := cvtWideB c } : Form).shape f.v)
    (vectorBody f.v.d.toNat (cvtWideD c) fun g l =>
      let r := cvtValue c (f.fl.getLsbD 0) (rndOf f l g.dphase) (cvtSource c f.v g l)
      (BitVec.ofNat 64 r.1, r.2)) s

/-! ## Blocks (R212 to R214) -/

/-- An element of a block conversion: bits [15:0] as bf16, or the word as fp32 (R212). -/
def blockIn (bf : Bool) (w : Word) : FVal := if bf then bf16.read (w.toNat % 65536) else fp32.read w.toNat

/-- The body of BFPCVT without EXPAND: the block of the active lanes' values, inactive ones counting as +0 (R212). -/
def packBody (f : VX) (e : Env) (s : State) : Res :=
  let m := f.sub.toNat
  let b := f.v.b.toNat
  let (mants, ex) := blockOf m e.g.dphase ((List.range 32).map fun i =>
    if e.on i then blockIn (f.fl.getLsbD 1) (e.g.v32 b i) else .fin false 0 0)
  let row := rowOf fun l => if l < m then planeWord m l mants else if l = 31 then BitVec.ofNat 32 ex else 0
  .done { vw := [(f.v.d.toNat, row, e.act)] }
    (if f.fl.getLsbD 0 then s.modGroup e.gid fun g => { g with dphase := (g.dphase + 1) % 32 } else s)

/-- BFPCVT: 32 values to a block (R212, R214). -/
def execBfpcvt (f : VX) (s : State) : Host.Outcome State Fault Refusal :=
  issue (.bfpcvt f) (({ two := false, lat := 24 } : Form).shape f.v) (packBody f) s

/-- The body of BFPCVT with EXPAND (R213). -/
def expandBody (f : VX) (e : Env) (s : State) : Res :=
  let m := f.sub.toNat
  let r := e.g.vreg f.v.b.toNat
  let ex := (lane r 31).toNat % 256
  let out := fun l =>
    if ex = 0 ∨ ex = 255 then 0
    else
      let v := mantValue m (mantOf m l r) ex
      if f.fl.getLsbD 1 then (bf16.convert rne false v).1 else (fp32.convert rne false v).1
  .done { vw := [(f.v.d.toNat, rowOf fun l => BitVec.ofNat 32 (out l), e.act)] }
    (if ex = 255 then s.setChk e.team.launch chkPoison else s)

/-- BFPCVT with EXPAND: a block to its 32 values (R213). -/
def execBfpcvtExpand (f : VX) (s : State) : Host.Outcome State Fault Refusal :=
  issue (.bfpcvtExpand f)
    { ({ two := false, lat := 24 } : Form).shape f.v with lanes := fun r _ act => if r = f.v.b.toNat then 0xFFFFFFFF else act }
    (expandBody f) s

/-! ## Residues (R215 to R217) -/

/-- The profile as run for a group (R217). -/
def Env.run (e : Env) (s : State) : Run := s.ctxRun e.team.ctx (towerOf e.gid)

/-- The modulus that K and CH name; none for an unused channel (R215). -/
def resMod (f : VX) (r : Run) : Option Nat := if f.fl.getLsbD 0 then r.mod f.k.toNat else some (f.k.toNat + 1)

/-- The value of a RESC operation on a 64-bit source whose low word is the 32-bit source (R215). -/
def rescValue (f : VX) (r : Run) (b : DWord) : DWord :=
  match f.sub.toNat with
  | 0 => match resMod f r with
    | some m => BitVec.ofNat 64 (signed 32 b.toNat % (m : Int)).toNat
    | none => 0
  | 1 => match resMod f r with
    | some m => BitVec.ofNat 64 (b.toNat % 2 ^ 32 % m)
    | none => 0
  | 2 => r.re8 (signed 32 b.toNat)
  | _ => BitVec.ofInt 64 (r.value b)

/-- RESC (R215). -/
def execResc (f : VX) (s : State) : Host.Outcome State Fault Refusal :=
  let c := f.sub.toNat
  issue (.resc f) (({ two := false, wd := decide (c = 2 ∨ c = 3), wb := decide (c = 3), lat := 16 } : Form).shape f.v)
    (fun e s => vectorBody f.v.d.toNat (decide (c = 2 ∨ c = 3)) (fun g l =>
      (rescValue f (e.run s) (if c = 3 then g.code64 .int f.v.b.toNat f.v.lit l
        else (g.code32 f.v.b.toNat f.v.lit l).setWidth 64), 0)) e s) s

/-- One residue operation: 0 addition, 1 subtraction, 2 multiplication modulo m (R216). -/
def resOp (k m a b : Nat) : Nat :=
  let x := a % m
  let y := b % m
  if k = 0 then (x + y) % m else if k = 1 then (x + m - y) % m else x * y % m

/-- The value of a MODOP operation (R216). -/
def modopValue (f : VX) (r : Run) (a b : Word) : Word :=
  let c := f.sub.toNat
  if c < 3 then
    match resMod f r with
    | some m => BitVec.ofNat 32 (resOp c m a.toNat b.toNat)
    | none => 0
  else
    BitVec.ofNat 32 (sumBy (fun j => match r.mod (4 * f.k.toNat + j) with
      | some m => resOp (c - 4) m (bits a.toNat (8 * j + 7) (8 * j)) (bits b.toNat (8 * j + 7) (8 * j)) * 2 ^ (8 * j)
      | none => 0) (List.range 4))

/-- MODOP (R216). -/
def execModop (f : VX) (s : State) : Host.Outcome State Fault Refusal :=
  issue (.modop f) (({ lat := 16 } : Form).shape f.v)
    (fun e s => vectorBody f.v.d.toNat false (intLane f.v fun a b _ => modopValue f (e.run s) a b) e s) s

end Sys2Proof.Machine
end

