-- ==== Sys2Proof/Machine/Scalar.lean ====
section
/-! DEFINITION. The scalar instructions SA 0x00 to 0x1A: scalar arithmetic (R218, R219) and the special registers (R163 to
R167). -/

namespace Sys2Proof.Machine

open Sys2Proof

/-! ## Scalar arithmetic (R218, R219) -/

/-- Issue a scalar instruction of two sources; it computes once for the group (R162, R189). -/
def scalar2 (i : Instr) (f : SR) (fn : DWord → DWord → DWord) (s : State) : Host.Outcome State Fault Refusal :=
  issue i { sr := f.a.toNat :: srBRegs f, sw := [f.d.toNat], stall := f.stall.toNat }
    (fun e s => .done { sw := [(f.d.toNat, fn (srA f e.g) (srB f e.g))] } s) s

/-- Issue a scalar instruction of one source. -/
def scalar1 (i : Instr) (f : SR) (fn : DWord → DWord) (s : State) : Host.Outcome State Fault Refusal :=
  issue i { sr := srBRegs f, sw := [f.d.toNat], stall := f.stall.toNat }
    (fun e s => .done { sw := [(f.d.toNat, fn (srB f e.g))] } s) s

/-- SADD (R218). -/
def execSadd (f : SR) (s : State) : Host.Outcome State Fault Refusal :=
  scalar2 (.sadd f) f (fun a b => a + b) s

/-- SSUB (R218). -/
def execSsub (f : SR) (s : State) : Host.Outcome State Fault Refusal :=
  scalar2 (.ssub f) f (fun a b => a - b) s

/-- SMUL (R218). -/
def execSmul (f : SR) (s : State) : Host.Outcome State Fault Refusal :=
  scalar2 (.smul f) f (fun a b => a * b) s

/-- SMULH.i: the high half of the signed product (R218). -/
def execSmulhI (f : SR) (s : State) : Host.Outcome State Fault Refusal :=
  scalar2 (.smulhI f) f (fun a b => ((a.signExtend 128 * b.signExtend 128) >>> 64).setWidth 64) s

/-- SMULH.n: the high half of the unsigned product (R218). -/
def execSmulhN (f : SR) (s : State) : Host.Outcome State Fault Refusal :=
  scalar2 (.smulhN f) f (fun a b => ((a.setWidth 128 * b.setWidth 128) >>> 64).setWidth 64) s

/-- SAND (R218). -/
def execSand (f : SR) (s : State) : Host.Outcome State Fault Refusal :=
  scalar2 (.sand f) f (fun a b => a &&& b) s

/-- SOR (R218). -/
def execSor (f : SR) (s : State) : Host.Outcome State Fault Refusal :=
  scalar2 (.sor f) f (fun a b => a ||| b) s

/-- SXOR (R218). -/
def execSxor (f : SR) (s : State) : Host.Outcome State Fault Refusal :=
  scalar2 (.sxor f) f (fun a b => a ^^^ b) s

/-- SSHL (R218). -/
def execSshl (f : SR) (s : State) : Host.Outcome State Fault Refusal :=
  scalar2 (.sshl f) f (fun a b => if b.toNat % 256 < 64 then a <<< (b.toNat % 256) else 0) s

/-- SSHR (R218). -/
def execSshr (f : SR) (s : State) : Host.Outcome State Fault Refusal :=
  scalar2 (.sshr f) f (fun a b => if b.toNat % 256 < 64 then a >>> (b.toNat % 256) else 0) s

/-- SSAR (R218). -/
def execSsar (f : SR) (s : State) : Host.Outcome State Fault Refusal :=
  scalar2 (.ssar f) f (fun a b => if b.toNat % 256 < 64 then a.sshiftRight (b.toNat % 256) else if a.slt 0 then -1 else 0) s

/-- SMIN.i (R218). -/
def execSminI (f : SR) (s : State) : Host.Outcome State Fault Refusal :=
  scalar2 (.sminI f) f (fun a b => if a.slt b then a else b) s

/-- SMIN.n (R218). -/
def execSminN (f : SR) (s : State) : Host.Outcome State Fault Refusal :=
  scalar2 (.sminN f) f (fun a b => if a.ult b then a else b) s

/-- SMAX.i (R218). -/
def execSmaxI (f : SR) (s : State) : Host.Outcome State Fault Refusal :=
  scalar2 (.smaxI f) f (fun a b => if a.slt b then b else a) s

/-- SMAX.n (R218). -/
def execSmaxN (f : SR) (s : State) : Host.Outcome State Fault Refusal :=
  scalar2 (.smaxN f) f (fun a b => if a.ult b then b else a) s

/-- SCEQ (R218). -/
def execSceq (f : SR) (s : State) : Host.Outcome State Fault Refusal :=
  scalar2 (.sceq f) f (fun a b => mask64 (a == b)) s

/-- SCLT.i (R218). -/
def execScltI (f : SR) (s : State) : Host.Outcome State Fault Refusal :=
  scalar2 (.scltI f) f (fun a b => mask64 (a.slt b)) s

/-- SCLT.n (R218). -/
def execScltN (f : SR) (s : State) : Host.Outcome State Fault Refusal :=
  scalar2 (.scltN f) f (fun a b => mask64 (a.ult b)) s

/-- SSEL: the old destination selects (R218). -/
def execSsel (f : SR) (s : State) : Host.Outcome State Fault Refusal :=
  issue (.ssel f) { sr := f.a.toNat :: f.d.toNat :: srBRegs f, sw := [f.d.toNat], stall := f.stall.toNat }
    (fun e s => .done { sw := [(f.d.toNat, if e.g.sreg f.d.toNat ≠ 0 then srA f e.g else srB f e.g)] } s) s

/-- SMOV (R218). -/
def execSmov (f : SR) (s : State) : Host.Outcome State Fault Refusal :=
  scalar1 (.smov f) f (fun b => b) s

/-- A 64-bit field: p = b[5:0], len = b[14:8], signed by b[15] (R219). -/
def sbfe (a b : DWord) : DWord :=
  let p := b.toNat % 64
  let w := min (bits b.toNat 14 8) (64 - p)
  let x := a.toNat / 2 ^ p % 2 ^ w
  if w = 0 then 0 else if b.getLsbD 15 then BitVec.ofInt 64 (signed w x) else BitVec.ofNat 64 x

/-- SBFE (R219). -/
def execSbfe (f : SR) (s : State) : Host.Outcome State Fault Refusal :=
  scalar2 (.sbfe f) f (fun a b => sbfe a b) s

/-- SPOPC (R218). -/
def execSpopc (f : SR) (s : State) : Host.Outcome State Fault Refusal :=
  scalar1 (.spopc f) f (fun b => BitVec.ofNat 64 (popCount 64 b.toNat)) s

/-- SCLZ (R218). -/
def execSclz (f : SR) (s : State) : Host.Outcome State Fault Refusal :=
  scalar1 (.sclz f) f (fun b => BitVec.ofNat 64 (leadZeros 64 b.toNat)) s

/-! ## Reading lanes and special registers (R163 to R167) -/

/-- SRDL: one lane of a vector register, whatever the active set (R167). -/
def execSrdl (f : SR) (s : State) : Host.Outcome State Fault Refusal :=
  let v := f.a.toNat
  issue (.srdl f)
    { vr := [v], sr := srBRegs f, sw := [f.d.toNat], stall := f.stall.toNat
      lanes := fun _ g _ => BitVec.ofNat 32 (2 ^ ((srB f g).toNat % 32)) }
    (fun e s => .done { sw := [(f.d.toNat, (e.g.v32 v ((srB f e.g).toNat % 32)).setWidth 64)] } s) s

/-- The DCV register (R163). -/
def Group.dcv (g : Group) : DWord := BitVec.ofNat 64 (sumBy (fun k => g.dc k * 2 ^ (6 * k)) (List.range 6))

/-- The RETN register of a core (R223). -/
def Core.retn (c : Core) : DWord := BitVec.ofNat 64 (c.retnUs % 2 ^ 20 + c.retnTj % 2 ^ 8 * 2 ^ 20)

/-- A special register as a group reads it in a lane (R65, R163). The first instruction of a clause with RGN finds the
clause address in REV (R57). -/
def special (e : Env) (s : State) (n l : Nat) : DWord :=
  let core := coreOf e.gid
  match n with
  | 0x00 => BitVec.ofNat 64 l
  | 0x01 => BitVec.ofNat 64 (e.g.num + slotOf e.gid * 2 ^ 16 + (if e.g.shadow then 2 ^ 23 else 0))
  | 0x02 => BitVec.ofNat 64 (e.team.num + e.team.stage * 2 ^ 24)
  | 0x03 => BitVec.ofNat 64 (core + e.g.tcore * 2 ^ 16)
  | 0x04 => BitVec.ofNat 64 (core / 8 + core / 8 % 12 * 2 ^ 8 + core % 8 * 2 ^ 16)
  | 0x05 => BitVec.ofNat 64 (towerOfCore core)
  | 0x06 => BitVec.ofNat 64 s.time
  | 0x07 => (s.core core).retn
  | 0x08 => e.g.cause
  | 0x09 => e.g.skidWord
  | 0x0A => e.g.pidx.setWidth 64
  | 0x0B => (if e.c.pos = 0 ∧ e.c.header.getLsbD 15 then e.c.addr else lane e.g.rev l).setWidth 64
  | 0x0C => e.launch.chkiv.setWidth 64
  | 0x0D => e.launch.spoor
  | 0x0E => profileWord (s.ctx e.team.ctx).profile (s.ctxRun e.team.ctx (towerOf e.gid)) e.g.dphase
  | 0x0F => e.g.ctxcfg
  | _ => e.g.dcv

/-- SRDSR (R164). Under REDUNDANT, TIME, RETN, CAUSE and SKID come from the leader (R119). -/
def execSrdsr (f : SR) (s : State) : Host.Outcome State Fault Refusal :=
  let n := f.a.toNat
  let d := f.d.toNat
  issue (.srdsr f)
    { vw := codeV false d, sw := codeS d, stall := f.stall.toNat, out := if 6 ≤ n ∧ n ≤ 9 then .input else .no }
    (fun e s =>
      if d < 64 then .done { vw := [(d, rowOf fun l => (special e s n l).setWidth 32, e.act)] } s
      else .done { sw := [(d - 64, special e s n 0)] } s) s

/-- The value of SWRSR's operand for a register that is not per-lane (R165). -/
def uniform (f : SR) (e : Env) : DWord :=
  let b := f.b.toNat
  if b < 64 then (e.g.v32 b (lowLane e.act)).setWidth 64 else e.g.code b f.lit

/-- The body of SWRSR: REV, CHKIV, PROFILE, CTXCFG (R165). -/
def swrsrBody (f : SR) (e : Env) (s : State) : Res :=
  let b := f.b.toNat
  let v := uniform f e
  .done {} (match f.a.toNat with
    | 0x0B => s.modGroup e.gid fun g =>
        { g with rev := rowOf fun l => if e.on l then e.g.code32 b f.lit l else lane g.rev l }
    | 0x0C => s.clearChk e.team.launch (v.setWidth 8)
    | 0x0E => s.modGroup e.gid fun g => { g with dphase := bits v.toNat 12 8 }
    | _ => s.modGroup e.gid fun g => { g with ctxcfg := (g.ctxcfg &&& ~~~0xFFFFE) ||| (v &&& 0xFFFFE) })

/-- SWRSR (R165). -/
def execSwrsr (f : SR) (s : State) : Host.Outcome State Fault Refusal :=
  let b := f.b.toNat
  issue (.swrsr f)
    { vr := codeV false b, sr := codeS b, stall := f.stall.toNat, setsRev := decide (f.a.toNat = 0x0B) } (swrsrBody f) s

/-- SFIRST: the active set, its lowest lane and its size (R166). -/
def execSfirst (f : SR) (s : State) : Host.Outcome State Fault Refusal :=
  issue (.sfirst f) { sw := [f.d.toNat], stall := f.stall.toNat }
    (fun e s => .done { sw := [(f.d.toNat, BitVec.ofNat 64 (e.act.toNat + lowLane e.act * 2 ^ 32
      + (lanesOf e.act).length * 2 ^ 40))] } s) s

end Sys2Proof.Machine
end

