-- ==== Sys2Proof/Machine/Control.lean ====
section
/-! DEFINITION. Control instructions: branches, calls, exits, yields and sleeps (R175 to R184), and traps, handlers and
their registers (R100 to R105). -/

namespace Sys2Proof.Machine

open Sys2Proof

/-! ## Branches (R177 to R181) -/

/-- The program counters when the active lanes go to the addresses of `t` (R173). -/
def Env.sendTo (e : Env) (t : Nat → Word) : Row := rowOf fun l => if e.on l then t l else lane e.g.pcv l

/-- H + OFF (R67). -/
def Env.target (e : Env) (off : Word) : Word := e.c.addr + off

/-- The condition suffix of a branch on a signed value (R177). -/
def condHolds {n : Nat} (c : BitVec 2) (x : BitVec n) : Bool :=
  match c.toNat with
  | 0 => x == 0
  | 1 => x != 0
  | 2 => x.slt 0
  | _ => ! x.slt 0

/-- NOP (R176). -/
def execNop (f : CXN) (s : State) : Host.Outcome State Fault Refusal :=
  issue (.nop f) {} (fun _ s => .done {} s) s

/-- BRA (R177). -/
def execBra (f : CXJ) (s : State) : Host.Outcome State Fault Refusal :=
  issue (.bra f) {} (fun e s => .jump (e.sendTo fun _ => e.target (f.off.signExtend 32)) {} s) s

/-- BRV: each active lane decides by its own register (R177). -/
def execBrv (f : CXB) (s : State) : Host.Outcome State Fault Refusal :=
  let v := f.reg.toNat
  issue (.brv f) { vr := [v] } (fun e s =>
    .jump (e.sendTo fun l => if condHolds f.cond (e.g.v32 v l) then e.target (f.off.signExtend 32) else e.c.next) {} s) s

/-- BRS: all active lanes decide alike (R177). -/
def execBrs (f : CXB) (s : State) : Host.Outcome State Fault Refusal :=
  let r := f.reg.toNat
  issue (.brs f) { sr := [r] } (fun e s =>
    .jump (e.sendTo fun _ => if condHolds f.cond (e.g.sreg r) then e.target (f.off.signExtend 32) else e.c.next) {} s) s

/-- BRX (R178). -/
def execBrx (f : CXR) (s : State) : Host.Outcome State Fault Refusal :=
  let p := f.p.toNat
  issue (.brx f) { vr := codeV false p, sr := codeS p } (fun e s =>
    .jump (e.sendTo fun l => e.g.code32 p f.lit l) {} s) s

/-- CALL (R179). -/
def execCall (f : CXL) (s : State) : Host.Outcome State Fault Refusal :=
  let v := f.link.toNat
  issue (.call f) { vw := [v] } (fun e s =>
    .jump (e.sendTo fun _ => e.target (f.off.signExtend 32)) { vw := [(v, rowOf fun _ => e.c.next, e.act)] } s) s

/-- CALLI: the targets are read before the link is written (R179). -/
def execCalli (f : CXR) (s : State) : Host.Outcome State Fault Refusal :=
  let v := f.p.toNat
  let q := f.q.toNat
  issue (.calli f) { vr := codeV false q, sr := codeS q, vw := [v] } (fun e s =>
    .jump (e.sendTo fun l => e.g.code32 q f.lit l) { vw := [(v, rowOf fun _ => e.c.next, e.act)] } s) s

/-- RET (R180). -/
def execRet (f : CXR) (s : State) : Host.Outcome State Fault Refusal :=
  let p := f.p.toNat
  issue (.ret f) { vr := codeV false p, sr := codeS p } (fun e s =>
    .jump (e.sendTo fun l => e.g.code32 p f.lit l) {} s) s

/-- EXIT: the active lanes end; with the last of them the group enters RETIRING (R181). -/
def execExit (f : CXN) (s : State) : Host.Outcome State Fault Refusal :=
  issue (.exit f) {} (fun e s => .jump (e.sendTo fun _ => exitPc) {} s) s

/-- YIELD: every group of the lathe that is READY issues first (R182). -/
def execYield (f : CXN) (s : State) : Host.Outcome State Fault Refusal :=
  issue (.yield f) {} (fun e s =>
    .done {} (s.modGroup e.gid fun g => { g with after := s.readyBeside e.gid })) s

/-- The wait of SLEEP: from the first issue, or as it stands (R183). -/
def sleepEnd (f : CXR) (e : Env) (s : State) : Nat :=
  match e.g.wait with
  | some ⟨.sleep, _, _, lim, _⟩ => lim
  | _ => s.time + min (e.g.code f.p.toNat f.lit).toNat 1048575

/-- SLEEP (R183). -/
def execSleep (f : CXR) (s : State) : Host.Outcome State Fault Refusal :=
  issue (.sleep f) { sr := codeS f.p.toNat } (fun e s =>
    if s.time ≥ sleepEnd f e s then .done {} s else .wait .sleep (sleepEnd f e s) 0 s) s

/-! ## Traps and their registers (R100 to R105) -/

/-- TRAP (R100). -/
def execTrap (f : CXR) (s : State) : Host.Outcome State Fault Refusal :=
  issue (.trap f) {} (fun e s => .trapNext { code := 0x50, sub := 0, imm := f.imm.toNat, lanes := e.act } s) s

/-- BKPT (R100). -/
def execBkpt (f : CXR) (s : State) : Host.Outcome State Fault Refusal :=
  issue (.bkpt f) {} (fun e s => .trapNext { code := 0x60, sub := 0, imm := f.imm.toNat, lanes := e.act } s) s

/-- RTE: the return from the handler; outside handler mode the group only goes on (R98, R101). -/
def execRte (f : CXN) (s : State) : Host.Outcome State Fault Refusal :=
  issue (.rte f) {} (fun e s =>
    if e.g.hmode then
      let beside := if e.c.header.getLsbD 14 then s.readyBeside e.gid else []
      .own (returnFromTrap (s.modGroup e.gid fun g => { g with after := beside }) e.gid e.c.next e.act)
    else .jump (e.sendTo fun _ => e.c.next) {} s) s

/-- CHKERR: CHKIV as it stood, and the clear (R104). -/
def execChkerr (f : CXR) (s : State) : Host.Outcome State Fault Refusal :=
  let p := f.p.toNat
  issue (.chkerr f) { vw := codeV false p, sw := codeS p } (fun e s =>
    let old : BitVec 8 := e.launch.chkiv
    let s := s.clearChk e.team.launch (f.imm.setWidth 8)
    if p < 64 then .done { vw := [(p, rowOf fun _ => old.setWidth 32, e.act)] } s
    else .done { sw := [(p - 64, old.setWidth 64)] } s) s

/-- PCVRD: all 32 lanes (R102). -/
def execPcvrd (f : CXR) (s : State) : Host.Outcome State Fault Refusal :=
  let p := f.p.toNat
  issue (.pcvrd f) { vw := [p], lanes := fun _ _ _ => 0xFFFFFFFF } (fun e s =>
    .done { vw := [(p, if e.g.hmode then e.g.spcv else e.g.pcv, 0xFFFFFFFF)] } s) s

/-- Whether the frame of a handler is a restart from REV (R187). -/
def Group.restarts (g : Group) : Bool :=
  (List.range 32).all fun l => lane g.pcv l == exitPc || lane g.spcv l == lane g.rev l

/-- PCVWR (R103). A restart from REV resumes at a header, forgets the progress within an instruction, and forgets the
pending frees of the region, whose names keep their rows (R187; log entry 37). -/
def execPcvwr (f : CXR) (s : State) : Host.Outcome State Fault Refusal :=
  let p := f.p.toNat
  issue (.pcvwr f) { vr := codeV false p, sr := codeS p } (fun e s =>
    .done {} (if e.g.hmode then
      s.modGroup e.gid fun g =>
        let g := { g with spcv := rowOf fun l => if e.on l then e.g.code32 p f.lit l else lane g.spcv l }
        if g.restarts then { g with pendFree := [], tword := 0, pidx := 0 } else g
    else s)) s

/-- HALT: the team, or every team of a port launch, is to leave the cores and be held; each group stops after its clause
(R105, R256). -/
def execHalt (f : CXN) (s : State) : Host.Outcome State Fault Refusal :=
  issue (.halt f) {} (fun e s => .done {} (s.stopWhole e.g.team .held)) s

end Sys2Proof.Machine
end

