-- ==== Sys2Proof/Machine/Reach.lean ====
section
/-! DEFINITION. What per-lane and single accesses to global memory share: their checks over all active lanes, waits on
pages, homes and peers, the store side log, and the values they move (R242, R282, R285, R294, R304, R416, R418). -/

namespace Sys2Proof.Machine

open Sys2Proof

/-! ## Sizes and registers (R242, R243) -/

/-- The bytes and the registers of SZ in LDG, STG, LDS and STS (R242). -/
def accBytes (sz : Nat) : Nat := if sz = 0 then 4 else if sz = 1 then 8 else if sz = 2 then 16 else 1
def accRegs (sz : Nat) : Nat := if sz = 1 then 2 else if sz = 2 then 4 else 1

/-- The words of SZ in the block forms (R243). -/
def blkWords (sz : Nat) : Nat := if sz = 0 then 1 else if sz = 1 then 2 else 4

/-- The `n` registers from `d` on (R28). -/
def span (d n : Nat) : List Nat := (List.range n).map (d + ·)

/-- The bytes that a lane's `n` registers hold, cut to `k` bytes. -/
def Group.laneBytes (g : Group) (d n k l : Nat) : List Byte :=
  ((span d n).flatMap fun v => toBytes 4 (g.v32 v l).toNat).take k

/-- The registers' new values from the bytes of each lane (R242). -/
def loadEff (d n : Nat) (act : Word) (f : Nat → List Byte) : Eff :=
  { vw := (List.range n).map fun k => (d + k, rowOf fun l => BitVec.ofNat 32 (field (f l) (4 * k) 4), act) }

/-! ## Checks over lanes (R92, R93, R304) -/

/-- A lane's access: lane, address and the result of its check. -/
structure Probe where
  lane : Nat
  va : Nat
  chk : Check
  deriving DecidableEq, Repr

/-- The cause that an instruction takes from those of its lanes: the highest, with the SUB of its lowest lane (R92,
R93). -/
def causeOf (l : List (Nat × Nat × Nat)) : Option Cause :=
  match minBy (fun (p : Nat × Nat × Nat) => p.2.1) l with
  | none => none
  | some (_, code, _) =>
    let mine := l.filter fun p => p.2.1 == code
    some { code := code, sub := ((minBy (fun (p : Nat × Nat × Nat) => p.1) mine).map (·.2.2)).getD 0, imm := 0
           lanes := maskOf fun x => mine.any fun p => p.1 == x }

/-- The causes among the probes. -/
def trapsOf (ps : List Probe) : List (Nat × Nat × Nat) :=
  ps.filterMap fun p => match p.chk with
    | .trap code sub => some (p.lane, code, sub)
    | _ => none

/-- How a link window treats an access: one it does not admit raises PEERF with SUB 4 unless it is posted (R418). -/
def State.linkCheck (s : State) (acc : LinkAcc) (posted : Bool) (c : Check) : Check :=
  match c with
  | .ok pa _ => if spaceOf pa = .link ∧ ! posted ∧ ! admits (s.window pa) acc then .trap 0x15 4 else c
  | _ => c

/-- An access of a group to a line that it has logged finds the line's page non-present until the replay (R286). -/
def State.loggedLine (s : State) (e : Env) (va : Nat) : Option Bool :=
  ((s.cores.flatMap fun (p : Nat × Core) => p.2.log).find? fun x => x.gid == e.gid && x.ctx == e.team.ctx && x.vline == va / 128).map
    (·.reserve)

/-- A checked access whose line the group has logged. -/
def State.behindLog (s : State) (e : Env) (va : Nat) (c : Check) : Check :=
  match c with
  | .ok _ _ => (match s.loggedLine e va with
    | some r => .logged r
    | none => c)
  | _ => c

/-- Check the accesses of lanes at their addresses. -/
def State.probe (s : State) (e : Env) (k : AccKind) (acc : LinkAcc) (posted : Bool) (n : Nat) :
    List (Nat × Nat) → List Probe × State
  | [] => ([], s)
  | (l, a) :: t =>
    let (c, s) := s.check (clusterOf e.gid) e.team.ctx (cfgPriv e.g.ctxcfg) k a n
    let (ps, s) := s.probe e k acc posted n t
    (⟨l, a, s.behindLog e a (s.linkCheck acc posted c)⟩ :: ps, s)

/-- The lanes that are active, with their addresses: sB + vO (R304), or consecutive blocks (R243, R307). -/
def Env.addrs (e : Env) (base off : Nat) : List (Nat × Nat) :=
  (lanesOf e.act).map fun l => (l, (e.g.sreg base + (e.g.v32 off l).setWidth 64).toNat)
def Env.blocks (e : Env) (base n : Nat) : List (Nat × Nat) :=
  (lanesOf e.act).map fun l => (l, (e.g.sreg base + BitVec.ofNat 64 (n * l)).toNat)

/-- One address for the whole group: it counts for every active lane (R92; log entry 14). -/
def Env.once (e : Env) (a : Nat) : List (Nat × Nat) := [(lowLane e.act, a)]

/-- A cause of an instruction that executes once is raised by every active lane (log entry 14). -/
def Env.wide (e : Env) (c : Cause) : Cause := { c with lanes := e.act }

/-- A cause of a once-per-group instruction. -/
def Env.cause (e : Env) (code sub : Nat) : Cause := { code := code, sub := sub, imm := 0, lanes := e.act }

/-! ## Waiting on pages and homes (R281 to R284) -/

/-- What stands in the way of the accesses of lanes: a cause, a wait, or nothing. -/
inductive Gate where
  | open | trap (c : Cause) | wait (k : WaitKind) (phase : Nat)
  deriving DecidableEq, Repr

/-- Whether RESOLVE has answered a page that a waiting group needs with FAIL: the wait's limit names the page, of 64 KiB in
phase 1 and of 2 MiB in phase 2 (R268, R284). -/
def Group.failed (g : Group) (va : Nat) : Bool :=
  match g.wait with
  | some ⟨.page _ _, _, _, n, 1⟩ => n == va / 0x10000
  | some ⟨.page _ _, _, _, n, 2⟩ => n / 32 == va / 0x200000
  | _ => false

/-- The lanes whose page is not present. -/
def absentOf (ps : List Probe) : List (Nat × Nat × Nat × Bool × Bool) :=
  ps.filterMap fun p => match p.chk with
    | .absent pte l3 attr => some (p.lane, p.va, pte, l3, attr)
    | _ => none

/-! ## Responses of peers to loads (R90, R416, R424) -/

/-- The load requests of a group that are under way. -/
def State.loadsOf (s : State) (gid : Nat) : List (Nat × PeerReq) :=
  s.peers.filter fun p => p.2.gid == gid && p.2.kind == .load

/-- Forget a group's load requests. -/
def State.dropLoads (s : State) (gid : Nat) : State :=
  { s with peers := s.peers.filter fun p => ! (p.2.gid == gid && p.2.kind == .load) }

/-- The lanes of a link aperture with their physical addresses. -/
def linkLanes (ps : List Probe) : List (Nat × Nat) :=
  ps.filterMap fun p => match p.chk with
    | .ok pa _ => if spaceOf pa = .link then some (p.lane, pa) else none
    | _ => none

/-- The causes of a group's load requests once each of them has been answered: by lane, PEERF or PEERT with its SUB
(R424). -/
def State.peerCauses (s : State) (e : Env) : List (Nat × Nat × Nat) :=
  let mine := s.loadsOf e.gid
  let waiting := match e.g.wait with
    | some ⟨.peer _, _, _, _, _⟩ => true
    | _ => false
  if ! waiting ∨ ! mine.all fun p => p.2.done then []
  else (mine.filter fun p => p.2.cause != 0).map fun p => (p.2.owner, p.2.cause % 256, p.2.cause / 256)

/-- The gate of a load: causes first, a page answered with FAIL traps XLAT, then a page that is not present, whose fault is
reported, a held home, and a line that the group has logged (R282 to R286). -/
def State.loadGate (s : State) (e : Env) (kind : Nat) (ps : List Probe) : Gate × State :=
  match causeOf (s.peerCauses e ++ trapsOf ps) with
  | some c => (.trap c, s.dropLoads e.gid)
  | none =>
    let abs := absentOf ps
    match causeOf ((abs.filter fun p => e.g.failed p.2.1).map fun p => (p.1, 0x10, 1)) with
    | some c => (.trap c, s)
    | none =>
      let s := abs.foldl (fun s p => s.reportFault e.team.ctx p.2.1 kind (coreOf e.gid) p.2.2.1 p.2.2.2.1 p.2.2.2.2) s
      match abs with
      | p :: _ => (.wait (.page p.2.1 kind) 0, s)
      | [] =>
        if ps.any fun p => p.chk = .held then (.wait .held 0, s)
        else if ps.any fun p => p.chk = .logged false ∨ p.chk = .logged true then (.wait .log 0, s)
        else (.open, s)

/-! ## The data of peers (R416) -/

/-- A response as it is consumed: bytes of poisoned sectors are zero (R117, R420). -/
def PeerReq.value (r : PeerReq) : List Byte :=
  (List.range r.size).map fun j => if r.marks.getD j false then 0 else r.data.getD j 0

/-- A group consumes responses: a mark sets CHKIV.POISON (R117). -/
def State.consume (s : State) (launch : Nat) (rs : List PeerReq) : State :=
  if rs.any fun r => r.marks.any id then s.setChk launch chkPoison else s

/-- Replace an answered request by the next one of its lane. -/
def State.askAgain (s : State) (id : Nat) (r : PeerReq) (op : PeerOp) : State :=
  (({ s with peers := s.peers.del id }).sendPeer r.kind op r.gid r.launch r.ctx r.pa r.size r.owner).2

/-- The data of link lanes: requests, one of each lane, are sent at the first issue, the group waits, and once every
response has arrived the bytes by lane are known. `next` is the request that must follow a response, if any. -/
def State.peerData (s : State) (e : Env) (n : Nat) (op : Nat → PeerOp) (next : PeerReq → Option PeerOp) (ps : List Probe) :
    Option (List (Nat × List Byte)) × Nat × State :=
  match linkLanes ps with
  | [] => (some [], 0, s)
  | ls =>
    let waiting := match e.g.wait with
      | some ⟨.peer _, _, _, _, _⟩ => true
      | _ => false
    let mine := s.loadsOf e.gid
    let first := (mine.map (·.1)).headD 0
    if waiting && ls.all fun p => mine.any fun q => q.2.owner == p.1 && q.2.pa == p.2 then
      if mine.all fun p => p.2.done then
        let more := mine.filter fun p => (next p.2).isSome
        if more.isEmpty then
          (some (mine.map fun p => (p.2.owner, p.2.value)), 0, (s.consume e.team.launch (mine.map (·.2))).dropLoads e.gid)
        else (none, first, more.foldl (fun (s : State) p => s.askAgain p.1 p.2 ((next p.2).getD .read)) s)
      else (none, first, s)
    else
      let s := s.dropLoads e.gid
      let first := s.fresh
      (none, first, ls.foldl (fun s p => (s.sendPeer .load (op p.1) e.gid e.team.launch e.team.ctx p.2 n p.1).2) s)

/-- The data of link lanes that are read. -/
def State.peerReads (s : State) (e : Env) (n : Nat) (ps : List Probe) : Option (List (Nat × List Byte)) × Nat × State :=
  s.peerData e n (fun _ => .read) (fun _ => none) ps

/-- The data of an operation under a counter or of a copy that is issued again: its request of `n` bytes is sent, and is there
once it has been answered (R416). -/
def State.opRead (s : State) (gid launch ctx pa n owner : Nat) : Option PeerReq × State :=
  match s.peers.find? fun (p : Nat × PeerReq) => p.2.kind == .opRead && p.2.owner == owner && p.2.pa == pa with
  | some (_, r) => (if r.done then some r else none, s)
  | none => (none, (s.sendPeer .opRead .read gid launch ctx pa n owner).2)

/-- An operation forgets its requests. -/
def State.dropReads (s : State) (owner : Nat) : State :=
  { s with peers := s.peers.filter fun (p : Nat × PeerReq) => ! (p.2.kind == .opRead && p.2.owner == owner) }

/-! ## The store side log (R285, R294) -/

/-- The entries of a core's log that are free. -/
def State.logFree (s : State) (core : Nat) : Nat := 64 - (s.core core).log.length

/-- Add an entry to a core's log. -/
def State.addLog (s : State) (e : Env) (vline : Nat) (line : Line) (red : Option (Nat × Bool × Nat × DWord))
    (reserve : Bool) : State :=
  let (n, s) := s.gensym
  s.modCore (coreOf e.gid) fun c =>
    { c with log := c.log ++ [⟨e.team.ctx, e.team.launch, e.g.team, e.team.num, e.team.stage, e.g.num, e.gid, n, vline, line, red, e.c.addr, reserve⟩] }

/-- One masked line over another. -/
def Line.over (a b : Line) : Line := { data := overlay b.data a.data a.dirty, dirty := a.dirty ||| b.dirty }

/-- The stores of an instruction that must be logged, merged by line in lane order, with the flag of R294. -/
def logLines (ws : List (Nat × List Byte × Bool)) : List (Nat × Line × Bool) :=
  ws.foldl (fun acc w =>
    let v := w.1 / 128
    match acc.find? fun p => p.1 == v && p.2.2 == w.2.2 with
    | some _ => acc.map fun p => if p.1 == v && p.2.2 == w.2.2 then (v, (storeLine w.1 w.2.1).over p.2.1, w.2.2) else p
    | none => acc ++ [(v, storeLine w.1 w.2.1, w.2.2)]) []

/-- Whether a probed store must be logged: its page is not present, the chunk reserve holds it, or its line is logged. -/
def State.mustLog (s : State) (c : Check) : Option Bool :=
  match c with
  | .absent _ _ _ => some false
  | .logged r => some r
  | .ok pa _ => if spaceOf pa ≠ .link ∧ s.reserveHolds pa then some true else none
  | _ => none

/-- Report the faults of logged stores (R282, R294). -/
def State.reportStores (s : State) (e : Env) (ps : List Probe) : State :=
  ps.foldl (fun s p => match p.chk with
    | .absent pte l3 attr => s.reportFault e.team.ctx p.va 1 (coreOf e.gid) pte l3 attr
    | .ok pa _ => if spaceOf pa ≠ .link ∧ s.reserveHolds pa then s.reportFault e.team.ctx p.va 5 (coreOf e.gid) 0 false false
                  else s
    | _ => s) s

/-- The masked lines, by home line, that an instruction's stores send home past the L1: one write per line, a later
lane over an earlier one, so that the lanes of one store cover a whole sector together (R117, R292, R306). -/
def homeLines (ws : List (Nat × List Byte)) : List (Nat × Line) :=
  ws.foldl (fun acc (w : Nat × List Byte) =>
    let v := w.1 / 128
    match acc.find? fun (p : Nat × Line) => p.1 == v with
    | some _ => acc.map fun (p : Nat × Line) => if p.1 == v then (v, (storeLine w.1 w.2).over p.2) else p
    | none => acc ++ [(v, storeLine w.1 w.2)]) []

/-- Whether a checked store goes home past the L1 on this device, and its address (R306). -/
def goesHome (c : Check) : Option Nat :=
  match c with
  | .ok pa t => if spaceOf pa ≠ .link ∧ ! cacheable t pa then some pa else none
  | _ => none

/-- The home address of a checked store that goes home past the L1. -/
def State.homeOf (s : State) (c : Check) : Option Nat :=
  (goesHome c).bind fun pa => match s.home 8 pa with
    | .here p => some (homeKey p)
    | _ => none

/-- Merge one masked line into memory at home (R278). -/
def State.mergeHome (s : State) (x : Nat × Line) : State := s.homeMerge (x.1 * 128) x.2.data x.2.dirty

/-- Perform one checked store, but for its bytes where they go home past the L1 (`homeLines`); a posted one to a link
aperture leaves, or sets CHKIV.PEERPOST (R306, R416, R418). -/
def State.doStore (s : State) (e : Env) (va : Nat) (c : Check) (bs : List Byte) : State :=
  match c with
  | .ok pa t =>
    if spaceOf pa = .link then
      s.post (.write bs []) e.gid e.team.launch e.team.ctx pa bs.length
    else
      let s := if (goesHome c).isSome then s else s.storeBytes (coreOf e.gid) e.team.ctx va pa t bs
      s.mirrorStore e.gid e.team.launch e.team.ctx pa t
  | _ => s

/-- The stores of an instruction, checked: a cause, a wait for a held home or for room in the log, or done with lines of
pages that are not present logged (R282, R285, R306). -/
def State.storeAll (s : State) (e : Env) (ps : List Probe) (bytes : Nat → List Byte) : Gate × State :=
  match causeOf (trapsOf ps) with
  | some c => (.trap c, s)
  | none =>
    if ps.any fun p => p.chk = .held then (.wait .held 0, s)
    else
      let ws := ps.filterMap fun p => (s.mustLog p.chk).map fun r => (p.va, bytes p.lane, r)
      let lines := logLines ws
      let s := s.reportStores e ps
      if lines.length > s.logFree (coreOf e.gid) then (.wait .log 0, s)
      else
        let s := lines.foldl (fun s x => s.addLog e x.1 x.2.1 none x.2.2) s
        let go := ps.filter fun p => (s.mustLog p.chk).isNone
        let s := go.foldl (fun s p => s.doStore e p.va p.chk (bytes p.lane)) s
        let home := go.filterMap fun p => (s.homeOf p.chk).map fun key => (key, bytes p.lane)
        (.open, (homeLines home).foldl State.mergeHome s)

end Sys2Proof.Machine
end

