-- ==== Sys2Proof/Machine/Global.lean ====
section
/-! DEFINITION. Loads and stores of global memory: LDG, LDGB, STG, STGB, LDK, SLDK, SLDG, SSTG and PREF (R304 to R310,
R318). -/

namespace Sys2Proof.Machine

open Sys2Proof

/-! ## Loads -/

/-- How one checked lane is read: context, launch, address, physical address, size and entry. -/
abbrev Reader := State → Env → Nat → Nat → Nat → TlbEntry → List Byte × State

/-- Reading as LDG reads (R306, R329). -/
def readLdg : Reader := fun s e va pa n x => s.loadBytes (coreOf e.gid) e.team.ctx e.team.launch va pa n x

/-- The bytes of one checked lane, a link lane's from its response. -/
def State.readLane (s : State) (e : Env) (n : Nat) (peer : List (Nat × List Byte)) (read : Reader) (p : Probe) :
    List Byte × State :=
  match p.chk with
  | .ok pa x =>
    if spaceOf pa = .link then (((peer.find? fun q => q.1 == p.lane).map (·.2)).getD [], s) else read s e p.va pa n x
  | _ => ([], s)

/-- The bytes of checked lanes read in ascending order (R306). -/
def State.readLanes (s : State) (e : Env) (n : Nat) (peer : List (Nat × List Byte)) (read : Reader) :
    List Probe → List (Nat × List Byte) × State
  | [] => ([], s)
  | p :: t =>
    let (bs, s) := s.readLane e n peer read p
    let (r, s) := s.readLanes e n peer read t
    ((p.lane, bs) :: r, s)

/-- The bytes of a lane. -/
def bytesOf (l : List (Nat × List Byte)) (n : Nat) : List Byte := ((l.find? fun p => p.1 == n).map (·.2)).getD []

/-- A load's body: the checks of all lanes, waits, then the reads (R304, R306). `read` reads the checked lanes. -/
def loadBody (n : Nat) (addrs : Env → List (Nat × Nat)) (eff : Env → (Nat → List Byte) → Eff)
    (read : Reader)
    (one : Bool) (e : Env) (s : State) : Res :=
  let (ps, s) := s.probe e .load (.load n) false n (addrs e)
  match s.loadGate e 0 ps with
  | (.trap c, s) => .trap (if one then e.wide c else c) s
  | (.wait k ph, s) => .wait k 0 ph s
  | (.open, s) =>
    match s.peerReads e n ps with
    | (none, id, s) => .wait (.peer id) 0 0 s
    | (some d, _, s) =>
      let (bs, s) := s.readLanes e n d read ps
      .done (eff e (bytesOf bs)) s

/-- The shape of a load of format MX. -/
def loadShape (f : MX) (opc n : Nat) (off : List Nat) : Shape :=
  { vr := off, sr := [f.base.toNat], vw := span f.data.toNat n, dc := f.dc.toNat, opc := opc, sz := f.sz.toNat, out := .input }

/-- LDG (R306). -/
def execLdg (f : MX) (s : State) : Host.Outcome State Fault Refusal :=
  let z := f.sz.toNat
  let n := accRegs z
  issue (.ldg f) (loadShape f 0x00 n [f.off.toNat])
    (loadBody (accBytes z) (fun e => e.addrs f.base.toNat f.off.toNat) (fun e b => loadEff f.data.toNat n e.act b)
      readLdg false) s

/-- LDGB (R307). -/
def execLdgb (f : MX) (s : State) : Host.Outcome State Fault Refusal :=
  let w := blkWords f.sz.toNat
  issue (.ldgb f) (loadShape f 0x01 w [])
    (loadBody (4 * w) (fun e => e.blocks f.base.toNat (4 * w)) (fun e b => loadEff f.data.toNat w e.act b)
      readLdg false) s

/-! ## The constant cache (R308) -/

/-- Put a line into a cluster's constant cache of 512 lines; a full one gives up a line (log entry 6). -/
def State.putConst (s : State) (cl : Nat) (l : ConstLine) : State :=
  let v := Config.victim s.tick % 512
  s.modCluster cl fun c =>
    { c with const := l :: (if c.const.length < 512 then c.const else c.const.take v ++ c.const.drop (v + 1)) }

/-- Read bytes through the constant cache: a line fetched once from home stays until it is dropped; it never sees dirty
bytes of an L1 or RDC (R308). -/
def State.constBytes (s : State) (e : Env) (va pa n : Nat) : List Byte × State :=
  let cl := clusterOf e.gid
  match (s.cluster cl).const.find? fun l => l.ctx == e.team.ctx && l.vline == va / 128 with
  | some l => ((List.range n).map fun j => lineByte l.data (va % 128 + j), s)
  | none =>
    match s.home 8 pa with
    | .here p =>
      let (bs, s) := s.homeRead (p / 128 * 128) 128
      let bad := fun j => s.poisoned (homeKey p / 128 * 128 + j)
      let data := (List.range 128).map fun j => if bad j then 0 else bs.getD j 0
      let out := sliceBytes data (va % 128) n
      if (List.range 128).any bad then
        (out, if (List.range n).any fun j => bad (va % 128 + j) then s.setChk e.team.launch chkPoison else s)
      else (out, s.putConst cl { ctx := e.team.ctx, vline := va / 128, data := lineOf data })
    | _ => ([], s)

/-- Reading as LDK reads (R308). -/
def readLdk : Reader := fun s e va pa n _ => s.constBytes e va pa n

/-- LDK (R308). -/
def execLdk (f : MX) (s : State) : Host.Outcome State Fault Refusal :=
  let z := f.sz.toNat
  let n := accRegs z
  issue (.ldk f) (loadShape f 0x08 n [f.off.toNat])
    (loadBody (accBytes z) (fun e => e.addrs f.base.toNat f.off.toNat) (fun e b => loadEff f.data.toNat n e.act b)
      readLdk false) s

/-! ## Scalar loads and stores (R309, R310) -/

/-- The address of a scalar load or store: (sA + b) mod 2^64 (R310). -/
def scalarAddr (f : SR) (g : Group) : Nat := (srA f g + srB f g).toNat

/-- The DC field of the SA memory instructions: bits [2:0] (R309). -/
def scalarDc (f : SR) : Nat := f.stall.toNat

/-- A 64-bit scalar result from the bytes of the one access. -/
def scalarEff (d : Nat) (e : Env) (b : Nat → List Byte) : Eff :=
  { sw := [(d, BitVec.ofNat 64 (field (b (lowLane e.act)) 0 8))] }

/-- SLDK (R308, R310). -/
def execSldk (f : SR) (s : State) : Host.Outcome State Fault Refusal :=
  issue (.sldk f)
    { sr := f.a.toNat :: srBRegs f, sw := [f.d.toNat], dc := scalarDc f, opc := 0x5B, out := .input }
    (loadBody 8 (fun e => e.once (scalarAddr f e.g)) (scalarEff f.d.toNat) readLdk true) s

/-- SLDG (R310). -/
def execSldg (f : SR) (s : State) : Host.Outcome State Fault Refusal :=
  issue (.sldg f)
    { sr := f.a.toNat :: srBRegs f, sw := [f.d.toNat], dc := scalarDc f, opc := 0x5C, out := .input }
    (loadBody 8 (fun e => e.once (scalarAddr f e.g)) (scalarEff f.d.toNat) readLdg true) s

/-! ## Stores -/

/-- A store's body: the checks of all lanes, then the stores in ascending lane order (R304, R306). -/
def storeBody (n : Nat) (addrs : Env → List (Nat × Nat)) (bytes : Env → Nat → List Byte) (one : Bool) (e : Env)
    (s : State) : Res :=
  let (ps, s) := s.probe e .store .store true n (addrs e)
  match s.storeAll e ps (bytes e) with
  | (.trap c, s) => .trap (if one then e.wide c else c) s
  | (.wait k ph, s) => .wait k 0 ph s
  | (.open, s) => .done {} s

/-- The shape of a store of format MX. -/
def storeShape (f : MX) (opc n : Nat) (off : List Nat) : Shape :=
  { vr := off ++ span f.data.toNat n, sr := [f.base.toNat], dc := f.dc.toNat, opc := opc, sz := f.sz.toNat, out := .output }

/-- STG (R306). -/
def execStg (f : MX) (s : State) : Host.Outcome State Fault Refusal :=
  let z := f.sz.toNat
  let n := accRegs z
  issue (.stg f) (storeShape f 0x02 n [f.off.toNat])
    (storeBody (accBytes z) (fun e => e.addrs f.base.toNat f.off.toNat)
      (fun e l => e.g.laneBytes f.data.toNat n (accBytes z) l) false) s

/-- STGB (R307). -/
def execStgb (f : MX) (s : State) : Host.Outcome State Fault Refusal :=
  let w := blkWords f.sz.toNat
  issue (.stgb f) (storeShape f 0x03 w [])
    (storeBody (4 * w) (fun e => e.blocks f.base.toNat (4 * w)) (fun e l => e.g.laneBytes f.data.toNat w (4 * w) l) false) s

/-- SSTG (R310). -/
def execSstg (f : SR) (s : State) : Host.Outcome State Fault Refusal :=
  issue (.sstg f)
    { sr := f.a.toNat :: f.d.toNat :: srBRegs f, dc := scalarDc f, opc := 0x5D, out := .output }
    (storeBody 8 (fun e => e.once (scalarAddr f e.g)) (fun e _ => toBytes 8 (e.g.sreg f.d.toNat).toNat) true) s

/-! ## PREF (R318) -/

/-- Fetch the line of one lane; a lane that would fault is dropped, and a compressed page is left alone (R287, R318). -/
def prefLane (sz : Nat) (e : Env) (s : State) (a : Nat) : State :=
  let core := coreOf e.gid
  match s.check (clusterOf e.gid) e.team.ctx (cfgPriv e.g.ctxcfg) .load a 1 with
  | (.ok pa x, s) =>
    if spaceOf pa = .link then s
    else if sz = 0 then (if cacheable x pa then (s.fillL1 core e.team.ctx a pa x).2 else s)
    else if sz = 1 then s.touchHome pa
    else if homeTower pa ≠ towerOf e.gid ∧ cacheable x pa then
      (s.fetchLine (towerOf e.gid) pa (x.s || s.sealedAt e.team.ctx a 1)).2
    else s.touchHome pa
  | (_, s) => s

/-- PREF: no register, no counter, no cause (R318). -/
def execPref (f : MX) (s : State) : Host.Outcome State Fault Refusal :=
  issue (.pref f) { vr := [f.off.toNat], sr := [f.base.toNat], out := .input }
    (fun e s => .done {} ((e.addrs f.base.toNat f.off.toNat).foldl (fun s p => prefLane f.sz.toNat e s p.2) s)) s

end Sys2Proof.Machine
end

