-- ==== Sys2Proof/Machine/Sync.lean ====
section
/-! DEFINITION. Lids, fences and seals (R319 to R328), and the cache instructions CINV, TLBINV and L2WB (R300 to R303). -/

namespace Sys2Proof.Machine

open Sys2Proof

/-- A non-idempotent operation: the team is no longer rollback-safe (R126). -/
def State.notSafe (s : State) (team : Nat) : State := s.modTeam team fun t => { t with safe := false }

/-! ## Making lines fresh (R328) -/

/-- Whether an L1 line is exempt from invalidation: sealed when it was fetched, or of a sealed region now (R328). -/
def State.exempt (s : State) (l : L1Line) : Bool := l.sealed || s.sealedAt l.ctx (l.vline * 128) 128

/-- Write back the L1 lines of a core that satisfy a test and drop those that are not exempt. -/
def State.refreshL1 (s : State) (core : Nat) (viaRdc : Bool) (p : L1Line → Bool) : State :=
  let x := s
  (s.cleanL1 core viaRdc p).modCore core fun c => { c with l1 := c.l1.filter fun l => ! p l || x.exempt l }

/-- Whether an L1 line of a context overlaps a range of virtual addresses. -/
def inRange (ctx a n : Nat) (l : L1Line) : Bool := l.ctx == ctx && overlaps (l.vline * 128) 128 a n

/-- Whether an L1 line lies in a region bound to a lid (R320). -/
def State.inLid (s : State) (ctx lid : Nat) (l : L1Line) : Bool :=
  (s.ctx ctx).lids.any fun b => b.lid == lid && inRange ctx b.base b.len l

/-- Whether a lid has a binding. -/
def State.bound (s : State) (ctx lid : Nat) : Bool := (s.ctx ctx).lids.any fun b => b.lid == lid

/-! ## Fences (R324) -/

/-- Whether an RDC line of a region is exempt from invalidation: of a page with S = 1 or a sealed region (R328). -/
def State.exemptRdc (s : State) (ctx : Nat) (pages : List TlbEntry) (a n : Nat) (r : RdcLine) : Bool :=
  pages.any fun e => e.shows a n r.pline && (e.s || s.sealedAt ctx (e.vaOf r.pline) 128)

/-- Write back the RDC lines of a tower in a region, given by its pages, and drop those that are not exempt. -/
def State.refreshRdc (s : State) (t ctx : Nat) (pages : List TlbEntry) (a n : Nat) : State :=
  let x := s
  (s.cleanRdc t (rdcIn pages a n)).flushRdc t fun r => rdcIn pages a n r && ! x.exemptRdc ctx pages a n r

/-- The regions bound to a lid: base and length (R320). -/
def State.regions (s : State) (ctx lid : Nat) : List (Nat × Nat) :=
  ((s.ctx ctx).lids.filter fun b => b.lid == lid).map fun b => (b.base, b.len)

/-- Whether an operation is a load, store or atomic (R324): MA opcodes of class MEM, SIGADD (R346) and the SA memory
opcodes. -/
def Op.isAccess (o : Op) : Bool := decide (o.opc ≤ 0x14) || o.opc == 0x38 || decide (0x5B ≤ o.opc)

/-- Whether a fence of a group may act: no logged entry, every earlier access complete, and for system scope every posted
store accepted (R286, R324). -/
def State.fenceReady (s : State) (gid scope : Nat) (earlier : List Op) : Bool :=
  ! s.loggedBy gid && ! earlier.any Op.isAccess
    && (scope != 5 || ! s.peers.any fun p => p.2.gid == gid && p.2.kind == .posted)

/-- The actions of a fence (R324). -/
def State.fence (s : State) (core ctx scope : Nat) : State :=
  if scope = 0 then s
  else
    let s := s.refreshL1 core true fun l => l.ctx == ctx
    if scope < 4 then s else s.cleanRdcOf (towerOfCore core) (some ctx) fun _ => true

/-- FENCE (R324). With a counter it acts when it completes. -/
def execFence (f : MX) (s : State) : Host.Outcome State Fault Refusal :=
  let scope := f.off.toNat
  issue (.fence f) { dc := f.dc.toNat, opc := 0x1A, out := .input } (fun e s =>
    if f.dc.toNat < 6 then .later {} (.fence scope) s
    else if s.fenceReady e.gid scope e.g.ops then .done {} (s.fence (coreOf e.gid) e.team.ctx scope)
    else .wait .other 0 0 s) s

/-! ## Lids (R319 to R323) -/

/-- The place of a group in the order of a lid: its arrival, or past every waiter. -/
def lidPlace (e : Env) : Nat :=
  match e.g.wait with
  | some ⟨.lid, _, n, _, _⟩ => n
  | _ => 2 ^ 64

/-- Whether two physical addresses have one home (R281, R323). -/
def State.sameHome (s : State) (a b : Nat) : Bool :=
  a == b || (match s.home 8 a, s.home 8 b with
    | .here x, .here y => homeKey x == homeKey y
    | _, _ => false)

/-- Whether an ACQ stands before a place in the order of a lid (R323). -/
def State.lidAhead (s : State) (gid pa place : Nat) : Bool :=
  s.groups.any fun p => p.1 != gid && (match p.2.wait with
    | some ⟨.lid, _, n, lim, _⟩ => s.sameHome lim pa && decide (n < place)
    | _ => false)

/-- The lid's word at home. -/
def State.lidWord (s : State) (pa : Nat) : Nat × State :=
  match s.home 8 pa with
  | .here p => let (bs, s) := s.homeRead p 8; (ofBytes bs, s)
  | _ => (0, s)

/-- Write the lid's word at home. -/
def State.setLid (s : State) (pa v : Nat) : State :=
  match s.home 8 pa with
  | .here p => s.homeWrite p (toBytes 8 v)
  | _ => s

/-- What ACQ does once it is granted: the bound regions are written back and invalidated (R321). -/
def State.acquired (s : State) (core ctx lid : Nat) : State :=
  if s.bound ctx lid then
    (s.regions ctx lid).foldl (fun (s : State) p =>
      s.refreshRdc (towerOfCore core) ctx (s.pagesIn (clusterOfCore core) ctx p.1 p.2) p.1 p.2)
      (s.refreshL1 core false (s.inLid ctx lid))
  else s

/-- ACQ at the home of its lid: granted in the order of the lid, unless the chunk reserve holds the line (R294, R321,
R323). -/
def State.acqAt (s : State) (f : MX) (e : Env) (lid pa : Nat) : Res :=
  let excl := decide (f.sz.toNat = 0)
  let (v, s) := s.lidWord pa
  let free := if excl then decide (v = 0) else ! bit v 63
  if s.reserveHolds pa then .wait .lid pa 0 (s.reportFault e.team.ctx lid 5 (coreOf e.gid) 0 false false)
  else if free && ! s.lidAhead e.gid pa (lidPlace e) then
    .done {} (((s.setLid pa (if excl then 2 ^ 63 else v + 1)).acquired (coreOf e.gid) e.team.ctx lid).notSafe e.g.team)
  else .wait .lid pa 0 s

/-- The physical address at which an ACQ that has reached the home of its lid waits there (R323). -/
def Group.lidHome (g : Group) : Option Nat :=
  match g.wait with
  | some ⟨.lid, _, _, pa, _⟩ => if spaceOf pa = .link then none else some pa
  | _ => none

/-- The body of ACQ (R321, R323). One that waits at its home stays there while the home is HELD. A lid in a link aperture is
granted from outside. -/
def acqBody (f : MX) (e : Env) (s : State) : Res :=
  let lid := (e.g.sreg f.base.toNat).toNat
  match e.g.lidHome.map fun pa => (pa, s.home 8 pa) with
  | some (pa, .here _) => s.acqAt f e lid pa
  | some (pa, .held) => .wait .lid pa 0 s
  | _ =>
    let (ps, s) := s.probe e .store .atomic false 8 (e.once lid)
    match s.loadGate e 0 ps with
    | (.trap c, s) => .trap (e.wide c) s
    | (.wait k ph, s) => .wait k 0 ph s
    | (.open, s) =>
      match ps with
      | ⟨_, _, .ok pa _⟩ :: _ =>
        if spaceOf pa = .link then
          (match e.g.wait with
           | some ⟨.lid, _, _, _, 1⟩ => .done {} ((s.acquired (coreOf e.gid) e.team.ctx lid).notSafe e.g.team)
           | _ => .wait .lid pa 0 s)
        else s.acqAt f e lid pa
      | _ => .wait .held 0 0 s

/-- ACQ (R321). -/
def execAcq (f : MX) (s : State) : Host.Outcome State Fault Refusal :=
  issue (.acq f) { sr := [f.base.toNat], opc := 0x18, sz := f.sz.toNat, out := .input } (acqBody f) s

/-- Whether a REL may act: no logged entry of the group, and every mirrored store issued before it acknowledged; those that
a replay performs only now were issued before it, since it waits for the log (R121, R286, R322). -/
def State.relReady (s : State) (gid before : Nat) : Bool :=
  ! s.loggedBy gid && ! s.mirrors.any fun p => p.2.gid == gid && decide (p.1 < before)

/-- A REL begins to wait for the group's mirrored stores (R121). -/
def State.awaitMirrors (s : State) (gid : Nat) : State :=
  { s with mirrors := s.mirrors.map fun (p : Nat × MirrorReq) =>
      if p.2.gid = gid ∧ p.2.since = none then (p.1, { p.2 with since := some s.time }) else p }

/-- The effect of REL: the bound regions are published, then the lid is freed (R322). -/
def State.release (s : State) (gid ctx launch lid pa : Nat) (excl : Bool) : State :=
  let core := coreOf gid
  let s := if s.bound ctx lid then
    (s.regions ctx lid).foldl (fun (s : State) p =>
      s.cleanRdcOf (towerOfCore core) (some ctx) (rdcIn (s.pagesIn (clusterOfCore core) ctx p.1 p.2) p.1 p.2))
      (s.cleanL1 core false (s.inLid ctx lid))
  else s
  if spaceOf pa = .link then s.post (.atomic 0x09 (if excl then BitVec.ofNat 64 (2 ^ 63) else -1) 0) gid launch ctx pa 8
  else
    let (v, s) := s.lidWord pa
    if excl then (if bit v 63 then s.setLid pa 0 else s)
    else if v % 2 ^ 32 > 0 then s.setLid pa (v - 1) else s

/-- The body of REL (R322). With a counter it acts when it completes. -/
def relBody (f : MX) (e : Env) (s : State) : Res :=
  let lid := (e.g.sreg f.base.toNat).toNat
  let excl := decide (f.sz.toNat = 0)
  let (ps, s) := s.probe e .store .store true 8 (e.once lid)
  match s.loadGate e 0 ps with
  | (.trap c, s) => .trap (e.wide c) s
  | (.wait k ph, s) => .wait k 0 ph s
  | (.open, s) =>
    match ps with
    | ⟨_, _, .ok pa _⟩ :: _ =>
      let s := (s.awaitMirrors e.gid).notSafe e.g.team
      if f.dc.toNat < 6 then .later {} (.rel lid excl) s
      else if spaceOf pa ≠ .link ∧ s.reserveHolds pa then
        .wait .reserve (homeTower pa) 0 (s.reportFault e.team.ctx lid 5 (coreOf e.gid) 0 false false)
      else if s.relReady e.gid s.fresh then .done {} (s.release e.gid e.team.ctx e.team.launch lid pa excl)
      else .wait .other 0 0 s
    | _ => .wait .held 0 0 s

/-- REL (R322). -/
def execRel (f : MX) (s : State) : Host.Outcome State Fault Refusal :=
  issue (.rel f) { sr := [f.base.toNat], dc := f.dc.toNat, opc := 0x19, sz := f.sz.toNat, out := .input } (relBody f) s

/-- The free entry numbers of a lid table. -/
def freeEntries (l : List LidBind) : List Nat := (List.range 256).filter fun n => ! l.any fun b => b.entry == n

/-- LIDBIND: its result and the table after it (R320). -/
def lidbind (tick : Nat) (c : Context) (lid base len : Nat) : DWord × Context :=
  if lid % 8 ≠ 0 ∨ len = 0 ∨ 2 ^ 40 < len then (-2, c)
  else
    let free := freeEntries c.lids
    match free[Config.choice tick % free.length]? with
    | none => (-1, c)
    | some n => (BitVec.ofNat 64 n, { c with lids := c.lids ++ [⟨n, lid, base, len⟩] })

/-- LIDBIND (R320). -/
def execLidbind (f : MX) (s : State) : Host.Outcome State Fault Refusal :=
  let b := f.base.toNat
  issue (.lidbind f) { sr := span b 3, sw := [b + 3], opc := 0x1B, out := .input } (fun e s =>
    let (r, c) := lidbind s.tick (s.ctx e.team.ctx) (e.g.sreg b).toNat (e.g.sreg (b + 1)).toNat (e.g.sreg (b + 2)).toNat
    .done { sw := [(b + 3, r)] } ((s.modCtx e.team.ctx fun _ => c).notSafe e.g.team)) s

/-- LIDUNB (R320). -/
def execLidunb (f : MX) (s : State) : Host.Outcome State Fault Refusal :=
  let b := f.base.toNat
  issue (.lidunb f) { sr := [b], sw := [b + 1], opc := 0x1C, out := .input } (fun e s =>
    let lid := (e.g.sreg b).toNat
    let gone := (s.ctx e.team.ctx).lids.filter fun x => x.lid == lid
    .done { sw := [(b + 1, BitVec.ofNat 64 gone.length)] }
      ((s.modCtx e.team.ctx fun c => { c with lids := c.lids.filter fun x => x.lid != lid }).notSafe e.g.team)) s

/-! ## Seals (R325, R326) -/

/-- The cores that hold a line in their L1. -/
def State.l1Cores (s : State) : List Nat := (s.cores.filter fun p => ! p.2.l1.isEmpty).map (·.1)

/-- The towers that hold a line in their RDC. -/
def State.rdcTowers (s : State) : List Nat := (s.towers.filter fun p => ! p.2.rdc.isEmpty).map (·.1)

/-- The status of SEAL (R325; the order of its refusals is log entry 16). -/
def sealStatus (c : Context) (base len : Nat) : Nat :=
  if len = 0 ∨ 2 ^ 40 < len then 3
  else if c.seals.length ≥ 64 then 1
  else if c.seals.any fun p => overlaps base len p.1 p.2 then 2
  else 0

/-- The constant caches drop their lines of a region (R308). -/
def State.dropConst (s : State) (ctx base len : Nat) : State :=
  { s with clusters := s.clusters.map fun (p : Nat × Cluster) =>
      (p.1, { p.2 with const := p.2.const.filter fun l => ! (l.ctx == ctx && overlaps (l.vline * 128) 128 base len) }) }

/-- Every L1 and RDC of the device writes back its dirty bytes of a region and drops its lines of it (R325, R326). -/
def State.dropRegion (s : State) (cl ctx base len : Nat) : State :=
  let pages := s.pagesIn cl ctx base len
  let s := s.l1Cores.foldl (fun s k => s.flushL1 k false (inRange ctx base len)) s
  s.rdcTowers.foldl (fun s t => s.flushRdc t (rdcIn pages base len)) s

/-- SEAL on success: the region enters the table, and every L1 and RDC writes back its dirty bytes of it (R325). Copies
that stand in caches may be older than the seal point, so they go, those of the constant caches too: every later load finds
the value of the seal point at home (R327; log entry 84). -/
def State.sealRegion (s : State) (cl ctx base len : Nat) : State :=
  ((s.modCtx ctx fun c => { c with seals := c.seals ++ [(base, len)] }).dropRegion cl ctx base len).dropConst ctx base len

/-- SEAL (R325). -/
def execSeal (f : MX) (s : State) : Host.Outcome State Fault Refusal :=
  let b := f.base.toNat
  issue (.seal f) { sr := span b 2, sw := [b + 2], opc := 0x1D, out := .input } (fun e s =>
    let base := (e.g.sreg b).toNat
    let len := (e.g.sreg (b + 1)).toNat
    let st := sealStatus (s.ctx e.team.ctx) base len
    .done { sw := [(b + 2, BitVec.ofNat 64 st)] }
      ((if st = 0 then s.sealRegion (clusterOf e.gid) e.team.ctx base len else s).notSafe e.g.team)) s

/-- UNSEAL on success: every L1 and RDC copy of the region goes, then the region leaves the table (R326). -/
def State.unsealRegion (s : State) (cl ctx base len : Nat) : State :=
  (s.dropRegion cl ctx base len).modCtx ctx fun c => { c with seals := c.seals.filter fun p => p.1 != base }

/-- UNSEAL (R326). -/
def execUnseal (f : MX) (s : State) : Host.Outcome State Fault Refusal :=
  let b := f.base.toNat
  issue (.unseal f) { sr := [b], sw := [b + 1], opc := 0x1E, out := .input } (fun e s =>
    let base := (e.g.sreg b).toNat
    match (s.ctx e.team.ctx).seals.find? fun p => p.1 == base with
    | none => .done { sw := [(b + 1, 1)] } (s.notSafe e.g.team)
    | some p => .done { sw := [(b + 1, 0)] } ((s.unsealRegion (clusterOf e.gid) e.team.ctx p.1 p.2).notSafe e.g.team)) s

/-! ## CINV, TLBINV and L2WB (R300 to R303) -/

/-- CINV's effect (R300). -/
def State.cinv (s : State) (core ctx sz a n : Nat) : State :=
  if sz = 2 then s.flushL1 core false fun l => l.ctx == ctx
  else if n = 0 then s
  else
    let pages := s.pagesIn (clusterOfCore core) ctx a n
    let s := s.flushL1 core false (inRange ctx a n)
    if sz = 1 then s.flushRdc (towerOfCore core) fun r => pages.any fun x => overlaps (r.pline * 128) 128 x.pa x.size else s

/-- CINV (R300). -/
def execCinv (f : MX) (s : State) : Host.Outcome State Fault Refusal :=
  let b := f.base.toNat
  let z := f.sz.toNat
  issue (.cinv f)
    { sr := if z = 2 then [] else span b 2, dc := f.dc.toNat, opc := 0x1F, sz := z, out := .input } (fun e s =>
    .done {} (s.cinv (coreOf e.gid) e.team.ctx z ((e.g.sreg b).toNat % 2 ^ 52) ((e.g.sreg (b + 1)).toNat % 2 ^ 32))) s

/-- Whether TLBINV covers a virtual address range of a context (R301, R302). -/
def tlbCovers (scope ctx a n c va size : Nat) : Bool :=
  if scope = 3 then true
  else if scope = 2 then c == ctx
  else if scope = 1 then c == ctx && overlaps va size a n
  else c == ctx && decide (va ≤ a ∧ a < va + size)

/-- TLBINV in one cluster: the entries it covers go with the L1 lines of their pages, and the constant cache drops its
lines of them (R302, R308). -/
def State.tlbinv (s : State) (cl scope ctx a n : Nat) : State :=
  let gone := (s.cluster cl).tlb.filter fun x => tlbCovers scope ctx a n x.ctx x.va x.size
  let s := gone.foldl (fun s x => s.dropTlb cl x) s
  s.modCluster cl fun c =>
    { c with const := c.const.filter fun l => ! tlbCovers scope ctx a n l.ctx (l.vline * 128 / 65536 * 65536) 65536 }

/-- TLBINV: a device fence, then the invalidation in this cluster or in every cluster (R301, R302). -/
def execTlbinv (f : CXR) (s : State) : Host.Outcome State Fault Refusal :=
  let p := f.p.toNat
  let q := f.q.toNat
  let scope := f.imm.toNat % 4
  issue (.tlbinv f) { sr := codeS p ++ codeS q, out := .input } (fun e s =>
    if s.fenceReady e.gid 4 e.g.ops then
      let s := s.fence (coreOf e.gid) e.team.ctx 4
      let k := if bit f.imm.toNat 2 then List.range 48 else [clusterOf e.gid]
      .done {} (k.foldl (fun s c => s.tlbinv c scope e.team.ctx ((e.g.code p f.lit).toNat % 2 ^ 52) (e.g.code q f.lit).toNat) s)
    else .wait .other 0 0 s) s

/-- Whether a home line lies in a physical range; a window line also answers to its plain aperture (R296, R303). -/
def homeIn (all : Bool) (a n line : Nat) : Bool :=
  all || overlaps (line * 128) 128 a n
    || (spaceOf (line * 128) == .window && overlaps (line * 128 + 0x10000000000) 128 a n)

/-- L2WB's effect: RDCs first if asked, then the home slices write back dirty lines, and drop lines under INV (R303). -/
def State.l2wb (s : State) (inv rdc all : Bool) (a n : Nat) : State :=
  let mine := fun (r : RdcLine) => all || overlaps (r.pline * 128) 128 a n
  let s := if rdc then
    s.rdcTowers.foldl (fun s t => if inv then s.flushRdc t mine else s.cleanRdc t mine) s else s
  (List.range 4).foldl (fun s t =>
    (((s.tower t).l2.keys).filter (homeIn all a n)).foldl (fun s k =>
      if inv then s.evictHome (k * 128) else s.writeBackHome (k * 128)) s) s

/-- L2WB (R303). -/
def execL2wb (f : CXR) (s : State) : Host.Outcome State Fault Refusal :=
  let p := f.p.toNat
  let q := f.q.toNat
  issue (.l2wb f) { sr := codeS p ++ codeS q, out := .input } (fun e s =>
    if s.fenceReady e.gid 4 e.g.ops then
      let s := s.fence (coreOf e.gid) e.team.ctx 4
      .done {} (s.l2wb (bit f.imm.toNat 0) (bit f.imm.toNat 1) (bit f.imm.toNat 2)
        ((e.g.code p f.lit).toNat % 2 ^ 48) (e.g.code q f.lit).toNat)
    else .wait .other 0 0 s) s

end Sys2Proof.Machine
end

