-- ==== Sys2Proof/Machine/Scratch.lean ====
section
/-! DEFINITION. The scratchpad (R220 to R250): rows and retention, buffers and handles, loads, stores and renewal, and
circular buffers. -/

namespace Sys2Proof.Machine

open Sys2Proof

/-! ## Rows (R220, R222, R226, R232, R233) -/

/-- A row of a core. -/
def Core.row (c : Core) (r : Nat) : SpRow := c.sp.findD r freshRow

/-- The age in nanoseconds that a row of a buffer may reach: min(tag, RETN) (R222). -/
def Core.keepNs (c : Core) (b : Buf) : Nat := min b.tag c.retnUs * 1000

/-- Whether a row is expired (R222). -/
def SpRow.expired (r : SpRow) (now keep : Nat) : Bool := r.st == .stamped && decide (now - r.stamp > keep)

/-- Whether byte `j` of a row lies in a poisoned sector. -/
def SpRow.bad (r : SpRow) (j : Nat) : Bool := r.poison.getLsbD (j / 32)

/-- Bytes of a row: zero in a NEVER row and in poisoned sectors (R222, R232). -/
def SpRow.read (r : SpRow) (col n : Nat) : List Byte :=
  (List.range n).map fun j => if r.st = .never ∨ r.bad (col + j) then 0 else BitVec.ofNat 8 (r.data.toNat / 2 ^ (8 * (col + j)))

/-- Whether a read of bytes of a row meets a poisoned sector. -/
def SpRow.readsPoison (r : SpRow) (col n : Nat) : Bool :=
  r.st != .never && (List.range n).any fun j => r.bad (col + j)

/-- The mask of the sectors that `n` bytes from a column cover whole. -/
def wholeSectors (col n : Nat) : Word := maskOf fun k => decide (col ≤ 32 * k ∧ 32 * k + 32 ≤ col + n)

/-- The row before a write: a row that was NEVER, VOID or expired starts from zeros (R222, R226). -/
def SpRow.opened (r : SpRow) (now keep : Nat) : SpRow :=
  if r.st = .stamped ∧ ! r.expired now keep then r else { freshRow with st := .stamped }

/-- A write of bytes to a row: the whole row is stamped, both dirty bits are set, and a sector written whole loses its
mark (R222, R226, R232, R233). -/
def SpRow.write (r : SpRow) (now keep col : Nat) (bs : List Byte) : SpRow :=
  let r := r.opened now keep
  let m : BitVec 8192 := BitVec.ofNat 8192 ((2 ^ (8 * bs.length) - 1) * 2 ^ (8 * col))
  { r with
    st := .stamped, stamp := now, dirty0 := true, dirty1 := true
    data := (r.data &&& ~~~m) ||| BitVec.ofNat 8192 (ofBytes bs * 2 ^ (8 * col))
    poison := r.poison &&& ~~~(wholeSectors col bs.length) }

/-- Renewal: a STAMPED row that is not expired takes a new stamp (R222, R240). -/
def SpRow.renew (r : SpRow) (now keep : Nat) : SpRow :=
  if r.st = .stamped ∧ ! r.expired now keep then { r with stamp := now } else r

/-- Write bytes into a row of a buffer on a core. -/
def Core.writeRow (c : Core) (b : Buf) (now row col : Nat) (bs : List Byte) : Core :=
  { c with sp := c.sp.put row ((c.row row).write now (c.keepNs b) col bs) }

/-- Renew every row of a buffer (R246). -/
def Core.renewBuf (c : Core) (now : Nat) (b : Buf) : Core :=
  { c with sp := c.sp.map fun (p : Nat × SpRow) =>
      if b.base ≤ p.1 ∧ p.1 < b.base + b.rows then (p.1, p.2.renew now (c.keepNs b)) else p }

/-! ## Buffers and handles (R227 to R229) -/

/-- The code of a class in a handle (R228). -/
def BufClass.code : BufClass → Nat
  | .save => 0
  | .park => 1
  | .drop => 2

/-- The class with a code. -/
def BufClass.ofCode (n : Nat) : BufClass := if n = 0 then .save else if n = 1 then .park else .drop

/-- The handle of a buffer (R228). -/
def Buf.handle (id : Nat) (b : Buf) : DWord :=
  BitVec.ofNat 64 (b.base % 2048 + (b.rows - 1) % 2048 * 2 ^ 12 + b.cls.code * 2 ^ 24 + id % 64 * 2 ^ 26
    + b.tag % 2 ^ 20 * 2 ^ 32 + b.gen % 256 * 2 ^ 56)

/-- BUFID and GEN of a handle (R228). -/
def handleId (h : DWord) : Nat := bits h.toNat 31 26
def handleGen (h : DWord) : Nat := bits h.toNat 63 56

/-- The buffer that a handle names for a team, if the handle is valid on the core (R228). -/
def Core.bufOf (c : Core) (team : Nat) (h : DWord) : Option Buf :=
  match c.bufs.find (handleId h) with
  | some b => if b.team = team ∧ b.gen = handleGen h ∧ ! b.parked then some b else none
  | none => none

/-- Whether a row belongs to no buffer. -/
def Core.rowFree (c : Core) (r : Nat) : Bool := ! c.bufs.any fun p => decide (p.2.base ≤ r ∧ r < p.2.base + p.2.rows)

/-- The lowest-numbered run of `n` free rows from row `r` on (R229). -/
def Core.findRun (c : Core) (n : Nat) : Nat → Nat → Nat → Option Nat
  | 0, _, _ => none
  | fuel + 1, r, k =>
    if k = n then some (r - n)
    else if r ≥ 2048 then none
    else c.findRun n fuel (r + 1) (if c.rowFree r then k + 1 else 0)

/-- A place for a buffer: its table entry and its rows. -/
inductive Place where
  | at (id base : Nat) | noEntry | noSpace
  deriving DecidableEq, Repr

/-- The free entry and run that an allocation takes (R229, R244). -/
def Core.place (c : Core) (rows : Nat) : Place :=
  let id := c.bufs.firstFree 64 0
  if id ≥ 64 then .noEntry
  else
    match c.findRun rows 2050 0 0 with
    | some base => .at id base
    | none => .noSpace

/-- The generation after one: from 255 to 1, never 0 (R228). -/
def nextGen (g : Nat) : Nat := if g ≥ 255 then 1 else g + 1

/-- Allocate a buffer over rows of a core: every row NEVER, the tag bounded by RETN, the generation advanced (R222,
R227, R228). -/
def Core.alloc (c : Core) (id base rows life : Nat) (cls : BufClass) (team num : Nat) : Buf × Core :=
  let gen := nextGen ((c.gens.find id).getD 0)
  let b : Buf := { base := base, rows := rows, tag := min life c.retnUs, cls := cls, team := team, num := num, gen := gen
                   circ := none, parked := false }
  (b, { c with bufs := c.bufs.put id b, gens := c.gens.put id gen
               sp := c.sp.filter fun p => ! decide (base ≤ p.1 ∧ p.1 < base + rows) })

/-- Release a buffer's rows and entry (R227). -/
def Core.freeBuf (c : Core) (id : Nat) : Core := { c with bufs := c.bufs.del id }

/-! ## Accesses (R225, R230, R242) -/

/-- How an access of one lane is classified: out of range with its KIND, a cause, or a row and a column. -/
inductive SpClass where
  | out (kind : Nat) | trap (code sub : Nat) | ok (row col : Nat)
  deriving DecidableEq, Repr

/-- Classify an access of `n` bytes at an offset (R225, R230). -/
def Core.classify (c : Core) (now : Nat) (b : Option Buf) (o n : Nat) (reads : Bool) : SpClass :=
  match b with
  | none => .out 1
  | some b =>
    if o + n > 1024 * b.rows then .out 0
    else if o % n ≠ 0 then .trap 0x11 1
    else
      let row := b.base + o / 1024
      let r := c.row row
      if reads && r.st == .void then .trap 0x14 2
      else if reads && r.expired now (c.keepNs b) then .trap 0x14 1
      else .ok row (o % 1024)

/-- A lane's access to the scratchpad. -/
structure SpProbe where
  lane : Nat
  off : Nat
  cls : SpClass
  deriving DecidableEq, Repr

/-- The causes among the lanes' accesses. -/
def spTraps (ps : List SpProbe) : List (Nat × Nat × Nat) :=
  ps.filterMap fun p => match p.cls with
    | .trap code sub => some (p.lane, code, sub)
    | _ => none

/-- The lowest out-of-range lane latches SPOOR (R230, R231). -/
def State.noteOut (s : State) (e : Env) (h : DWord) (write : Bool) (ps : List SpProbe) : State :=
  ps.foldl (fun s p => match p.cls with
    | .out k => s.setSpoor e.team.launch (spoorWord p.off (handleId h) k write p.lane (coreOf e.gid))
    | _ => s) s

/-- Classify the accesses of lanes at their offsets. -/
def State.spProbe (s : State) (e : Env) (h : DWord) (n : Nat) (reads : Bool) (lanes : List (Nat × Nat)) : List SpProbe :=
  let c := s.core (coreOf e.gid)
  let b := c.bufOf e.g.team h
  lanes.map fun p => ⟨p.1, p.2, c.classify s.time b p.2 n reads⟩

/-- The words of a core's scratchpad that stores of other groups still in progress have overwritten (R239). -/
def State.padOld (s : State) (core gid : Nat) : List (Nat × Word) :=
  (s.groupsOn core).flatMap fun (p : Nat × Group) =>
    if p.1 = gid then []
    else p.2.ops.flatMap fun o => match o.act with
      | .spadStore _ _ old => old
      | _ => []

/-- Word `w` of a row's content, replaced. -/
def putWord (d : BitVec 8192) (w : Nat) (x : Word) : BitVec 8192 :=
  (d &&& ~~~(BitVec.ofNat 8192 (0xFFFFFFFF * 2 ^ (32 * w)))) ||| BitVec.ofNat 8192 (x.toNat * 2 ^ (32 * w))

/-- A row of a core as an access of a group finds it: each word that another group's store in progress overwrites is the old
or the new one (R239). -/
def State.padRow (s : State) (core gid row : Nat) : SpRow :=
  (s.padOld core gid).foldl (fun (r : SpRow) p =>
    if p.1 / 256 = row ∧ Config.freeBit s.tick (2 ^ 24 + p.1) then { r with data := putWord r.data (p.1 % 256) p.2 } else r)
    ((s.core core).row row)

/-- Read one classified lane of a group. -/
def State.spRead (s : State) (core gid n : Nat) (p : SpProbe) : List Byte :=
  match p.cls with
  | .ok row col => (s.padRow core gid row).read col n
  | _ => List.replicate n 0

/-- Whether a classified lane reads a poisoned sector (R232). -/
def State.spPoisoned (s : State) (core n : Nat) (p : SpProbe) : Bool :=
  match p.cls with
  | .ok row col => ((s.core core).row row).readsPoison col n
  | _ => false

/-- Write one classified lane. -/
def State.spWrite (s : State) (core : Nat) (b : Option Buf) (p : SpProbe) (bs : List Byte) : State :=
  match b, p.cls with
  | some b, .ok row col => s.modCore core fun c => c.writeRow b s.time row col bs
  | _, _ => s

/-- The sectors of a row that the lanes of one access cover together. -/
def sectorsOf (row n : Nat) (ps : List SpProbe) : Word :=
  maskOf fun k => (List.range 32).all fun j => ps.any fun p => match p.cls with
    | .ok r col => r == row && decide (col ≤ 32 * k + j ∧ 32 * k + j < col + n)
    | _ => false

/-- The rows that classified lanes touch. -/
def rowsIn (ps : List SpProbe) : List Nat :=
  (ps.filterMap fun p => match p.cls with
    | .ok r _ => some r
    | _ => none).eraseDups

/-- The lanes of one access lift the marks of the sectors that they cover whole (R117, R232). -/
def State.liftMarks (s : State) (core n : Nat) (ps : List SpProbe) : State :=
  s.modCore core fun c =>
    { c with sp := (rowsIn ps).foldl (fun (sp : Tbl SpRow) row =>
        sp.modify row fun r => { r with poison := r.poison &&& ~~~(sectorsOf row n ps) }) c.sp }

/-- Write the classified lanes of one access, in their order. -/
def State.spWrites (s : State) (core n : Nat) (b : Option Buf) (ps : List SpProbe) (bytes : Nat → List Byte) : State :=
  if b.isSome then (ps.foldl (fun s p => s.spWrite core b p (bytes p.lane)) s).liftMarks core n ps else s

/-- The aligned words that classified lanes write, as they stand before (R239). -/
def State.padWords (s : State) (core n : Nat) (ps : List SpProbe) : List (Nat × Word) :=
  (ps.flatMap fun p => match p.cls with
    | .ok row col => (List.range ((n + 3) / 4)).map fun j => 256 * row + col / 4 + j
    | _ => []).eraseDups.map fun w =>
      (w, BitVec.ofNat 32 (ofBytes (((s.core core).row (w / 256)).read (4 * (w % 256)) 4)))

/-- What a write records for SPFREE and for accesses that overlap it (R239, R245). -/
def State.spWriting (s : State) (core n : Nat) (b : Option Buf) (h : DWord) (ps : List SpProbe) : OpAct :=
  match b with
  | some b => .spadStore (handleId h) b.gen (s.padWords core n ps)
  | none => .none

/-- What an access records for SPFREE (R245). -/
def spAct (b : Option Buf) (h : DWord) : OpAct :=
  match b with
  | some b => .spad (handleId h) b.gen
  | none => .none

/-- The body of a scratchpad load (R242). -/
def spLoadBody (base n k d : Nat) (offs : Env → List (Nat × Nat)) (e : Env) (s : State) : Res :=
  let h := e.g.sreg base
  let core := coreOf e.gid
  let ps := s.spProbe e h n true (offs e)
  match causeOf (spTraps ps) with
  | some c => .trap c s
  | none =>
    let val := fun l => match ps.find? fun p => p.lane == l with
      | some p => s.spRead core e.gid n p
      | none => []
    let t := s.noteOut e h false ps
    let t := if ps.any (s.spPoisoned core n) then t.setChk e.team.launch chkPoison else t
    .later (loadEff d k e.act val) (spAct ((s.core core).bufOf e.g.team h) h) t

/-- The body of a scratchpad store (R242). -/
def spStoreBody (base n k d : Nat) (offs : Env → List (Nat × Nat)) (e : Env) (s : State) : Res :=
  let h := e.g.sreg base
  let core := coreOf e.gid
  let b := (s.core core).bufOf e.g.team h
  let ps := s.spProbe e h n false (offs e)
  match causeOf (spTraps ps) with
  | some c => .trap c s
  | none =>
    .later {} (s.spWriting core n b h ps) ((s.noteOut e h true ps).spWrites core n b ps fun l => e.g.laneBytes d k n l)

/-- The offsets of the active lanes: vO (R242), or consecutive blocks that never wrap (R230, R243). -/
def Env.offsets (e : Env) (off : Nat) : List (Nat × Nat) := (lanesOf e.act).map fun l => (l, (e.g.v32 off l).toNat)
def Env.offBlocks (e : Env) (base n : Nat) : List (Nat × Nat) :=
  (lanesOf e.act).map fun l => (l, (e.g.sreg (base + 1)).toNat % 2 ^ 32 + n * l)

/-- LDS (R242). -/
def execLds (f : MX) (s : State) : Host.Outcome State Fault Refusal :=
  let z := f.sz.toNat
  issue (.lds f) (loadShape f 0x04 (accRegs z) [f.off.toNat])
    (spLoadBody f.base.toNat (accBytes z) (accRegs z) f.data.toNat fun e => e.offsets f.off.toNat) s

/-- LDSB (R243). -/
def execLdsb (f : MX) (s : State) : Host.Outcome State Fault Refusal :=
  let w := blkWords f.sz.toNat
  let b := f.base.toNat
  issue (.ldsb f) { loadShape f 0x05 w [] with sr := span b 2 }
    (spLoadBody b (4 * w) w f.data.toNat fun e => e.offBlocks b (4 * w)) s

/-- STS (R242). -/
def execSts (f : MX) (s : State) : Host.Outcome State Fault Refusal :=
  let z := f.sz.toNat
  issue (.sts f) (storeShape f 0x06 (accRegs z) [f.off.toNat])
    (spStoreBody f.base.toNat (accBytes z) (accRegs z) f.data.toNat fun e => e.offsets f.off.toNat) s

/-- STSB (R243). -/
def execStsb (f : MX) (s : State) : Host.Outcome State Fault Refusal :=
  let w := blkWords f.sz.toNat
  let b := f.base.toNat
  issue (.stsb f) { storeShape f 0x07 w [] with sr := span b 2 }
    (spStoreBody b (4 * w) w f.data.toNat fun e => e.offBlocks b (4 * w)) s

/-! ## Allocation, release, renewal and queries (R244 to R247) -/

/-- Whether an SPALLOC request is malformed (R244). -/
def badRequest (r : Nat) : Bool :=
  bits r 11 0 = 0 || decide (bits r 11 0 > 2048) || bits r 13 12 = 3 || bits r 51 32 = 0 || bits r 31 14 ≠ 0
    || bits r 63 52 ≠ 0

/-- SPALLOC's result and the core after it (R244). Its buffer has no number of the kernel's table (R459). -/
def Core.spalloc (c : Core) (team num r : Nat) : DWord × Core :=
  if badRequest r then (3, c)
  else
    match c.place (bits r 11 0) with
    | .noEntry => (2, c)
    | .noSpace => (1, c)
    | .at id base =>
      let (b, c) := c.alloc id base (bits r 11 0) (bits r 51 32) (BufClass.ofCode (bits r 13 12)) team num
      (b.handle id, c)

/-- The number of a new buffer of a team on a core: behind those it has, the kernel's first (R459). -/
def Core.nextNum (c : Core) (team kernel : Nat) : Nat :=
  (c.bufs.filter fun p => p.2.team == team).foldl (fun n p => max n (p.2.num + 1)) kernel

/-- NBUF of the descriptor (R139). -/
def Launch.nbuf (l : Launch) : Nat := field l.desc 0x12 1

/-- SPALLOC (R244). -/
def execSpalloc (f : MX) (s : State) : Host.Outcome State Fault Refusal :=
  let b := f.base.toNat
  issue (.spalloc f) { sr := [b], sw := [b], opc := 0x20, out := .both } (fun e s =>
    let c := s.core (coreOf e.gid)
    let (v, c) := c.spalloc e.g.team (c.nextNum e.g.team e.launch.nbuf) (e.g.sreg b).toNat
    .done { sw := [(b, v)] } ((s.setCore (coreOf e.gid) c).notSafe e.g.team)) s

/-- Whether a copy reads or writes a buffer of a core. -/
def Copy.touches (c : Copy) (core id gen : Nat) : Bool :=
  c.ends.any fun x => x.core == core && x.buf == id && x.gen == gen

/-- The buffer that a GATHER or SCATTER under way reads or writes (R316). -/
def Group.rowsUnder (g : Group) : Option DWord :=
  match g.clause.map Clause.instr with
  | some (.ok (.gather f, _)) => some (g.sreg (f.base.toNat + 4))
  | some (.ok (.scatter f, _)) => some (g.sreg (f.base.toNat + 4))
  | _ => none

/-- Whether an access of a group of the core to a buffer, issued before request number `n`, is incomplete: under a counter,
or of a GATHER or SCATTER that has begun (R245, R317). -/
def State.spadBusy (s : State) (core id gen n : Nat) : Bool :=
  (s.groupsOn core).any fun p =>
    (p.2.ops.any fun o => decide (o.id < n) && (match o.act with
      | .spad b k => b == id && k == gen
      | .spadStore b k _ => b == id && k == gen
      | _ => false))
    || (match p.2.wait, p.2.rowsUnder with
        | some w, some h => handleId h == id && handleGen h == gen && decide (w.arrival < n)
        | _, _ => false)

/-- SPFREE (R245). -/
def execSpfree (f : MX) (s : State) : Host.Outcome State Fault Refusal :=
  let b := f.base.toNat
  issue (.spfree f) { sr := [b], opc := 0x21, out := .output } (fun e s =>
    let h := e.g.sreg b
    let core := coreOf e.gid
    match (s.core core).bufOf e.g.team h with
    | none => .done {} ((s.setSpoor e.team.launch (spoorWord 0 (handleId h) 1 true 0 core)).notSafe e.g.team)
    | some x =>
      let n := match e.g.wait with
        | some ⟨.copies, _, n, _, _⟩ => n
        | _ => s.fresh
      if s.spadBusy core (handleId h) x.gen n || s.copies.any fun c => c.2.touches core (handleId h) x.gen then
        .wait .copies 0 0 s
      else .done {} ((s.modCore core fun c => c.freeBuf (handleId h)).notSafe e.g.team)) s

/-- SPRENEW (R246). -/
def execSprenew (f : MX) (s : State) : Host.Outcome State Fault Refusal :=
  let b := f.base.toNat
  issue (.sprenew f) { sr := [b], dc := f.dc.toNat, opc := 0x22, out := .output } (fun e s =>
    let h := e.g.sreg b
    let core := coreOf e.gid
    match (s.core core).bufOf e.g.team h with
    | none => .done {} (s.setSpoor e.team.launch (spoorWord 0 (handleId h) 1 false 0 core))
    | some x => .later {} (spAct (some x) h) (s.modCore core fun c => c.renewBuf s.time x)) s

/-- What SPQUERY reports for an offset (R247). -/
def Core.query (c : Core) (now : Nat) (b : Option Buf) (o : Nat) : Word :=
  match b with
  | none => 0x300000
  | some b =>
    if o + 1 > 1024 * b.rows then 0x300000
    else
      let r := c.row (b.base + o / 1024)
      match r.st with
      | .never => 0
      | .void => 0x200000
      | .stamped => BitVec.ofNat 32 (2 ^ 20 + (c.keepNs b - (now - r.stamp)) / 1000)

/-- The counts of a circular buffer (R235). -/
def Circ.infl (c : Circ) : Nat := c.claims.length

/-- What SPQUERY.cb reports (R247). -/
def circWord (b : Option Buf) : Word :=
  match b.bind (·.circ) with
  | some c => BitVec.ofNat 32 (c.free + c.filled * 2 ^ 8 + c.held * 2 ^ 16 + c.infl * 2 ^ 24)
  | none => 0

/-- SPQUERY (R247). -/
def execSpquery (f : MX) (s : State) : Host.Outcome State Fault Refusal :=
  let z := f.sz.toNat
  issue (.spquery f) (loadShape f 0x23 1 (if z = 0 then [f.off.toNat] else [])) (fun e s =>
    let c := s.core (coreOf e.gid)
    let h := e.g.sreg f.base.toNat
    let b := c.bufOf e.g.team h
    .later { vw := [(f.data.toNat, rowOf fun l =>
      if z = 0 then c.query s.time b (e.g.v32 f.off.toNat l).toNat else circWord b, e.act)] } (spAct b h) s) s

/-! ## Circular buffers (R235 to R237, R248 to R250) -/

/-- The state after CBCFG (R235). -/
def newCirc (nslot srows : Nat) : Circ :=
  { nslot := nslot, srows := srows, free := nslot, filled := 0, held := 0, wnext := 0, rnext := 0, claims := [] }

/-- Claim the next slot (R235): the slot and the state after it. -/
def Circ.claim (c : Circ) : Nat × Circ :=
  (c.wnext, { c with free := c.free - 1, wnext := (c.wnext + 1) % c.nslot, claims := c.claims ++ [(c.wnext, false)] })

/-- Fill the landed slots that no earlier claimed slot holds up (R235). -/
def Circ.settle (c : Circ) : Circ :=
  let n := (c.claims.takeWhile (·.2)).length
  { c with claims := c.claims.drop n, filled := c.filled + n }

/-- Every byte of a claimed slot has landed (R235). -/
def Circ.landed (c : Circ) (slot : Nat) : Circ :=
  Circ.settle { c with claims := c.claims.map fun p => if p.1 = slot then (slot, true) else p }

/-- Change the circular buffer of an entry. -/
def Core.setCirc (c : Core) (id : Nat) (x : Option Circ) : Core :=
  { c with bufs := c.bufs.modify id fun b => { b with circ := x } }

/-- Whether CBCFG refuses its configuration (R248). -/
def badCfg (b : Buf) (v : Nat) : Bool :=
  bits v 11 11 ≠ 0 || bits v 63 20 ≠ 0
    || (bits v 19 12 ≠ 0 && (bits v 10 0 = 0 || decide (bits v 19 12 * bits v 10 0 > b.rows)))

/-- CBCFG (R248). While it waits, claims are not admitted. -/
def execCbcfg (f : MX) (s : State) : Host.Outcome State Fault Refusal :=
  let b := f.base.toNat
  issue (.cbcfg f) { sr := span b 2, opc := 0x24, out := .output } (fun e s =>
    let h := e.g.sreg b
    let v := (e.g.sreg (b + 1)).toNat
    let core := coreOf e.gid
    let refused := s.setSpoor e.team.launch (spoorWord 0 (handleId h) 2 false 0 core)
    match (s.core core).bufOf e.g.team h with
    | none => .done {} refused
    | some x =>
      if badCfg x v then .done {} refused
      else if ((x.circ.map Circ.infl).getD 0) > 0 then .wait .circ (handleId h) 1 s
      else .done {} (s.modCore core fun c =>
        c.setCirc (handleId h) (if bits v 19 12 = 0 then none else some (newCirc (bits v 19 12) (bits v 10 0))))) s

/-- Whether a CBCFG waits on a buffer of a core, so that no claim is admitted (R248). -/
def State.cfgWaits (s : State) (core id : Nat) : Bool :=
  (s.groupsOn core).any fun p => (match p.2.wait with
    | some ⟨.circ, _, _, lim, 1⟩ => lim == id
    | _ => false)

/-- The CBWAITs on a buffer that reached the core before request number `n` (R249). -/
def State.takersAhead (s : State) (gid id n : Nat) : Nat :=
  ((s.groupsOn (coreOf gid)).filter fun p => p.1 != gid && (match p.2.wait with
    | some ⟨.circ, _, k, lim, 0⟩ => lim == id && decide (k < n)
    | _ => false)).length

/-- The take of CBWAIT (R235, R249): the offset of the slot, and the state after it. -/
def Circ.take (c : Circ) : Word × Circ :=
  (BitVec.ofNat 32 (1024 * c.srows * c.rnext),
   { c with filled := c.filled - 1, held := c.held + 1, rnext := (c.rnext + 1) % c.nslot })

/-- CBWAIT (R249). -/
def execCbwait (f : MX) (s : State) : Host.Outcome State Fault Refusal :=
  let d := f.data.toNat
  issue (.cbwait f) { loadShape f 0x25 1 [] with out := .both } (fun e s =>
    let h := e.g.sreg f.base.toNat
    let id := handleId h
    let core := coreOf e.gid
    let deliver := fun (o : Word) => ({ vw := [(d, rowOf fun _ => o, e.act)] } : Eff)
    match ((s.core core).bufOf e.g.team h).bind (·.circ) with
    | none => .done (deliver 0xFFFFFFFF) (s.setSpoor e.team.launch (spoorWord 0 id 2 false 0 core))
    | some c =>
      let place := match e.g.wait with
        | some ⟨.circ, _, n, _, _⟩ => n
        | _ => s.fresh
      if c.filled > s.takersAhead e.gid id place then
        .done (deliver c.take.1) (s.modCore core fun k => k.setCirc id (some c.take.2))
      else if f.sz.toNat = 1 then .done (deliver 0xFFFFFFFF) s
      else .wait .circ id 0 s) s

/-- CBREL (R250). -/
def execCbrel (f : MX) (s : State) : Host.Outcome State Fault Refusal :=
  issue (.cbrel f) { sr := [f.base.toNat], opc := 0x26, out := .output } (fun e s =>
    let h := e.g.sreg f.base.toNat
    let id := handleId h
    let core := coreOf e.gid
    match ((s.core core).bufOf e.g.team h).bind (·.circ) with
    | none => .done {} (s.setSpoor e.team.launch (spoorWord 0 id 2 false 0 core))
    | some c =>
      if c.held = 0 then .done {} (s.setSpoor e.team.launch (spoorWord 0 id 2 false 0 core))
      else .done {} (s.modCore core fun k => k.setCirc id (some { c with held := c.held - 1, free := c.free + 1 }))) s

end Sys2Proof.Machine
end

