-- ==== Sys2Proof/Machine/Atomics.lean ====
section
/-! DEFINITION. Atomics on global memory and on the scratchpad (R310 to R315, R331, R332), GATHER and SCATTER (R316,
R317). -/

namespace Sys2Proof.Machine

open Sys2Proof

/-! ## Operations (R313, R315) -/

/-- The new memory value: opcode, bytes of the operand, old value, operand, and the new value of a comparison (R313,
R315). -/
def atomOp (op n m b c : Nat) : Nat :=
  let w := 8 * n
  match op with
  | 0x09 => (m + b) % 2 ^ w
  | 0x0A => if signed w m ≤ signed w b then m else b
  | 0x0B => min m b
  | 0x0C => if signed w b ≤ signed w m then m else b
  | 0x0D => max m b
  | 0x0E => m &&& b
  | 0x0F => m ||| b
  | 0x10 => m ^^^ b
  | 0x11 => b
  | 0x12 => if m = b then c else m
  | 0x13 => if n = 4 then (fp32.addV rne (fp32.read m) (fp32.read b)).1 else (fp64.addV rne (fp64.read m) (fp64.read b)).1
  | _ => if b ≤ m then 0 else m + 1

/-- Whether an operation makes its team not rollback-safe when performed on global memory (R126). -/
def atomUnsafe (op : Nat) : Bool := op == 0x09 || op == 0x11 || op == 0x12 || op == 0x13 || op == 0x14

/-! ## Performing an atomic at home (R117, R311, R331, R332) -/

/-- The issuing core's copy of the line goes home and is dropped; so do the dirty bytes of its tower's RDC (R330,
R332). -/
def State.expel (s : State) (core pa : Nat) : State :=
  let s := s.flushL1 core false fun l => l.pline == pa / 128
  match s.home 8 pa with
  | .here p => s.flushRdc (towerOfCore core) (s.copyOf (lineNo p))
  | _ => s

/-- One atomic at its home: the old value, and the state after it. A poisoned location computes with zero and loses its
mark (R117). -/
def State.atomHome (s : State) (launch pa n : Nat) (f : Nat → Nat) : Nat × State :=
  match s.home 8 pa with
  | .here p =>
    let (bs, s) := s.homeRead p n
    let bad := s.poisoned (homeKey p)
    let old := if bad then 0 else ofBytes bs
    let s := s.homeWrite p (toBytes n (f old))
    let s := if bad then (s.clearPoison (sectorOf (homeKey p))).setChk launch chkPoison else s
    (old, s.noteAtomic p)
  | _ => (0, s)

/-- One atomic of the scratchpad: the old value, and the state after it (R311, R312). -/
def State.atomSpad (s : State) (core launch n : Nat) (b : Option Buf) (p : SpProbe) (f : Nat → Nat) : Nat × State :=
  match b, p.cls with
  | some b, .ok row col =>
    let r := (s.core core).row row
    let bad := r.readsPoison col n
    let old := ofBytes (r.read col n)
    let s := s.modCore core fun c => c.writeRow b s.time row col (toBytes n (f old))
    let s := if bad then
      (s.modCore core fun c =>
        { c with sp := c.sp.modify row fun r => { r with poison := r.poison &&& ~~~(BitVec.ofNat 32 (2 ^ (col / 32))) } }).setChk
          launch chkPoison
      else s
    (old, s)
  | _, _ => (0, s)

/-! ## The chunk reserve before atomics (R294) -/

/-- Whether a group waits on the chunk reserve and has not been released. -/
def Group.reserved (g : Group) : Bool :=
  match g.wait with
  | some ⟨.reserve, _, _, _, 0⟩ => true
  | _ => false

/-- The lanes that the chunk reserve holds. -/
def State.heldByReserve (s : State) (e : Env) (ps : List Probe) : List (Nat × Nat) :=
  ps.filterMap fun p => match p.chk with
    | .ok pa _ => if spaceOf pa ≠ .link ∧ (s.reserveHolds pa ∨ (e.g.reserved = true ∧ spaceOf (homeKey pa) = .window))
                  then some (p.va, homeTower pa) else none
    | _ => none

/-- The wait of an instruction whose write the chunk reserve of a tower holds, with its fault of KIND 5 (R282, R294). -/
def waitReserve (e : Env) (va t : Nat) (s : State) : Res :=
  .wait .reserve t 0 (s.reportFault e.team.ctx va 5 (coreOf e.gid) 0 false false)

/-! ## Global atomics (R282, R285, R314, R416) -/

/-- An atomic of one lane: its operation, size, operand and comparison's new value. -/
structure Atom where
  op : Nat
  n : Nat
  b : Nat
  c : Nat
  deriving DecidableEq, Repr

def Atom.fn (a : Atom) (m : Nat) : Nat := atomOp a.op a.n m a.b a.c

/-- The request of an atomic to a link aperture; AFADD begins with a read (R416). -/
def Atom.request (a : Atom) : PeerOp :=
  if a.op = 0x13 then .read else .atomic a.op (BitVec.ofNat 64 a.b) (BitVec.ofNat 64 a.c)

/-- The exchange that an AFADD sends for a value it has seen (R416). -/
def Atom.exchange (a : Atom) (m : Nat) : PeerOp := .atomic 0x12 (BitVec.ofNat 64 m) (BitVec.ofNat 64 (a.fn m))

/-- What follows a response to an AFADD: an exchange for the value read, until one finds the value that it compares with
(R416). -/
def Atom.again (a : Atom) (r : PeerReq) : Option PeerOp :=
  if a.op = 0x13 then
    match r.op with
    | .read => some (a.exchange (ofBytes r.value))
    | .atomic _ m _ => if m.toNat = ofBytes r.value then none else some (a.exchange (ofBytes r.value))
    | .write _ _ => none
  else none

/-- Perform the checked lanes in ascending order; a lane in a link aperture takes its old value from the response, and a
posted one leaves (R314, R416, R418). -/
def State.atomLanes (s : State) (e : Env) (red : Bool) (peer : List (Nat × List Byte)) (atom : Nat → Atom) :
    List Probe → List (Nat × Nat) × State
  | [] => ([], s)
  | p :: t =>
    let one : Nat × State := match p.chk with
      | .ok pa _ =>
        if spaceOf pa = .link then
          (if red then
            let a := atom p.lane
            (0, s.post (.atomic a.op (BitVec.ofNat 64 a.b) (BitVec.ofNat 64 a.c)) e.gid e.team.launch e.team.ctx pa a.n)
           else (ofBytes (((peer.find? fun q => q.1 == p.lane).map (·.2)).getD []), s))
        else
          (s.expel (coreOf e.gid) pa).atomHome e.team.launch pa (atom p.lane).n (atom p.lane).fn
      | _ => (0, s)
    let (r, s) := one.2.atomLanes e red peer atom t
    ((p.lane, one.1) :: r, s)

/-- Log the reductions of lanes whose page is not present or that the chunk reserve holds: one entry for each (R285). -/
def State.logReds (s : State) (e : Env) (atom : Nat → Atom) (ps : List Probe) : State :=
  ps.foldl (fun s p => match s.mustLog p.chk with
    | some r =>
      let a := atom p.lane
      s.addLog e (p.va / 128) { data := 0, dirty := byteMask (p.va % 128) a.n }
        (some (a.op, a.n == 8, p.va % 128, BitVec.ofNat 64 a.b)) r
    | none => s) s

/-- The body of a global atomic: checks of all lanes, waits or the log, then the lanes in order (R314). -/
def atomBody (red one : Bool) (n : Nat) (addrs : Env → List (Nat × Nat)) (atom : Env → Nat → Atom)
    (eff : Env → (Nat → Nat) → Eff) (e : Env) (s : State) : Res :=
  let (ps, s) := s.probe e .atomic .atomic red n (addrs e)
  let finish := fun (peer : List (Nat × List Byte)) (ps : List Probe) (s : State) =>
    let (olds, s) := s.atomLanes e red peer (atom e) ps
    let s := if atomUnsafe (atom e (lowLane e.act)).op then s.notSafe e.g.team else s
    Res.done (if red then {} else eff e fun l => ((olds.find? fun p => p.1 == l).map (·.2)).getD 0) s
  if red then
    match causeOf (trapsOf ps) with
    | some c => .trap (if one then e.wide c else c) s
    | none =>
      if ps.any fun p => p.chk = .held then .wait .held 0 0 s
      else
        let logged := ps.filter fun p => (s.mustLog p.chk).isSome
        let s := s.reportStores e ps
        if logged.length > s.logFree (coreOf e.gid) then .wait .log 0 0 s
        else finish [] (ps.filter fun p => (s.mustLog p.chk).isNone) (s.logReds e (atom e) logged)
  else
    match s.loadGate e 0 ps with
    | (.trap c, s) => .trap (if one then e.wide c else c) s
    | (.wait k ph, s) => .wait k 0 ph s
    | (.open, s) =>
      match s.heldByReserve e ps with
      | (va, t) :: _ => waitReserve e va t s
      | [] =>
        match s.peerData e n (fun l => (atom e l).request) (fun r => (atom e r.owner).again r) ps with
        | (none, id, s) => .wait (.peer id) 0 0 s
        | (some d, _, s) => finish d ps s

/-- Fields of an A-family word (R312). -/
def atomSpace (f : MX) : Bool := f.sz.getLsbD 1
def atomBytes (f : MX) : Nat := if f.sz.getLsbD 0 then 8 else 4
def atomRed (f : MX) : Bool := f.off.getLsbD 5
def atomOff (f : MX) : Nat := f.off.toNat % 32

/-- A lane's operand from `n / 4` registers. -/
def Group.word (g : Group) (d n l : Nat) : Nat := ofBytes (g.laneBytes d (n / 4) n l)

/-- The atomic of a lane: the operand in vX, or the comparison in vX and the new value behind it (R312). -/
def atomOf (f : MX) (op : Nat) (e : Env) (l : Nat) : Atom :=
  let n := atomBytes f
  let d := f.data.toNat
  { op := op, n := n, b := e.g.word d n l, c := if op = 0x12 then e.g.word (d + n / 4) n l else 0 }

/-- The results of an atomic: the old values in vX (R312, R314). -/
def atomEff (f : MX) (e : Env) (old : Nat → Nat) : Eff :=
  loadEff f.data.toNat (atomBytes f / 4) e.act fun l => toBytes (atomBytes f) (old l)

/-- Perform the lanes of a scratchpad atomic in ascending order. -/
def State.atomSpads (s : State) (e : Env) (b : Option Buf) (atom : Nat → Atom) : List SpProbe → List (Nat × Nat) × State
  | [] => ([], s)
  | p :: t =>
    let (old, s) := s.atomSpad (coreOf e.gid) e.team.launch (atom p.lane).n b p (atom p.lane).fn
    let (r, s) := s.atomSpads e b atom t
    ((p.lane, old) :: r, s)

/-- The body of a scratchpad atomic (R312, R314). -/
def atomSpBody (f : MX) (op : Nat) (e : Env) (s : State) : Res :=
  let h := e.g.sreg f.base.toNat
  let b := (s.core (coreOf e.gid)).bufOf e.g.team h
  let ps := s.spProbe e h (atomBytes f) true (e.offsets (atomOff f))
  match causeOf (spTraps ps) with
  | some c => .trap c s
  | none =>
    let act := s.spWriting (coreOf e.gid) (atomBytes f) b h ps
    let (olds, s) := (s.noteOut e h true ps).atomSpads e b (atomOf f op e) ps
    .later (if atomRed f then {} else atomEff f e fun l => ((olds.find? fun p => p.1 == l).map (·.2)).getD 0) act s

/-- Issue an A-family atomic (R312, R314). -/
def atomic (i : Instr) (f : MX) (op : Nat) (s : State) : Host.Outcome State Fault Refusal :=
  let k := atomBytes f / 4
  let d := f.data.toNat
  issue i
    { vr := atomOff f :: span d (if op = 0x12 then 2 * k else k), sr := [f.base.toNat]
      vw := if atomRed f then [] else span d k, dc := f.dc.toNat, opc := op, sz := f.sz.toNat
      out := if atomRed f then .output else .both }
    (if atomSpace f then atomSpBody f op
     else atomBody (atomRed f) false (atomBytes f) (fun e => e.addrs f.base.toNat (atomOff f)) (atomOf f op) (atomEff f)) s

/-- AADD (R313). -/
def execAadd (f : MX) (s : State) : Host.Outcome State Fault Refusal := atomic (.aadd f) f 0x09 s

/-- AMIN.i (R313). -/
def execAminI (f : MX) (s : State) : Host.Outcome State Fault Refusal := atomic (.aminI f) f 0x0A s

/-- AMIN.n (R313). -/
def execAminN (f : MX) (s : State) : Host.Outcome State Fault Refusal := atomic (.aminN f) f 0x0B s

/-- AMAX.i (R313). -/
def execAmaxI (f : MX) (s : State) : Host.Outcome State Fault Refusal := atomic (.amaxI f) f 0x0C s

/-- AMAX.n (R313). -/
def execAmaxN (f : MX) (s : State) : Host.Outcome State Fault Refusal := atomic (.amaxN f) f 0x0D s

/-- AAND (R313). -/
def execAand (f : MX) (s : State) : Host.Outcome State Fault Refusal := atomic (.aand f) f 0x0E s

/-- AOR (R313). -/
def execAor (f : MX) (s : State) : Host.Outcome State Fault Refusal := atomic (.aor f) f 0x0F s

/-- AXOR (R313). -/
def execAxor (f : MX) (s : State) : Host.Outcome State Fault Refusal := atomic (.axor f) f 0x10 s

/-- AXCHG (R313). -/
def execAxchg (f : MX) (s : State) : Host.Outcome State Fault Refusal := atomic (.axchg f) f 0x11 s

/-- ACAS (R312, R313). -/
def execAcas (f : MX) (s : State) : Host.Outcome State Fault Refusal := atomic (.acas f) f 0x12 s

/-- AFADD (R315). -/
def execAfadd (f : MX) (s : State) : Host.Outcome State Fault Refusal := atomic (.afadd f) f 0x13 s

/-- AINCW (R313). -/
def execAincw (f : MX) (s : State) : Host.Outcome State Fault Refusal := atomic (.aincw f) f 0x14 s

/-- The old value of a scalar atomic. -/
def scalarOld (d : Nat) (e : Env) (old : Nat → Nat) : Eff := { sw := [(d, BitVec.ofNat 64 (old (lowLane e.act)))] }

/-- SAADD (R310). -/
def execSaadd (f : SR) (s : State) : Host.Outcome State Fault Refusal :=
  issue (.saadd f)
    { sr := f.a.toNat :: srBRegs f, sw := [f.d.toNat], dc := scalarDc f, opc := 0x5E, out := .both }
    (atomBody false true 8 (fun e => e.once (srA f e.g).toNat) (fun e _ => ⟨0x09, 8, (srB f e.g).toNat, 0⟩)
      (scalarOld f.d.toNat)) s

/-- SACAS (R310). -/
def execSacas (f : SR) (s : State) : Host.Outcome State Fault Refusal :=
  issue (.sacas f)
    { sr := f.d.toNat :: f.a.toNat :: srBRegs f, sw := [f.d.toNat], dc := scalarDc f, opc := 0x5F, out := .both }
    (atomBody false true 8 (fun e => e.once (srA f e.g).toNat)
      (fun e _ => ⟨0x12, 8, (e.g.sreg f.d.toNat).toNat, (srB f e.g).toNat⟩) (scalarOld f.d.toNat)) s

/-! ## GATHER and SCATTER (R108, R316, R317) -/

/-- The fields of the six scalars (R316). -/
structure Rows6 where
  base : Nat
  stride : Nat
  list : Nat
  n : Nat
  rb : Nat
  handle : DWord
  off : Nat
  ok : Bool
  deriving DecidableEq, Repr

/-- Read and check the descriptor; `w` is the index width in bytes (R316). -/
def rows6 (g : Group) (b w : Nat) : Rows6 :=
  let x := fun k => (g.sreg (b + k)).toNat
  { base := x 0, stride := x 1, list := x 2, n := bits (x 3) 31 0, rb := bits (x 3) 47 32, handle := g.sreg (b + 4)
    off := bits (x 5) 31 0
    ok := x 0 % 16 = 0 && x 1 % 16 = 0 && x 2 % w = 0 && bits (x 3) 63 48 = 0 && bits (x 3) 47 32 % 16 = 0
      && decide (16 ≤ bits (x 3) 47 32 ∧ bits (x 3) 47 32 ≤ 4096) && x 5 % 16 = 0 && bits (x 5) 63 32 = 0 }

/-- The rows already done (R108). -/
def Group.done (g : Group) : Nat := if g.pidx.getLsbD 32 then g.pidx.toNat % 2 ^ 32 else 0

/-- PIDX with `n` units done (R108). -/
def pidxOf (n : Nat) : BitVec 33 := BitVec.ofNat 33 (2 ^ 32 + n)

def State.setPidx (s : State) (gid : Nat) (x : BitVec 33) : State := s.modGroup gid fun g => { g with pidx := x }

/-- The 16-byte pieces of a row in memory (R317). -/
def rowAddrs (d : Rows6) (i : Nat) : List (Nat × Nat) :=
  (List.range (d.rb / 16)).map fun j => (j, (d.base + i * d.stride + 16 * j) % 2 ^ 64)

/-- The 16-byte pieces of row `k` in the buffer. -/
def rowOffs (d : Rows6) (k : Nat) : List (Nat × Nat) :=
  (List.range (d.rb / 16)).map fun j => (j, d.off + k * d.rb + 16 * j)

/-- SPOOR events of once-per-group instructions have LANE 0 (R231). -/
def lane0 (ps : List SpProbe) : List SpProbe := ps.map fun p => { p with lane := 0 }

/-- Row `k` is done: go on behind it, or end (R317). -/
def rowDone (e : Env) (d : Rows6) (k : Nat) (s : State) : Res :=
  if k + 1 ≥ d.n then .done {} (s.setPidx e.gid 0) else .wait .other 0 0 (s.setPidx e.gid (pidxOf (k + 1)))

/-- A fault on row `k` (R317). -/
def rowTrap (e : Env) (k : Nat) (c : Cause) (s : State) : Res := .trap (e.wide c) (s.setPidx e.gid (pidxOf k))

/-- A wait inside row `k`: the rows before it are done (R108, R317). -/
def rowWait (e : Env) (k : Nat) (w : WaitKind) (lim ph : Nat) (s : State) : Res :=
  .wait w lim ph (s.setPidx e.gid (pidxOf k))

/-- Row `k` of GATHER, its index known (R317). -/
def gatherRow (d : Rows6) (k i : Nat) (e : Env) (s : State) : Res :=
  let core := coreOf e.gid
  let (ps, s) := s.probe e .load (.load 16) false 16 (rowAddrs d i)
  match s.loadGate e 0 ps with
  | (.trap c, s) => rowTrap e k c s
  | (.wait w ph, s) => rowWait e k w 0 ph s
  | (.open, s) =>
    match s.peerReads e 16 ps with
    | (none, id, s) => rowWait e k (.peer id) i 1 s
    | (some peer, _, s) =>
      let (bs, s) := s.readLanes e 16 peer readLdg ps
      let b := (s.core core).bufOf e.g.team d.handle
      let qs := s.spProbe e d.handle 16 false (rowOffs d k)
      let s := s.noteOut e d.handle true (lane0 qs)
      rowDone e d k (s.spWrites core 16 b qs (bytesOf bs))

/-- Row `k` of SCATTER, its index known (R317). -/
def scatterRow (d : Rows6) (k i : Nat) (e : Env) (s : State) : Res :=
  let core := coreOf e.gid
  let qs := s.spProbe e d.handle 16 true (rowOffs d k)
  let (ps, s) := s.probe e .store .store true 16 (rowAddrs d i)
  match causeOf (trapsOf ps ++ spTraps qs) with
  | some c => rowTrap e k c s
  | none =>
    let val := fun l => match qs.find? fun q => q.lane == l with
      | some q => s.spRead core e.gid 16 q
      | none => []
    match s.storeAll e ps val with
    | (.trap c, s) => rowTrap e k c s
    | (.wait w ph, s) => rowWait e k w 0 ph s
    | (.open, t) =>
      let t := t.noteOut e d.handle false (lane0 qs)
      rowDone e d k (if qs.any (s.spPoisoned core 16) then t.setChk e.team.launch chkPoison else t)

/-- The body of GATHER and SCATTER: one row at a time (R317). -/
def rowsBody (f : MX) (row : Rows6 → Nat → Nat → Env → State → Res) (e : Env) (s : State) : Res :=
  let w := if f.sz.toNat = 1 then 8 else 4
  let d := rows6 e.g f.base.toNat w
  let k := e.g.done
  if ! d.ok then .trap (e.cause 0x11 2) s
  else if k ≥ d.n then .done {} (s.setPidx e.gid 0)
  else
    match e.g.wait with
    | some ⟨.peer _, _, _, i, 1⟩ => row d k i e s
    | _ =>
      let (ps, s) := s.probe e .load (.load w) false w [(0, (d.list + k * w) % 2 ^ 64)]
      match s.loadGate e 0 ps with
      | (.trap c, s) => rowTrap e k c s
      | (.wait q ph, s) => rowWait e k q 0 ph s
      | (.open, s) =>
        match s.peerReads e w ps with
        | (none, id, s) => rowWait e k (.peer id) 0 0 s
        | (some peer, _, s) =>
          let (bs, s) := s.readLanes e w peer readLdg ps
          row d k (ofBytes (bytesOf bs 0)) e s

/-- GATHER (R316, R317). -/
def execGather (f : MX) (s : State) : Host.Outcome State Fault Refusal :=
  issue (.gather f) { sr := span f.base.toNat 6, opc := 0x15, sz := f.sz.toNat, out := .output } (rowsBody f gatherRow) s

/-- SCATTER (R316, R317). -/
def execScatter (f : MX) (s : State) : Host.Outcome State Fault Refusal :=
  issue (.scatter f) { sr := span f.base.toNat 6, opc := 0x16, sz := f.sz.toNat, out := .output } (rowsBody f scatterRow) s

end Sys2Proof.Machine
end

