-- ==== Sys2Proof/Machine/Ports.lean ====
section
/-! DEFINITION. Ports between lanes (R251 to R267): queues and neighbours, NPUSH, NPOP, NPEEK and NPSTAT, and the events
of ports. -/

namespace Sys2Proof.Machine

open Sys2Proof

/-! ## Neighbours (R251, R253, R255) -/

/-- The port at the other end (R251). -/
def farPort (p : Nat) : Nat := if p = 6 then 6 else if p % 2 = 0 then p + 1 else p - 1

/-- Row and column of a core in its tower's grid (R253). -/
def gridOf (core : Nat) : Nat × Nat :=
  let cl := core % 96 / 8
  let cpos := core % 8
  (2 * (cl / 4) + cpos / 4, 4 * (cl % 4) + cpos % 4)

/-- The core of a tower at a grid position. -/
def coreAt (tower row col : Nat) : Nat := 96 * tower + 8 * (4 * (row / 2) + col / 4) + 4 * (row % 2) + col % 4

/-- The core one step away through a port, if the grid has one (R251, R253). -/
def stepCore (core p : Nat) : Option Nat :=
  let t := towerOfCore core
  let (r, c) := gridOf core
  match p with
  | 2 => if c < 15 then some (coreAt t r (c + 1)) else none
  | 3 => if 0 < c then some (coreAt t r (c - 1)) else none
  | 4 => if 0 < r then some (coreAt t (r - 1) c) else none
  | 5 => if r < 5 then some (coreAt t (r + 1) c) else none
  | _ => some (coreAt (t ^^^ 1) r c)

/-- The port row of a group (R255). -/
def portRow (t : Team) (g : Group) : Nat := g.num - t.per * g.tcore

/-- What lies at the far end of a port: an edge, a group that has retired, one whose team is off the cores, or a group. -/
inductive FarEnd where
  | edge | retired | away | group (gid : Nat)
  deriving DecidableEq, Repr

/-- Whether the group in a port row of a core belongs to a team of the launch that is off the cores and is to return
(R106, R125). -/
def State.leftCores (s : State) (launch core row : Nat) : Bool :=
  s.teams.any fun q => q.2.launch == launch && (match q.2.cores.idxOf? core with
    | some k => (match q.2.members[q.2.per * k + row]? with
      | some (.off _) => true
      | _ => false)
    | none => false)

/-- The far end of a group's port: the group itself, the neighbour group, or an edge (R251, R255). -/
def State.farEnd (s : State) (gid : Nat) (g : Group) (t : Team) (l : Launch) (p : Nat) : FarEnd :=
  if p < 2 then .group gid
  else
    match stepCore (coreOf gid) p with
    | none => .edge
    | some c =>
      if (l.grid.find c).getD 0 ≤ portRow t g then .edge
      else
        match (s.groupsOn c).find? fun q =>
            ! q.2.shadow && (match s.teams.find q.2.team with
              | some u => u.launch == t.launch && portRow u q.2 == portRow t g
              | none => false) with
        | some q => .group q.1
        | none => if s.leftCores t.launch c (portRow t g) then .away else .retired

/-- Whether a port is declared (R139). -/
def Launch.declares (l : Launch) (p : Nat) : Bool := bit l.portMask p

/-! ## Queues (R252) -/

/-- The number of lane `l`'s queue `p`. -/
def queueNo (p l : Nat) : Nat := 32 * p + l

/-- The lane that a push through a port reaches (R251). -/
def destLane (p l : Nat) : Nat := if p = 0 then (l + 1) % 32 else if p = 1 then (l + 31) % 32 else l

/-- The entries of a queue, oldest first. -/
def Group.queue (g : Group) (q : Nat) : List PortEntry := (g.ports.find q).getD []

/-- The free entries of a queue as its sender sees them (R252). -/
def Group.room (g : Group) (q : Nat) : Nat := 8 - (g.queue q).length - (g.lag.find q).getD 0

/-- The arrived entries of a queue. -/
def Group.arrived (g : Group) (q : Nat) : List PortEntry := (g.queue q).filter (·.arrived)

/-- Put entries at the end of a queue. -/
def Group.enqueue (g : Group) (q : Nat) (vs : List Word) : Group :=
  { g with ports := g.ports.put q (g.queue q ++ vs.map fun v => ⟨v, false⟩) }

/-- Take `n` entries from a queue; its sender does not see their room yet (R252). -/
def Group.dequeue (g : Group) (n q : Nat) : Group :=
  { g with ports := g.ports.put q ((g.queue q).drop n), lag := g.lag.put q ((g.lag.find q).getD 0 + n) }

/-- The room that lane `l` of a group sees through a port. -/
def State.roomAt (s : State) (far p l : Nat) : Nat :=
  match s.groups.find far with
  | some g => g.room (queueNo (farPort p) (destLane p l))
  | none => 0

/-! ## Waits (R258, R259) -/

/-- How a port wait is noted in its `phase`: port, direction and entries. -/
def portPhase (p : Nat) (push : Bool) (e : Nat) : Nat := p + (if push then 8 else 0) + 16 * e

/-- The active lanes whose condition does not hold (R261, R262). -/
def State.unmet (s : State) (g : Group) (act : Word) (far : FarEnd) (p : Nat) (push : Bool) (n : Nat) : List Nat :=
  if push then
    match far with
    | .group f => (lanesOf act).filter fun l => decide (s.roomAt f p l < n)
    | .away => lanesOf act
    | _ => []
  else (lanesOf act).filter fun l => decide ((g.arrived (queueNo p l)).length < n)

/-- The time counted by a port wait so far. -/
def Group.portCount (g : Group) : Nat :=
  match g.wait with
  | some ⟨.port, _, _, lim, _⟩ => lim
  | _ => 0

/-- Whether a port wait counts now: its far end is the group itself, or a group that is on the cores, not STOPPED and not
in handler mode; for a pop, a retired one (R259). -/
def State.counts (s : State) (gid : Nat) (far : FarEnd) (push : Bool) : Bool :=
  match far with
  | .group f =>
    if f = gid then true
    else match s.groups.find f with
      | some g => g.st != .stopped && ! g.hmode
      | none => false
  | .retired => ! push
  | .away => false
  | .edge => false

/-- The port wait of a group after `d` nanoseconds (R259). -/
def State.countPort (s : State) (d gid : Nat) (g : Group) : Group :=
  match g.wait, s.teams.find g.team with
  | some ⟨.port, b, a, lim, ph⟩, some t =>
    match s.launches.find t.launch with
    | some l =>
      if s.counts gid (s.farEnd gid g t l (ph % 8)) (bit ph 3) then { g with wait := some ⟨.port, b, a, lim + d, ph⟩ } else g
    | none => g
  | _, _ => g

/-- Time goes on to `t`: waits on ports count (R259). -/
def State.passTime (s : State) (t : Nat) : State :=
  if t ≤ s.time then s
  else { s with time := t, groups := s.groups.map fun (p : Nat × Group) => (p.1, s.countPort (t - s.time) p.1 p.2) }

/-! ## The instructions (R260 to R263) -/

/-- Port, entries and shape of a port instruction. -/
def portNo (f : MX) : Nat := f.off.toNat % 8
def portEntries (f : MX) : Nat := f.sz.toNat + 1

/-- The checks before any wait: undeclared, then an edge (R260). -/
def portCheck (f : MX) (far : FarEnd) (e : Env) : Option Cause :=
  if ! e.launch.declares (portNo f) then some (e.cause 0x30 3)
  else if far = .edge then some (e.cause 0x30 2)
  else none

/-- The body of NPUSH (R261). -/
def npushBody (f : MX) (e : Env) (s : State) : Res :=
  let p := portNo f
  let n := portEntries f
  let far := s.farEnd e.gid e.g e.team e.launch p
  match portCheck f far e with
  | some c => .trap c s
  | none =>
    if s.unmet e.g e.act far p true n ≠ [] then .wait .port e.g.portCount (portPhase p true n) s
    else
      match far with
      | .group d => .done {} (s.modGroup d fun g => (lanesOf e.act).foldl (fun (g : Group) l =>
          g.enqueue (queueNo (farPort p) (destLane p l)) ((span f.data.toNat n).map fun v => e.g.v32 v l)) g)
      | _ => .done {} s

/-- NPUSH (R261). -/
def execNpush (f : MX) (s : State) : Host.Outcome State Fault Refusal :=
  issue (.npush f) { vr := span f.data.toNat (portEntries f), opc := 0x27, sz := f.sz.toNat, out := .output } (npushBody f) s

/-- The oldest arrived values of a lane's queue. -/
def popEff (f : MX) (e : Env) : Eff :=
  { vw := (List.range (portEntries f)).map fun k =>
      (f.data.toNat + k, rowOf fun l => (((e.g.arrived (queueNo (portNo f) l)).map (·.val)).getD k 0), e.act) }

/-- The body of NPOP and NPEEK (R262). -/
def npopBody (f : MX) (take : Bool) (e : Env) (s : State) : Res :=
  let p := portNo f
  let n := portEntries f
  let far := s.farEnd e.gid e.g e.team e.launch p
  match portCheck f far e with
  | some c => .trap c s
  | none =>
    if s.unmet e.g e.act far p false n ≠ [] then .wait .port e.g.portCount (portPhase p false n) s
    else
      .done (popEff f e) (if take then
        s.modGroup e.gid fun g => (lanesOf e.act).foldl (fun (g : Group) l => g.dequeue n (queueNo p l)) g else s)

/-- NPOP (R262). -/
def execNpop (f : MX) (s : State) : Host.Outcome State Fault Refusal :=
  issue (.npop f) { vw := span f.data.toNat (portEntries f), opc := 0x28, sz := f.sz.toNat, out := .input }
    (npopBody f true) s

/-- NPEEK (R262). -/
def execNpeek (f : MX) (s : State) : Host.Outcome State Fault Refusal :=
  issue (.npeek f) { vw := span f.data.toNat (portEntries f), opc := 0x29, sz := f.sz.toNat, out := .input }
    (npopBody f false) s

/-- The status word of a lane (R263). The room behind a neighbour that has retired or left the cores is a free value: log
entry 19. -/
def portStat (s : State) (e : Env) (p l : Nat) : Word :=
  let far := fun q => s.farEnd e.gid e.g e.team e.launch q
  let room := if ! e.launch.declares p then 0 else
    match far p with
    | .group d => s.roomAt d p l
    | .retired | .away => (Config.freeWord s.tick l).toNat % 9
    | .edge => 0
  let link := sumBy (fun k => if e.launch.declares k && far k != .edge then 2 ^ k else 0) (List.range 7)
  BitVec.ofNat 32 ((e.g.arrived (queueNo p l)).length + room * 2 ^ 4 + link * 2 ^ 8)

/-- NPSTAT (R263). -/
def execNpstat (f : MX) (s : State) : Host.Outcome State Fault Refusal :=
  issue (.npstat f) { vw := [f.data.toNat], opc := 0x2A, out := .input } (fun e s =>
    .done { vw := [(f.data.toNat, rowOf fun l => portStat s e (portNo f) l, e.act)] } s) s

/-! ## Events -/

/-- The instruction at which a group waits. -/
def Group.atInstr (g : Group) : Option Instr :=
  match g.clause with
  | some c => match c.instr with
    | .ok (i, _) => some i
    | .error _ => none
  | none => none

/-- Whether a group is WAITING for a reason. -/
def Group.waitsFor (g : Group) (k : WaitKind) : Bool := g.st == .waiting && (g.wait.map (·.kind)) == some k

/-- The oldest reserved entry of a queue arrives. -/
def arriveFirst : List PortEntry → List PortEntry
  | [] => []
  | e :: t => if e.arrived then e :: arriveFirst t else { e with arrived := true } :: t

/-- PORT_ENTRY_ARRIVAL: group a, queue b; an entry arrives, or with the flag the sender sees a freed entry (R252,
R257). -/
def execPortEntryArrival (s : State) : Host.Outcome State Fault Refusal :=
  let q := s.arg.b
  .next (s.modGroup s.arg.a fun g =>
    if s.arg.flag then { g with lag := g.lag.put q ((g.lag.find q).getD 0 - 1) }
    else { g with ports := g.ports.put q (arriveFirst (g.queue q)) })

/-- PORT_WAIT_MET: group a tries its port instruction again (R258). -/
def execPortWaitMet (s : State) : Host.Outcome State Fault Refusal :=
  match s.groups.find s.arg.a with
  | none => .next s
  | some g =>
    if ! g.waitsFor .port then .next s
    else
      let s := { s with cur := some s.arg.a }
      match g.atInstr with
      | some (.npush f) => execNpush f s
      | some (.npop f) => execNpop f s
      | some (.npeek f) => execNpeek f s
      | _ => .next s

/-- PORT_TIMEOUT: the wait of group a has counted more than PORTTO µs; PORTS with SUB 1 (R258, R259). -/
def execPortTimeout (s : State) : Host.Outcome State Fault Refusal :=
  let gid := s.arg.a
  match s.groups.find gid with
  | none => .next s
  | some g =>
    match g.wait, g.clause, s.teams.find g.team with
    | some ⟨.port, _, _, lim, ph⟩, some c, some t =>
      match s.launches.find t.launch with
      | none => .next s
      | some l =>
        let far := s.farEnd gid g t l (ph % 8)
        let lanes := s.unmet g c.active far (ph % 8) (bit ph 3) (ph / 16)
        if g.st = .waiting ∧ cfgPortto g.ctxcfg ≠ 0 ∧ lim > cfgPortto g.ctxcfg * 1000 ∧ lanes ≠ [] then
          .next (trapHere s gid c { code := 0x30, sub := 1, imm := 0, lanes := maskOf fun l => lanes.contains l })
        else .next s
    | _, _, _ => .next s

end Sys2Proof.Machine
end

