-- ==== Sys2Proof/Machine/Lanes.lean ====
section
/-! DEFINITION. Barriers, byte counters, the reduction tree, signals (R336 to R346), and the exchange between lanes (R347
to R351). -/

namespace Sys2Proof.Machine

open Sys2Proof

/-! ## Team barriers (R336 to R339) -/

/-- The cause BARX of a once-per-group instruction (R337, R339). -/
def Env.barx (e : Env) (sub : Nat) : Cause := e.cause 0x31 sub

/-- A group's state at a barrier. -/
def Group.bar (g : Group) (b : Nat) : BarSt := g.bars.getD b .none

def Group.setBar (g : Group) (b : Nat) (x : BarSt) : Group := { g with bars := listSet g.bars b x }

/-- A barrier of a team. -/
def Team.bar (t : Team) (b : Nat) : Barrier := t.bars.getD b ⟨0, 0, false⟩

/-- The group, number `num` of its team, arrives; the batches that it completed before come with it (R337, R338). -/
def State.arrive (s : State) (gid num team b : Nat) : State :=
  (s.modGroup gid fun g => g.setBar b .arrived).modTeam team fun t =>
    { t with bars := listSet t.bars b { t.bar b with arr := (t.bar b).arr + 1 }
             fresh := t.fresh.map fun r => if r.bar = b ∧ r.group = num then { r with arrived := true } else r }

/-- A group retires from its team's barriers: it counts as having arrived at every later phase, and so do the batches that it
completed (R336 to R338). -/
def Team.retireFrom (g : Group) (t : Team) : Team :=
  if g.shadow then t
  else
    { t with
      bars := (List.range 4).map fun b =>
        let x := t.bar b
        { x with exp := x.exp - 1, arr := if g.bar b = .arrived then x.arr - 1 else x.arr }
      fresh := t.fresh.map fun r => if r.group = g.num then { r with arrived := true } else r }

/-- Whether a group that ARRIVED stands at the BAR it waits in: it waits now, or a halt stopped that wait (R95, R339). -/
def Group.stillAt (g : Group) (b : Nat) : Bool := g.again || (g.wait.map (·.kind)) == some (.barrier b)

/-- The barrier number of a CXR word (R339). -/
def barNo (f : CXR) : Nat := f.imm.toNat % 4

/-- The body of BAR (R337, R339). -/
def barBody (f : CXR) (e : Env) (s : State) : Res :=
  let b := barNo f
  if e.g.hmode then .trap (e.barx 3) s
  else
    match e.g.bar b with
    | .none => .wait (.barrier b) 0 0 (s.arrive e.gid e.g.num e.g.team b)
    | .arrived => if e.g.stillAt b then .wait (.barrier b) 0 0 s else .trap (e.barx 2) s
    | .passed => if e.g.stillAt b then .done {} (s.modGroup e.gid fun g => g.setBar b .none) else .trap (e.barx 2) s

/-- BAR (R339). -/
def execBar (f : CXR) (s : State) : Host.Outcome State Fault Refusal := issue (.bar f) { out := .input } (barBody f) s

/-- BARA (R339). -/
def execBara (f : CXR) (s : State) : Host.Outcome State Fault Refusal :=
  issue (.bara f) { out := .input } (fun e s =>
    if e.g.hmode then .trap (e.barx 3) s
    else if e.g.bar (barNo f) = .none then .done {} (s.arrive e.gid e.g.num e.g.team (barNo f))
    else .trap (e.barx 2) s) s

/-- BARW (R339). -/
def execBarw (f : CXR) (s : State) : Host.Outcome State Fault Refusal :=
  issue (.barw f) { out := .input } (fun e s =>
    if e.g.hmode then .trap (e.barx 3) s
    else
      match e.g.bar (barNo f) with
      | .none => .trap (e.barx 1) s
      | .arrived => .wait (.barrier (barNo f)) 0 0 s
      | .passed => .done {} (s.modGroup e.gid fun g => g.setBar (barNo f) .none)) s

/-- The invalidation of a release of barrier `b`: each core of the team writes back and drops its L1 lines that overlap the
global destinations of the batches that groups completed before they arrived (R334, R338). -/
def State.freshen (s : State) (t : Team) (b : Nat) : State :=
  t.cores.foldl (fun s c =>
    s.refreshL1 c false fun l => t.fresh.any fun r => r.bar == b && r.arrived && inRange t.ctx r.base r.len l) s

/-- The release of a barrier (R337, R338). -/
def State.releaseBar (s : State) (team b : Nat) : State :=
  match s.teams.find team with
  | none => s
  | some t =>
    let s := s.freshen t b
    let s := s.modTeam team fun t =>
      { t with bars := listSet t.bars b { t.bar b with arr := 0, ph := ! (t.bar b).ph }
               fresh := t.fresh.filter fun r => ! (r.bar == b && r.arrived) }
    { s with groups := s.groups.map fun (p : Nat × Group) =>
        if p.2.team = team ∧ p.2.bar b = .arrived then (p.1, p.2.setBar b .passed) else p }

/-- BARRIER_RELEASE: team a, barrier b; every group that has not retired has arrived (R337). -/
def execBarrierRelease (s : State) : Host.Outcome State Fault Refusal :=
  let b := s.arg.b
  match s.teams.find s.arg.a with
  | none => .next s
  | some t =>
    if t.onCores ∧ (t.bar b).arr = (t.bar b).exp ∧ (t.bar b).arr > 0 then .next (s.releaseBar s.arg.a b) else .next s

/-! ## Byte counters (R340, R341) -/

/-- LANDED and TARGET of counter `k` of team core `j`. -/
def Team.bc (t : Team) (j k : Nat) : Nat × Nat := (t.bcs.find (8 * j + k)).getD (0, 0)

/-- Add landed bytes to a counter (R340). -/
def Team.land (t : Team) (j k n : Nat) : Team :=
  { t with bcs := t.bcs.put (8 * j + k) (((t.bc j k).1 + n) % 2 ^ 64, (t.bc j k).2) }

/-- BCARM (R341). -/
def execBcarm (f : CXR) (s : State) : Host.Outcome State Fault Refusal :=
  let p := f.p.toNat
  let k := f.imm.toNat % 8
  issue (.bcarm f) { sr := codeS p, out := .input } (fun e s =>
    let n := (e.g.code p f.lit).toNat
    if n ≥ 2 ^ 40 then .trap (e.barx 5) s
    else .done {} (s.modTeam e.g.team fun t =>
      { t with bcs := t.bcs.put (8 * e.g.tcore + k) ((t.bc e.g.tcore k).1, ((t.bc e.g.tcore k).2 + n) % 2 ^ 64) })) s

/-- The target that a BCWAIT took as it issued (R341); a BCWAIT that runs again after a halt takes TARGET anew (R95). -/
def bcTarget (e : Env) (k : Nat) : Nat :=
  match e.g.wait with
  | some ⟨.bcwait, _, _, lim, _⟩ => lim
  | _ => (e.team.bc e.g.tcore k).2

/-- BCWAIT (R341). -/
def execBcwait (f : CXR) (s : State) : Host.Outcome State Fault Refusal :=
  let k := f.imm.toNat % 8
  issue (.bcwait f) { out := .input } (fun e s =>
    if (e.team.bc e.g.tcore k).1 ≥ bcTarget e k then .done {} s else .wait .bcwait (bcTarget e k) 0 s) s

/-- BCWAIT_MET: group a tries its BCWAIT again (R341). -/
def execBcwaitMet (s : State) : Host.Outcome State Fault Refusal :=
  match s.groups.find s.arg.a with
  | none => .next s
  | some g =>
    match g.waitsFor .bcwait, g.atInstr with
    | true, some (.bcwait f) => execBcwait f { s with cur := some s.arg.a }
    | _, _ => .next s

/-! ## The operations of reductions (R342) -/

/-- The identity of an operation (R342). -/
def foldUnit (op : Nat) : Word :=
  match op with
  | 1 => 0x7FFFFFFF
  | 2 => 0xFFFFFFFF
  | 3 => 0x80000000
  | 5 => 0xFFFFFFFF
  | 8 => 0x80000000
  | 9 => 0x7F800000
  | 10 => 0xFF800000
  | _ => 0

/-- An operation of the reduction tree (R342). -/
def foldOp (op : Nat) (a b : Word) : Word :=
  match op with
  | 0 => a + b
  | 1 => if a.slt b then a else b
  | 2 => if a.ult b then a else b
  | 3 => if a.slt b then b else a
  | 4 => if a.ult b then b else a
  | 5 => a &&& b
  | 6 => a ||| b
  | 7 => a ^^^ b
  | 8 => BitVec.ofNat 32 (fp32.addV rne (fp32.read a.toNat) (fp32.read b.toNat)).1
  | 9 => BitVec.ofNat 32 (minMax32 false a.toNat b.toNat).1
  | _ => BitVec.ofNat 32 (minMax32 true a.toNat b.toNat).1

/-! ## TREDUCE (R342, R343) -/

/-- One level of the fixed tree (R343). -/
def treeStep (op : Nat) : List Word → List Word
  | a :: b :: t => foldOp op a b :: treeStep op t
  | l => l

/-- The fixed tree over 2^n leaves (R343). -/
def tree (op : Nat) : Nat → List Word → Word
  | 0, l => l.headD (foldUnit op)
  | n + 1, l => tree op n (treeStep op l)

/-- The least `n` with 2^n at least `t` (R343). -/
def log2Up (t : Nat) : Nat := if t ≤ 1 then 0 else Nat.log2 (t - 1) + 1

/-- TEAM of the descriptor (R139). -/
def Launch.teamSize (l : Launch) : Nat := field l.desc 0x10 2

/-- The shape of TREDUCE. -/
def treduceShape (f : CXR) : Shape :=
  { vr := [f.p.toNat], vw := [f.q.toNat], out := .input }

/-- TREDUCE joins the team's next reduction and waits for its release (R343). -/
def execTreduce (f : CXR) (s : State) : Host.Outcome State Fault Refusal :=
  issue (.treduce f) (treduceShape f) (fun e s =>
    if e.g.hmode then .trap (e.barx 3) s else .wait .treduce (bits f.imm.toNat 3 0) 0 s) s

/-- A group that has joined a reduction: its clause, its TREDUCE and its source as it reads it. -/
structure Joined where
  gid : Nat
  num : Nat
  clause : Clause
  f : CXR
  src : Row
  deriving DecidableEq, Repr

/-- The groups of a team that have joined (R342). -/
def State.joined (s : State) (team : Nat) : List Joined :=
  (s.groupsOf team).filterMap fun p =>
    if p.2.shadow ∨ ! p.2.waitsFor .treduce then none
    else
      match p.2.clause, p.2.atInstr with
      | some c, some (.treduce f) => some ⟨p.1, p.2.num, c, f, (p.2.view s.tick).vreg f.p.toNat⟩
      | _, _ => none

/-- The result in a lane: the tree over all groups of the team, those that do not contribute giving the identity (R343). -/
def reduceLane (op t : Nat) (js : List Joined) (l : Nat) : Word :=
  let n := log2Up t
  tree op n ((List.range (2 ^ n)).map fun g =>
    match js.find? fun j => j.num == g && decide (g < t) && inMask j.clause.active l with
    | some j => lane j.src l
    | none => foldUnit op)

/-- TREDUCE_RELEASE: team a; every group that has not retired has joined (R342, R343). -/
def execTreduceRelease (s : State) : Host.Outcome State Fault Refusal :=
  let team := s.arg.a
  let js := s.joined team
  let rest := (s.groupsOf team).filter fun p => ! p.2.shadow
  match s.teams.find team, js with
  | some t, j :: _ =>
    if ! t.onCores ∨ js.length ≠ rest.length then .next s
    else
      let op := bits j.f.imm.toNat 3 0
      if js.any fun k => bits k.f.imm.toNat 3 0 ≠ op then
        .next (js.foldl (fun s k =>
          trapHere s k.gid k.clause { code := 0x31, sub := 4, imm := 0, lanes := k.clause.active }) s)
      else
        let size := ((s.launchOf t).map Launch.teamSize).getD 0
        let r := rowOf fun l => reduceLane op size js l
        .next (js.foldl (fun s k =>
          let e : Eff := { vw := [(k.f.q.toNat, r, k.clause.active)] }
          let s := s.finish k.gid (.treduce k.f) (treduceShape k.f) k.clause e .none none
          if ((s.launchOf t).map Launch.redundant).getD false then
            s.keepFor k.gid (e.kept .none)
          else s) s)
  | _, _ => .next s

/-! ## Signals (R345, R346) -/

/-- Whether a group holds 16 incomplete SIGWAIT, CWAIT and TTQ operations with a counter (R107). -/
def Group.manyWaits (g : Group) : Bool :=
  decide (((g.ops.filter fun o => match o.act with
    | .sigwait _ _ _ _ => true
    | .cwait _ => true
    | .ttq _ => true
    | .ttqMem _ => true
    | _ => false).length) ≥ 16)

/-- SIGADD's addition at home or at the target of a link aperture (R345, R416). -/
def State.signalAdd (s : State) (gid core ctx launch pa : Nat) (v : DWord) : State :=
  if spaceOf pa = .link then s.post (.atomic 0x09 v 0) gid launch ctx pa 8
  else ((s.expel core pa).atomHome launch pa 8 (fun m => (m + v.toNat) % 2 ^ 64)).2

/-- The request that a SIGADD has sent through a link and still waits for: it completes once the addition has been performed
at the target, or has failed (R345, R416, R424). -/
def Group.postedAdd (g : Group) : Option Nat :=
  match g.wait with
  | some ⟨.peer id, _, _, _, 3⟩ => some id
  | _ => none

/-- A blocking SIGADD whose fence is done: the addition at home, or a request that it waits for. -/
def State.sigaddNow (s : State) (e : Env) (pa : Nat) (v : DWord) : Res :=
  let core := coreOf e.gid
  let id := s.fresh
  let s := ((s.fence core e.team.ctx 5).signalAdd e.gid core e.team.ctx e.team.launch pa v).notSafe e.g.team
  if spaceOf pa = .link ∧ (s.peers.find id).isSome then .wait (.peer id) 0 3 s else .done {} s

/-- The body of SIGADD (R345): with a counter, the addition is made when it completes. A page that is not present holds
the group: log entry 20. -/
def sigaddBody (f : MX) (e : Env) (s : State) : Res :=
  match e.g.postedAdd with
  | some id => if (s.peers.find id).isSome then .wait (.peer id) 0 3 s else .done {} s
  | none =>
  let va := (e.g.sreg f.base.toNat).toNat
  let v := e.g.sreg (f.base.toNat + 1)
  let (ps, s) := s.probe e .atomic .atomic true 8 (e.once va)
  match s.loadGate e 0 ps with
  | (.trap c, s) => .trap (e.wide c) s
  | (.wait k ph, s) => .wait k 0 ph s
  | (.open, s) =>
    match s.heldByReserve e ps, ps with
    | (a, t) :: _, _ => waitReserve e a t s
    | [], ⟨_, _, .ok pa _⟩ :: _ =>
      if f.dc.toNat < 6 then .later {} (.sigadd va v) (s.notSafe e.g.team)
      else if s.fenceReady e.gid 5 e.g.ops then s.sigaddNow e pa v
      else .wait .other 0 0 s
    | [], _ => .wait .held 0 0 s

/-- SIGADD (R345). -/
def execSigadd (f : MX) (s : State) : Host.Outcome State Fault Refusal :=
  issue (.sigadd f) { sr := span f.base.toNat 2, dc := f.dc.toNat, opc := 0x38, sz := f.sz.toNat, out := .output }
    (sigaddBody f) s

/-- The conditions of SIGWAIT (R345). -/
def signalHolds (cond m c : Nat) : Bool :=
  let a := signed 64 m
  let b := signed 64 c
  match cond with
  | 0 => decide (a ≤ b)
  | 1 => decide (b ≤ a)
  | 2 => decide (a = b)
  | _ => decide (a ≠ b)

/-- An 8-byte word at home as the device uses it; a poisoned word reads as zero (R117). -/
def State.homeWord (s : State) (launch pa : Nat) : Nat × State :=
  match s.home 8 pa with
  | .here p =>
    let (bs, s) := s.homeRead p 8
    if s.poisoned (homeKey p) then (0, s.setChk launch chkPoison) else (ofBytes bs, s)
  | _ => (0, s)

/-- The body of SIGWAIT (R345). Behind a link aperture each look at the signal is a request; under a counter the first one holds
the group, so that its fault is precise (R416, R424; log entry 87). -/
def sigwaitBody (f : MX) (e : Env) (s : State) : Res :=
  let b := f.base.toNat
  let va := (e.g.sreg b).toNat
  let c := e.g.sreg (b + 1)
  let core := coreOf e.gid
  let (ps, s) := s.probe e .load (.load 8) false 8 (e.once va)
  match s.loadGate e 0 ps with
  | (.trap c, s) => .trap (e.wide c) s
  | (.wait k ph, s) => .wait k 0 ph s
  | (.open, s) =>
    if f.dc.toNat < 6 ∧ e.g.manyWaits = true then .wait .other 0 0 s
    else
      let look := fun (m : Nat) (s : State) =>
        if signalHolds f.sz.toNat m c.toNat && s.fenceReady e.gid 5 e.g.ops then
          Res.done { sw := [(b + 2, BitVec.ofNat 64 m)] } (s.fence core e.team.ctx 5)
        else .wait .signal va 0 s
      match s.peerReads e 8 ps with
      | (none, id, s) => .wait (.peer id) 0 0 s
      | (some peer, _, s) =>
        if f.dc.toNat < 6 then .later { sw := [(b + 2, 0)] } (.sigwait va c f.sz.toNat (b + 2)) s
        else match ps with
        | ⟨_, _, .ok pa _⟩ :: _ =>
          if spaceOf pa = .link then look (ofBytes (bytesOf peer (lowLane e.act))) s
          else
            let (m, s) := s.homeWord e.team.launch pa
            look m s
        | _ => .wait .held 0 0 s

/-- SIGWAIT (R345). -/
def execSigwait (f : MX) (s : State) : Host.Outcome State Fault Refusal :=
  issue (.sigwait f)
    { sr := span f.base.toNat 2, sw := [f.base.toNat + 2], dc := f.dc.toNat, opc := 0x39, sz := f.sz.toNat, out := .input }
    (sigwaitBody f) s

/-- SIGNAL_OBSERVED: group a looks at its signal again (R345). -/
def execSignalObserved (s : State) : Host.Outcome State Fault Refusal :=
  match s.groups.find s.arg.a with
  | none => .next s
  | some g =>
    match g.waitsFor .signal, g.atInstr with
    | true, some (.sigwait f) => execSigwait f { s with cur := some s.arg.a }
    | _, _ => .next s

/-- LID_GRANT: group a tries its ACQ again; a lid behind a link aperture is granted by its target (R321, R323). -/
def execLidGrant (s : State) : Host.Outcome State Fault Refusal :=
  match s.groups.find s.arg.a with
  | none => .next s
  | some g =>
    match g.waitsFor .lid, g.atInstr with
    | true, some (.acq f) =>
      execAcq f { s.modGroup s.arg.a fun g => { g with wait := g.wait.map fun w => { w with phase := 1 } } with
        cur := some s.arg.a }
    | _, _ => .next s

/-- SLEEP_EXPIRY: group a tries its SLEEP again (R183). -/
def execSleepExpiry (s : State) : Host.Outcome State Fault Refusal :=
  match s.groups.find s.arg.a with
  | none => .next s
  | some g =>
    match g.waitsFor .sleep, g.atInstr with
    | true, some (.sleep f) => execSleep f { s with cur := some s.arg.a }
    | _, _ => .next s

/-! ## Lane exchange (R347 to R350) -/

/-- The source lane of SHFL (R348). -/
def shflLane (f : MX) (g : Group) (l : Nat) : Nat :=
  let d := (g.sreg f.base.toNat).toNat % 32
  match f.sz.toNat with
  | 0 => (g.v32 f.data.toNat l).toNat % 32
  | 1 => if l ≥ d then l - d else l
  | 2 => if l + d ≤ 31 then l + d else l
  | _ => l ^^^ d

/-- SHFL (R348). -/
def execShfl (f : MX) (s : State) : Host.Outcome State Fault Refusal :=
  let v := f.off.toNat
  let d := f.data.toNat
  issue (.shfl f)
    { vr := if f.sz.toNat = 0 then [d, v] else [v], sr := if f.sz.toNat = 0 then [] else [f.base.toNat], vw := [d]
      dc := f.dc.toNat, opc := 0x2B, sz := f.sz.toNat, lanes := fun r _ act => if r = v then 0xFFFFFFFF else act }
    (fun e s => .done { vw := [(d, rowOf fun l => e.g.v32 v (shflLane f e.g l), e.act)] } s) s

/-- The value of VOTE (R349). -/
def voteValue (sz : Nat) (act : Word) (x : Nat → Word) : Word :=
  match sz with
  | 0 => mask32 ((lanesOf act).any fun l => x l != 0)
  | 1 => mask32 ((lanesOf act).all fun l => x l != 0)
  | 2 => maskOf fun l => inMask act l && x l != 0
  | _ => mask32 ((lanesOf act).all fun l => x l == x (lowLane act))

/-- VOTE (R349). -/
def execVote (f : MX) (s : State) : Host.Outcome State Fault Refusal :=
  let v := f.off.toNat
  let d := f.data.toNat
  issue (.vote f) { vr := [v], vw := [d], dc := f.dc.toNat, opc := 0x2C, sz := f.sz.toNat } (fun e s =>
    .done { vw := [(d, rowOf fun _ => voteValue f.sz.toNat e.act (e.g.v32 v), e.act)] } s) s

/-- The operation of a control word, if it is one (R350). -/
def controlOp (c : DWord) : Option Nat := if c.toNat ≤ 10 then some c.toNat else none

/-- The fold of a register over lanes, from the identity in ascending order (R350). -/
def foldLanes (op : Nat) (x : Nat → Word) (ls : List Nat) : Word := ls.foldl (fun a l => foldOp op a (x l)) (foldUnit op)

/-- The body of the short forms: `pick` names the lanes that lane `l` folds (R350). -/
def foldBody (f : MX) (pick : Nat → Nat → Bool) (e : Env) (s : State) : Res :=
  match controlOp (e.g.sreg f.base.toNat) with
  | none => .trap (e.cause 0x11 2) s
  | some op =>
    .done { vw := [(f.data.toNat, rowOf fun l =>
      foldLanes op (e.g.v32 f.off.toNat) ((lanesOf e.act).filter fun k => pick k l), e.act)] } s

/-- The shape of the short forms. -/
def foldShape (f : MX) (opc : Nat) : Shape :=
  { vr := [f.off.toNat], sr := [f.base.toNat], vw := [f.data.toNat], dc := f.dc.toNat, opc := opc, sz := f.sz.toNat }

/-- REDUX (R350). -/
def execRedux (f : MX) (s : State) : Host.Outcome State Fault Refusal :=
  issue (.redux f) (foldShape f 0x2D) (foldBody f fun _ _ => true) s

/-- PRFX (R350). -/
def execPrfx (f : MX) (s : State) : Host.Outcome State Fault Refusal :=
  issue (.prfx f) (foldShape f 0x2E) (foldBody f fun k l => if f.sz.toNat = 0 then decide (k ≤ l) else decide (k < l)) s

/-! ## The long forms (R351) -/

/-- What a long form writes to memory: nothing, the value after, or the value before. -/
inductive LongMode where
  | fold | inc | exc
  deriving DecidableEq, Repr

/-- Every active lane of vD takes the running value, which is written at each step (R351). -/
def State.setRun (s : State) (e : Env) (d : Nat) (a : Word) : State :=
  s.modGroup e.gid fun g => g.setV d e.act (rowOf fun _ => a)

/-- One element of a long form (R351). -/
def longStep (d op : Nat) (m : LongMode) (base n : Nat) (e : Env) (s : State) : Res :=
  let k := e.g.done
  let a := if e.g.pidx.getLsbD 32 then e.g.v32 d (lowLane e.act) else foldUnit op
  let stop := fun (s : State) (c : Cause) => Res.trap (e.wide c) ((s.setPidx e.gid (pidxOf k)).setRun e d a)
  let at_ := [(lowLane e.act, (base + 4 * k) % 2 ^ 64)]
  let (ps, s) := s.probe e .load (.load 4) false 4 at_
  let (qs, s) := if m = .fold then ([], s) else s.probe e .store .store true 4 at_
  match causeOf (trapsOf (ps ++ qs)) with
  | some c => stop s c
  | none =>
    match s.loadGate e 0 ps with
    | (.trap c, s) => stop s c
    | (.wait w ph, s) => .wait w 0 ph s
    | (.open, s) =>
      match s.peerReads e 4 ps with
      | (none, id, s) => .wait (.peer id) 0 0 s
      | (some peer, _, s) =>
        let (bs, s) := s.readLanes e 4 peer readLdg ps
        let x : Word := BitVec.ofNat 32 (ofBytes (bytesOf bs (lowLane e.act)))
        let r := foldOp op a x
        match s.storeAll e qs fun _ => toBytes 4 (if m = .exc then a.toNat else r.toNat) with
        | (.trap c, s) => stop s c
        | (.wait w ph, s) => .wait w 0 ph s
        | (.open, s) =>
          let s := s.setRun e d r
          if k + 1 ≥ n then .done { vw := [(d, rowOf fun _ => r, e.act)] } (s.setPidx e.gid 0)
          else .wait .other 0 0 (s.setPidx e.gid (pidxOf (k + 1)))

/-- The body of the long forms (R351). -/
def longBody (f : MX) (m : LongMode) (e : Env) (s : State) : Res :=
  let b := f.base.toNat
  let d := f.data.toNat
  match controlOp (e.g.sreg b) with
  | none => .trap (e.cause 0x11 2) s
  | some op =>
    let n := (e.g.sreg (b + 2)).toNat % 2 ^ 32
    if e.g.done < n then longStep d op m (e.g.sreg (b + 1)).toNat n e s
    else
      let a := if e.g.pidx.getLsbD 32 then e.g.v32 d (lowLane e.act) else foldUnit op
      .done { vw := [(d, rowOf fun _ => a, e.act)] } (s.setPidx e.gid 0)

/-- The shape of the long forms. -/
def longShape (f : MX) (opc : Nat) : Shape :=
  { vr := [f.data.toNat], sr := span f.base.toNat 3, vw := [f.data.toNat], opc := opc, sz := f.sz.toNat, out := .input }

/-- REDUX, long form (R351). -/
def execReduxLong (f : MX) (s : State) : Host.Outcome State Fault Refusal :=
  issue (.reduxLong f) (longShape f 0x2D) (longBody f .fold) s

/-- PRFX, long forms (R351). -/
def execPrfxLong (f : MX) (s : State) : Host.Outcome State Fault Refusal :=
  issue (.prfxLong f) (longShape f 0x2E) (longBody f (if f.sz.toNat = 2 then .inc else .exc)) s

end Sys2Proof.Machine
end

