-- ==== Sys2Proof/Machine/Queues.lean ====
section
/-! DEFINITION. Stage queues, LAUNCH and CANCEL (R149 to R153). -/

namespace Sys2Proof.Machine

open Sys2Proof

/-! ## Stage queues (R149, R151) -/

/-- The part of a stage-queue block that SQADD and SQTAKE use (R149). -/
structure SqBlock where
  cap : Nat
  ring : Nat
  addc : Nat
  takec : Nat
  closed : Bool
  deriving DecidableEq, Repr

/-- Read a stage-queue block at home. -/
def State.sqBlock (s : State) (launch pa : Nat) : SqBlock × State :=
  let (w0, s) := s.homeWord launch pa
  let (ring, s) := s.homeWord launch (pa + 8)
  let (addc, s) := s.homeWord launch (pa + 16)
  let (takec, s) := s.homeWord launch (pa + 24)
  let (cl, s) := s.homeWord launch (pa + 32)
  ({ cap := 2 ^ (w0 % 256), ring := ring, addc := addc, takec := takec, closed := bit cl 0 }, s)

/-- ADDC − TAKEC (R149). -/
def SqBlock.fill (q : SqBlock) : Nat := q.addc - q.takec

/-- The place of item `n` (R149). -/
def SqBlock.item (q : SqBlock) (n : Nat) : Nat := q.ring + 8 * (n % q.cap)

/-- The active lanes of the portion at work, `done` portions being performed (R151). -/
def portion (q : SqBlock) (act : Word) (done : Nat) : List Nat := ((lanesOf act).drop (q.cap * done)).take q.cap

/-- Whether the portion after `done` ones is the last. -/
def lastPortion (q : SqBlock) (act : Word) (done : Nat) : Bool := decide ((lanesOf act).length ≤ q.cap * (done + 1))

/-- The checks of the block and its place at home; a block in a link aperture is not admitted (R151, R418). -/
def State.sqGate (s : State) (e : Env) (va : Nat) : Gate × List Probe × Nat × State :=
  let (ps, s) := s.probe e .atomic .atomic true 128 (e.once va)
  match s.loadGate e 0 ps with
  | (.trap c, s) => (.trap (e.wide c), ps, 0, s)
  | (.wait k ph, s) => (.wait k ph, ps, 0, s)
  | (.open, s) =>
    match ps with
    | ⟨_, _, .ok pa _⟩ :: _ => if spaceOf pa = .link then (.trap (e.cause 0x15 4), ps, 0, s) else (.open, ps, pa, s)
    | _ => (.wait .held 0, ps, 0, s)

/-- The checks of the items that a portion moves; lane `k` is its `k`-th item. -/
def State.sqItems (s : State) (e : Env) (k : AccKind) (acc : LinkAcc) (posted : Bool) (vas : List Nat) :
    Gate × List Probe × State :=
  let (ps, s) := s.probe e k acc posted 8 ((List.range vas.length).zip vas)
  match s.loadGate e 0 ps with
  | (.trap c, s) => (.trap (e.wide c), ps, s)
  | (.wait w ph, s) => (.wait w ph, ps, s)
  | (.open, s) => (.open, ps, s)

/-- Write one item of a stage queue: at home, or posted to the peer that holds the ring (R151, R416). -/
def State.putItem (s : State) (e : Env) (v : DWord) (p : Probe) : State :=
  match p.chk with
  | .ok pa _ =>
    if spaceOf pa = .link then s.post (.write (toBytes 8 v.toNat) []) e.gid e.team.launch e.team.ctx pa 8
    else s.putHome pa (toBytes 8 v.toNat)
  | _ => s

/-- Read one item of a stage queue: at home, or from the response of the peer that holds the ring. -/
def State.getItem (s : State) (e : Env) (peer : List (Nat × List Byte)) (p : Probe) : Nat × State :=
  match p.chk with
  | .ok pa _ => if spaceOf pa = .link then (ofBytes (bytesOf peer p.lane), s) else s.homeWord e.team.launch pa
  | _ => (0, s)

/-- The body of SQADD (R151): one portion at a time; the fence stands before the first. -/
def sqaddBody (f : MX) (e : Env) (s : State) : Res :=
  let d := f.data.toNat
  let va := (e.g.sreg f.base.toNat).toNat
  match s.sqGate e va with
  | (.trap c, _, _, s) => .trap c s
  | (.wait k ph, _, _, s) => .wait k 0 ph s
  | (.open, bs, pa, s) =>
    let done := e.g.done
    if done = 0 ∧ ! s.fenceReady e.gid 4 e.g.ops then .wait .other 0 0 s
    else
      let s := if done = 0 then s.fence (coreOf e.gid) e.team.ctx 4 else s
      let (q, s) := s.sqBlock e.team.launch pa
      let ls := portion q e.act done
      if q.cap < q.fill + ls.length then .wait .stageQueue va 0 s
      else
        match s.sqItems e .store .store true ((List.range ls.length).map fun k => q.item (q.addc + k)) with
        | (.trap c, _, s) => .trap c s
        | (.wait k ph, _, s) => .wait k 0 ph s
        | (.open, ps, s) =>
          match s.heldByReserve e (bs ++ ps) with
          | (a, t) :: _ => waitReserve e a t s
          | [] =>
            let s := (ps.zip ls).foldl (fun s p => s.putItem e (e.g.pair d p.2) p.1) s
            let s := s.putHome (pa + 16) (toBytes 8 (q.addc + ls.length))
            let s := s.notSafe e.g.team
            if lastPortion q e.act done then .done {} (s.setPidx e.gid 0)
            else .wait .stageQueue va 0 (s.setPidx e.gid (pidxOf (done + 1)))

/-- SQADD (R151). -/
def execSqadd (f : MX) (s : State) : Host.Outcome State Fault Refusal :=
  issue (.sqadd f) { vr := span f.data.toNat 2, sr := [f.base.toNat], opc := 0x3A, out := .output } (sqaddBody f) s

/-- The values that the lanes of a portion take: items while there are any, then the end of input (R151). -/
def takeValues (ls : List Nat) (vs : List Nat) (l : Nat) : DWord :=
  BitVec.ofNat 64 (vs.getD (ls.findIdx (· == l)) (2 ^ 64 - 1))

/-- The body of SQTAKE (R151): one portion at a time; the L1 is invalidated after the last. -/
def sqtakeBody (f : MX) (e : Env) (s : State) : Res :=
  let d := f.data.toNat
  let va := (e.g.sreg f.base.toNat).toNat
  match s.sqGate e va with
  | (.trap c, _, _, s) => .trap c s
  | (.wait k ph, _, _, s) => .wait k 0 ph s
  | (.open, bs, pa, s) =>
    let done := e.g.done
    let (q, s) := s.sqBlock e.team.launch pa
    let ls := portion q e.act done
    let n := min ls.length q.fill
    if q.fill < ls.length ∧ ! q.closed then .wait .stageQueue va 0 s
    else
      match s.sqItems e .load (.load 8) false ((List.range n).map fun k => q.item (q.takec + k)) with
      | (.trap c, _, s) => .trap c s
      | (.wait k ph, _, s) => .wait k 0 ph s
      | (.open, ps, s) =>
        match s.heldByReserve e bs, s.peerReads e 8 ps with
        | (a, t) :: _, _ => waitReserve e a t s
        | [], (none, id, s) => .wait (.peer id) 0 0 s
        | [], (some peer, _, s) =>
          let (vs, s) := ps.foldl (fun (a : List Nat × State) p =>
            let (v, s) := a.2.getItem e peer p
            (a.1 ++ [v], s)) ([], s)
          let s := s.putHome (pa + 24) (toBytes 8 (q.takec + n))
          let s := s.notSafe e.g.team
          let m := maskOf fun l => ls.contains l
          let out := vectorEff d true m (takeValues ls vs)
          if lastPortion q e.act done then
            .done out ((s.setPidx e.gid 0).refreshL1 (coreOf e.gid) false fun l => l.ctx == e.team.ctx)
          else .wait .stageQueue va 0 ((s.setPidx e.gid (pidxOf (done + 1))).modGroup e.gid (Group.apply out))

/-- SQTAKE (R151). -/
def execSqtake (f : MX) (s : State) : Host.Outcome State Fault Refusal :=
  issue (.sqtake f) { sr := [f.base.toNat], vw := span f.data.toNat 2, opc := 0x3B, out := .input } (sqtakeBody f) s

/-- STAGE_QUEUE_WAIT_MET: group a tries its SQADD or SQTAKE again (R151). -/
def execStageQueueWaitMet (s : State) : Host.Outcome State Fault Refusal :=
  match s.groups.find s.arg.a with
  | none => .next s
  | some g =>
    if ! g.waitsFor .stageQueue then .next s
    else
      let s := { s with cur := some s.arg.a }
      match g.atInstr with
      | some (.sqadd f) => execSqadd f s
      | some (.sqtake f) => execSqtake f s
      | _ => .next s

/-! ## LAUNCH (R152) -/

/-- The words of a queue control block that LAUNCH reads (R128). -/
structure Qcb where
  tail : Nat
  head : Nat
  ring : Nat
  logsz : Nat
  deriving DecidableEq, Repr

/-- A queue control block from its 128 bytes (R128). -/
def qcbOf (bs : List Byte) : Qcb :=
  { tail := field bs 0 8, head := field bs 0x40 8, ring := field bs 0x50 8, logsz := field bs 0x58 1 % 32 }

/-- A queue control block at home. -/
def State.readQcb (s : State) (pa : Nat) : Qcb × State :=
  match s.home 8 pa with
  | .here p =>
    let (bs, s) := s.homeRead p 128
    (qcbOf bs, s)
  | _ => (qcbOf [], s)

/-- The place of record `n`. -/
def Qcb.slot (q : Qcb) (n : Nat) : Nat := q.ring + 64 * (n % 2 ^ q.logsz)

/-- The request of a LAUNCH under way for one of its four accesses: 0 the queue control block, 1 the record, 2 the ring, 3
TAIL (R152, R416). -/
def State.replyOf (s : State) (gid n : Nat) : Option (Nat × PeerReq) := (s.loadsOf gid).find? fun p => p.2.owner == n

/-- Send one of the requests of a LAUNCH, which holds the group, or wait for its response, and go on with it. TAIL's request
is not sent twice: a halt does not end its wait (phase 3). -/
def State.askFor (s : State) (e : Env) (n pa size : Nat) (op : PeerOp) (k : PeerReq → State → Res) : Res :=
  let ph := if n = 3 then 3 else 1
  match s.replyOf e.gid n with
  | some (id, r) => if r.done then k r s else .wait (.peer id) 0 ph s
  | none => .wait (.peer s.fresh) 0 ph (s.sendPeer .load op e.gid e.team.launch e.team.ctx pa size n).2

/-- The end of LAUNCH: TAIL is written at home, and the group goes on once it stands there (R152). -/
def launchTail (q : Qcb) (pa : Nat) (e : Env) (s : State) : Res :=
  let tail := toBytes 8 (q.tail + 1)
  if spaceOf pa = .link then
    s.askFor e 3 pa 8 (.write tail []) fun _ s => .done {} ((s.dropLoads e.gid).notSafe e.g.team)
  else .done {} ((((s.expel (coreOf e.gid) pa).putHome pa tail).dropLoads e.gid).notSafe e.g.team)

/-- LAUNCH writes its record into the ring, at home or at a peer (R152). -/
def launchPut (q : Qcb) (ps : List Probe) (pa : Nat) (rec : List Byte) (e : Env) (s : State) : Res :=
  let (ws, s) := s.probe e .store .store false 64 [(lowLane e.act, q.slot q.tail)]
  match s.loadGate e 0 ws with
  | (.trap c, s) => .trap (e.wide c) s
  | (.wait k ph, s) => .wait k 0 ph s
  | (.open, s) =>
    match s.heldByReserve e (ps ++ ws), ws with
    | (a, t) :: _, _ => waitReserve e a t s
    | [], ⟨_, _, .ok wpa _⟩ :: _ =>
      if spaceOf wpa = .link then s.askFor e 2 wpa 64 (.write rec []) fun _ s => launchTail q pa e s
      else launchTail q pa e ((s.expel (coreOf e.gid) wpa).putHome wpa rec)
    | [], _ => .wait .held 0 0 s

/-- LAUNCH with its queue control block read: the ring's size, the fence, the wait for room, and the record (R152). -/
def launchWith (q : Qcb) (ps rs : List Probe) (pa : Nat) (e : Env) (s : State) : Res :=
  if q.logsz < 4 ∨ 16 < q.logsz then .trap (e.cause 0x11 2) s
  else if ! s.fenceReady e.gid 5 e.g.ops then .wait .other 0 0 s
  else if (q.tail + 2 ^ 64 - q.head) % 2 ^ 64 ≥ 2 ^ q.logsz then .wait .other 0 1 (s.dropLoads e.gid)
  else
    let s := s.fence (coreOf e.gid) e.team.ctx 5
    match rs with
    | ⟨_, _, .ok rpa _⟩ :: _ =>
      if spaceOf rpa = .link then
        s.askFor e 1 rpa 64 .read fun r s => launchPut q ps pa r.value e (s.consume e.team.launch [r])
      else
        let (bs, s) := s.readLanes e 64 [] readLdg rs
        launchPut q ps pa (sliceBytes (bytesOf bs 32) 0 64) e s
    | _ => .wait .held 0 0 s

/-- The body of LAUNCH (R152). -/
def launchBody (f : CXR) (e : Env) (s : State) : Res :=
  let qa := (e.g.code f.p.toNat none).toNat
  let ra := (e.g.code f.q.toNat none).toNat
  let s := if e.g.wait = none then s.dropLoads e.gid else s
  let (ps, s) := s.probe e .atomic .atomic false 128 (e.once qa)
  let (rs, s) := s.probe e .load (.load 64) false 64 [(32, ra)]
  match s.loadGate e 0 (ps ++ rs) with
  | (.trap c, s) => .trap (e.wide c) s
  | (.wait k ph, s) => .wait k 0 ph s
  | (.open, s) =>
    match ps with
    | ⟨_, _, .ok pa _⟩ :: _ =>
      if spaceOf pa = .link then
        s.askFor e 0 pa 128 .read fun r s => launchWith (qcbOf r.value) ps rs pa e (s.consume e.team.launch [r])
      else
        let (q, s) := s.readQcb pa
        launchWith q ps rs pa e s
    | _ => .wait .held 0 0 s

/-- LAUNCH (R152). -/
def execLaunch (f : CXR) (s : State) : Host.Outcome State Fault Refusal :=
  issue (.launch f) { sr := codeS f.p.toNat ++ codeS f.q.toNat, out := .output } (launchBody f) s

/-! ## CANCEL (R153) -/

/-- CANCEL (R153). -/
def execCancel (f : CXR) (s : State) : Host.Outcome State Fault Refusal :=
  issue (.cancel f) { sr := codeS f.p.toNat, out := .output } (fun e s =>
    let (ps, s) := s.probe e .atomic .atomic true 32 (e.once (e.g.code f.p.toNat none).toNat)
    match s.loadGate e 0 ps with
    | (.trap c, s) => .trap (e.wide c) s
    | (.wait k ph, s) => .wait k 0 ph s
    | (.open, s) =>
      match ps with
      | ⟨_, _, .ok pa _⟩ :: _ =>
        let s := s.notSafe e.g.team
        match s.heldByReserve e ps with
        | (a, t) :: _ => waitReserve e a t s
        | [] =>
        if spaceOf pa = .link then .done {} (s.post (.atomic 0x0F 1 0) e.gid e.team.launch e.team.ctx (pa + 16) 8)
        else .done {} ((s.expel (coreOf e.gid) pa).atomHome e.team.launch (pa + 16) 8 fun m => m ||| 1).2
      | _ => .wait .held 0 0 s) s

end Sys2Proof.Machine
end

