-- ==== Sys2Proof/Machine/Transform.lean ====
section
/-! DEFINITION. Reading for copies and tasks, and the transforms of CPXF (R358, R363 to R368). -/

namespace Sys2Proof.Machine

open Sys2Proof

/-! ## Reading as a copy reads (R357, R358) -/

/-- Who reads: cluster, context and launch; who waits for its requests to peers, with the blocks of link apertures whose
read has failed (R358, R416). -/
structure Agent where
  cl : Nat
  ctx : Nat
  launch : Nat
  who : PeerKind := .taskRead
  owner : Nat := 0
  gid : Nat := 2 ^ 40
  linkBad : List Nat := []
  /-- The pages that RESOLVE failed, of a trial that only finds out which bytes lie on them (R358). -/
  dry : Option (List Nat) := none
  deriving DecidableEq, Repr

/-- A byte with its poison mark. -/
abbrev Marked := Byte × Bool

/-- A byte at the target of a link aperture: the 256 bytes around it are asked for with one read request, and it is there
once the response is. A read that fails, or that the window does not admit, delivers a marked zero (R358, R415, R416, R418,
R424). -/
def State.linkByte (s : State) (g : Agent) (pa : Nat) : Option Marked × State :=
  let block := pa / 256
  if g.linkBad.contains block || ! admits (s.window pa) .copyRead then (some (0, true), s)
  else
    match s.peers.find? fun (p : Nat × PeerReq) => p.2.kind == g.who && p.2.owner == g.owner && p.2.pa == 256 * block with
    | none => (none, (s.sendPeer g.who .read g.gid g.launch g.ctx (256 * block) 256 g.owner).2)
    | some (_, r) =>
      if ! r.done then (none, s)
      else
        let bad := r.cause != 0 || r.marks.getD (pa % 256) false
        (some (if bad then 0 else r.data.getD (pa % 256) 0, bad), s)

/-- One byte read at home, or from the target of a link aperture; none if its page is not present or its home holds it,
in which case a fault record of the given kind is written (R282, R357, R358). A translation that has become invalid since
the issue of the copy counts as a page that is not present: log entry 24. -/
def State.engineByte (s : State) (g : Agent) (kind va : Nat) : Option Marked × State :=
  let va := va % 2 ^ 64
  match g.dry with
  | some pages => (if pages.contains (va / 65536) then none else some (0, false), s)
  | none =>
    match s.reach g.cl g.ctx true .engineRead va 1 with
    | (.ok pa _, s) =>
      if spaceOf pa = .link then s.linkByte g pa
      else
        match s.home 8 pa with
        | .here p =>
          let (bs, s) := s.homeRead p 1
          (some (if s.poisoned (homeKey p) then (0, true) else (bs.headD 0, false)), s)
        | _ => (none, s)
    | (.absent pte l3 attr, s) => (none, s.reportFault g.ctx va kind (8 * g.cl) pte l3 attr)
    | (_, s) => (none, s)

/-- Bytes at an address; `none` if one of them cannot be read yet. -/
def State.engineBytes (s : State) (g : Agent) (kind va : Nat) : Nat → Option (List Marked) × State
  | 0 => (some [], s)
  | n + 1 =>
    match s.engineByte g kind va with
    | (none, s) => (none, s)
    | (some b, s) =>
      match s.engineBytes g kind (va + 1) n with
      | (some r, s) => (some (b :: r), s)
      | (none, s) => (none, s)

/-- The bytes without their marks, and whether one is marked. -/
def plain (l : List Marked) : List Byte := l.map (·.1)
def marked (l : List Marked) : Bool := l.any (·.2)

/-! ## The transform-chain record (R363, R364) -/

/-- A transform chain with its source: the record's fields, and the scalars of CPXF or the values of the prologue. -/
structure Xform where
  version : Nat
  srck : Nat
  infmt : Nat
  inm : Nat
  outfmt : Nat
  outm : Nat
  phase : Nat
  ops : Nat
  w : Nat
  h : Nat
  c : Nat
  plane : Nat
  cx : Nat
  cy : Nat
  cw : Nat
  ch : Nat
  ow : Nat
  oh : Nat
  eoff : Nat
  scale : List Nat
  bias : List Nat
  zeros : Bool
  src : Nat
  pitch : Nat
  exps : Nat
  session : Nat
  frame : Nat
  tower : Nat
  deriving DecidableEq, Repr

/-- Read a chain record; `src`, `pitch` and `exps` are those of R364 or R369: of a session source, `src` holds the session in
its low 32 bits and the frame above them. -/
def xformOf (r : List Byte) (src pitch exps tower : Nat) : Xform :=
  { version := field r 0 1, srck := field r 1 1, infmt := field r 2 1, inm := field r 3 1, outfmt := field r 4 1
    outm := field r 5 1, phase := field r 6 1, ops := field r 7 1, w := field r 8 2, h := field r 10 2, c := field r 12 1
    plane := field r 13 1, cx := field r 16 2, cy := field r 18 2, cw := field r 20 2, ch := field r 22 2
    ow := field r 24 2, oh := field r 26 2, eoff := field r 28 4
    scale := (List.range 4).map fun k => field r (32 + 4 * k) 4
    bias := (List.range 4).map fun k => field r (48 + 4 * k) 4
    zeros := field r 14 2 = 0 && (sliceBytes r 0x60 32).all (· = 0)
    src := src, pitch := pitch, exps := exps, session := src % 2 ^ 32, frame := src / 2 ^ 32, tower := tower }

def Xform.crop (x : Xform) : Bool := bit x.ops 0
def Xform.resize (x : Xform) : Bool := bit x.ops 1
def Xform.norm (x : Xform) : Bool := bit x.ops 2

/-- The window's size, and the output's (R364). -/
def Xform.winW (x : Xform) : Nat := if x.crop then x.cw else x.w
def Xform.winH (x : Xform) : Nat := if x.crop then x.ch else x.h
def Xform.outW (x : Xform) : Nat := if x.resize then x.ow else x.winW
def Xform.outH (x : Xform) : Nat := if x.resize then x.oh else x.winH

/-- The bytes of a source element; of an XBm source, its plane word (R364). -/
def Xform.srcSize (x : Xform) : Nat := if x.infmt = 0 then 1 else if x.infmt ≤ 2 then 2 else 4

/-- Elements and, for XBm, blocks of the output. -/
def Xform.elems (x : Xform) : Nat := x.outW * x.outH * x.c
def Xform.blocks (x : Xform) : Nat := x.elems / 32

/-- The bytes of a row of the source (R364). -/
def Xform.rowBytes (x : Xform) : Nat := if x.infmt = 4 then x.w * x.c / 32 * 4 * x.inm else x.w * x.c * x.srcSize

/-- The bytes of the output: of XBm output, images and exponents (R367; log entry 23). -/
def Xform.outBytes (x : Xform) : Nat :=
  if x.outfmt = 0 then 2 * x.elems else if x.outfmt = 1 then 4 * x.elems else (4 * x.outm + 1) * x.blocks

/-- Where output byte `i` lies, from the destination's start: images, then exponents (R367). -/
def Xform.place (x : Xform) (i : Nat) : Nat :=
  if x.outfmt = 2 ∧ 4 * x.outm * x.blocks ≤ i then x.eoff + (i - 4 * x.outm * x.blocks) else i

/-- The conditions under which CPXF is malformed (R363, R364), but for those of the session. -/
def Xform.malformed (x : Xform) : Bool :=
  x.version != 1 || decide (x.srck > 1) || decide (x.infmt > 4)
    || (if x.infmt = 4 then decide (x.inm < 2 ∨ 8 < x.inm) else x.inm != 0)
    || decide (x.outfmt > 2) || (if x.outfmt = 2 then decide (x.outm < 2 ∨ 8 < x.outm) else x.outm != 0)
    || decide (x.phase ≥ 32) || decide (x.ops ≥ 8)
    || decide (x.w = 0 ∨ 16384 < x.w) || decide (x.h = 0 ∨ 16384 < x.h) || decide (x.c = 0 ∨ 4 < x.c)
    || (if x.srck = 1 then decide (x.plane > 3) else x.plane != 0) || ! x.zeros
    || (if x.crop then decide (x.cw = 0 ∨ x.ch = 0 ∨ x.cx + x.cw > x.w ∨ x.cy + x.ch > x.h)
        else decide (x.cx + x.cy + x.cw + x.ch ≠ 0))
    || (if x.resize then decide (x.ow = 0 ∨ 4096 < x.ow ∨ x.oh = 0 ∨ 4096 < x.oh) else decide (x.ow + x.oh ≠ 0))
    || (x.outfmt != 2 && x.eoff != 0)
    || (x.infmt == 4 && x.w * x.c % 32 != 0) || (x.outfmt == 2 && x.outW * x.c % 32 != 0)
    || decide (x.outBytes > 2097152)
    || (if x.srck = 0 then x.pitch % (if x.infmt = 4 then x.rowBytes else x.srcSize) != 0
        else x.pitch != 0 || decide (x.session ≥ 256))
    || (x.infmt != 4 && x.exps != 0)

/-- The width, height and channels of a plane of a session: Y, Cb, Cr, or all three at full size (R368). -/
def Session.plane (v : Session) (p : Nat) : Nat × Nat × Nat :=
  if p = 0 then (v.w, v.h, 1) else if p = 3 then (v.w, v.h, 3) else (v.w / 2, v.h / 2, 1)

/-- A decode session must be open on the tower, with its bit depth and the sizes of the plane (R364, R368; log entry 9). -/
def State.sessionBad (s : State) (x : Xform) : Bool :=
  x.srck == 1 && (match (s.tower x.tower).sessions.find x.session with
    | some v => x.infmt != (if v.tenBit then 1 else 0) || (x.w, x.h, x.c) != v.plane x.plane
    | none => true)

/-! ## The stages (R365 to R367) -/

/-- An element converted to fp32; a NaN becomes the canonical one (R365). -/
def toFp32 (fmt b : Nat) : Word :=
  BitVec.ofNat 32 (match fmt with
    | 2 => (fp32.convert rne false (bf16.read b)).1
    | 3 => (fp32.convert rne false (fp32.read b)).1
    | _ => (fp32.ofInt rne b).1)

/-- The plane of a stream's frame from which channel `c` of plane PLANE is taken: Y of plane 3 is plane 0, its widened
chroma planes are planes 4 and 5 of `Config.videoSample` (R368; log entry 9). -/
def planeOf (plane c : Nat) : Nat := if plane = 3 then (if c = 0 then 0 else 3 + c) else plane

/-- Sample `i` of row `y` of a decoded frame: a frame that does not decode is a marked zero, and a marked byte of the
stream marks the samples that depend on it (R358, R368). -/
def Session.sample (v : Session) (x : Xform) (st : List Marked) (y i : Nat) : Word × Bool :=
  let bs := plain st
  if Config.videoFrameOk bs v.hevc v.w v.h x.frame then
    let smp := (Config.videoSample bs x.frame (planeOf x.plane (i % x.c)) y (i / x.c)).toNat % (if v.tenBit then 1024 else 256)
    (toFp32 0 smp, (List.range v.len).any fun k => (st.getD k (0, false)).2 && Config.videoUses bs x.frame k)
  else (0, true)

/-- Element `i` of row `y` of the source with its mark; reading an invalid XBm block sets CHKIV.POISON (R39, R365). The
stream of a session is read as a copy source (R368). -/
def State.srcElem (s : State) (g : Agent) (x : Xform) (y i : Nat) : Option (Word × Bool) × State :=
  if x.srck = 1 then
    match (s.tower x.tower).sessions.find x.session with
    | none => (some (0, true), s)
    | some v =>
      match s.engineBytes { g with ctx := v.ctx } 3 v.va v.len with
      | (none, s) => (none, s)
      | (some st, s) => (some (v.sample x st y i), s)
  else if x.infmt = 4 then
    let q := i / 32
    match s.engineBytes g 3 (x.src + y * x.pitch + 4 * x.inm * q) (4 * x.inm) with
    | (none, s) => (none, s)
    | (some img, s) =>
      match s.engineByte g 3 (x.exps + y * (x.w * x.c / 32) + q) with
      | (none, s) => (none, s)
      | (some ex, s) =>
        let e := ex.1.toNat
        if marked img || ex.2 then (some (0, true), s)
        else if e = 255 then (some (0, false), s.setChk g.launch chkPoison)
        else if e = 0 then (some (0, false), s)
        else
          let planes := (List.range x.inm).map fun j => BitVec.ofNat 32 (field (plain img) (4 * j) 4)
          (some (BitVec.ofNat 32 (fp32.convert rne false (mantValue x.inm (mantOf x.inm (i % 32) planes) e)).1, false), s)
  else
    match s.engineBytes g 3 (x.src + y * x.pitch + x.srcSize * i) x.srcSize with
    | (none, s) => (none, s)
    | (some b, s) => (some (if marked b then 0 else toFp32 x.infmt (ofBytes (plain b)), marked b), s)

/-- RNE(a / b) in fp32 for positive integers (R366). -/
def ratio32 (a b : Nat) : Nat :=
  let q := a * 2 ^ 64 / b
  (fp32.round rne false (2 * q + (if a * 2 ^ 64 % b = 0 then 0 else 1)) (-65)).1

/-- Fused and single operations on fp32 patterns (R365). -/
def fma32 (a b c : Nat) : Nat := (fp32.fmaR rne (fp32.read a) (fp32.read b) (fp32.read c)).1
def sub32 (a b : Nat) : Nat := (fp32.addV rne (fp32.read a) (fp32.read b).neg).1
def int32 (n : Nat) : Nat := (fp32.ofInt rne n).1

/-- A source coordinate of resize: its two neighbours and its fraction (R366). -/
def axisAt (n on k : Nat) : Nat × Nat × Nat :=
  let v := (fp32.fmaR rne (.fin false (2 * k + 1) (-1)) (fp32.read (ratio32 n on)) (.fin true 1 (-1))).1
  let v := if bit v 31 then 0 else if v > int32 (n - 1) then int32 (n - 1) else v
  let x0 := match fp32.read v with
    | .fin _ m e => if 0 ≤ e then m * 2 ^ e.toNat else m / 2 ^ (-e).toNat
    | _ => 0
  (x0, min (x0 + 1) (n - 1), sub32 v (int32 x0))

/-- RNE(f × RNE(b − a) + a), fused (R366). -/
def lerp (f a b : Nat) : Nat := fma32 f (sub32 b a) a

/-- Element `(y, x, c)` of the output before the output stage: crop, resize, normalise (R365, R366). -/
def State.outElem (s : State) (g : Agent) (v : Xform) (y xx c : Nat) : Option (Word × Bool) × State :=
  let at_ := fun (s : State) (yy k : Nat) => s.srcElem g v (v.cy + yy) ((v.cx + k) * v.c + c)
  let fin := fun (r : Nat) (bad : Bool) => (BitVec.ofNat 32 (if v.norm then fma32 r (v.scale.getD c 0) (v.bias.getD c 0) else r), bad)
  if v.resize then
    let (x0, x1, fx) := axisAt v.winW v.ow xx
    let (y0, y1, fy) := axisAt v.winH v.oh y
    match at_ s y0 x0 with
    | (none, s) => (none, s)
    | (some a, s) => match at_ s y0 x1 with
      | (none, s) => (none, s)
      | (some b, s) => match at_ s y1 x0 with
        | (none, s) => (none, s)
        | (some p, s) => match at_ s y1 x1 with
          | (none, s) => (none, s)
          | (some q, s) =>
            let t := lerp fx a.1.toNat b.1.toNat
            let u := lerp fx p.1.toNat q.1.toNat
            (some (fin (lerp fy t u) (a.2 || b.2 || p.2 || q.2)), s)
  else
    match at_ s y xx with
    | (none, s) => (none, s)
    | (some a, s) => (some (fin a.1.toNat a.2), s)

/-- Element number `k` of the output. -/
def State.outElemAt (s : State) (g : Agent) (v : Xform) (k : Nat) : Option (Word × Bool) × State :=
  s.outElem g v (k / (v.outW * v.c)) (k % (v.outW * v.c) / v.c) (k % v.c)

/-- `n` elements of the output from number `k` on. -/
def State.outElems (s : State) (g : Agent) (v : Xform) (k : Nat) : Nat → Option (List (Word × Bool)) × State
  | 0 => (some [], s)
  | n + 1 =>
    match s.outElemAt g v k with
    | (none, s) => (none, s)
    | (some a, s) =>
      match s.outElems g v (k + 1) n with
      | (some r, s) => (some (a :: r), s)
      | (none, s) => (none, s)

/-- Byte `i` of the output (R367). Where the exponent vector overlaps the images, the bytes are unspecified. -/
def State.xfByte (s : State) (g : Agent) (v : Xform) (i : Nat) : Option Marked × State :=
  if v.outfmt < 2 then
    let w := if v.outfmt = 0 then 2 else 4
    match s.outElemAt g v (i / w) with
    | (none, s) => (none, s)
    | (some a, s) =>
      let b := if v.outfmt = 0 then (bf16.convert rne false (fp32.read a.1.toNat)).1 else a.1.toNat
      (some (BitVec.ofNat 8 (b / 256 ^ (i % w)), a.2), s)
  else
    let img := 4 * v.outm * v.blocks
    let blk := if i < img then i / (4 * v.outm) else i - img
    match s.outElems g v (32 * blk) 32 with
    | (none, s) => (none, s)
    | (some es, s) =>
      let y := blk / (v.outW * v.c / 32)
      let (ms, e) := blockOf v.outm ((v.phase + y / 32) % 32) (es.map fun a => fp32.read a.1.toNat)
      let clash := decide (i < img ∧ v.eoff ≤ i ∧ i < v.eoff + v.blocks ∨ img ≤ i ∧ v.place i < img)
      let b : Byte :=
        if clash then Config.freeByte s.tick i
        else if i < img then BitVec.ofNat 8 ((planeWord v.outm (i / 4 % v.outm) ms).toNat / 256 ^ (i % 4))
        else BitVec.ofNat 8 e
      (some (b, es.any (·.2)), s)

end Sys2Proof.Machine
end

