-- ==== Sys2Proof/Machine/Copies.lean ====
section
/-! DEFINITION. The copy engine (R353 to R362), CPXF (R364), tensor copies (R371 to R375), batches, and the events of
copies. -/

namespace Sys2Proof.Machine

open Sys2Proof

/-! ## Descriptors (R354, R355) -/

/-- The control word (R354). -/
structure Ctl where
  off : Nat
  bck : Nat
  bcen : Bool
  cb : Bool
  esz : Nat
  mbz : Nat
  deriving DecidableEq, Repr

def ctlOf (v : DWord) : Ctl :=
  let x := v.toNat
  { off := bits x 31 0, bck := bits x 34 32, bcen := bit x 35, cb := bit x 36, esz := bits x 39 37, mbz := bits x 63 40 }

/-- A box on the global side (R355). -/
structure Box where
  g : Nat
  l0 : Nat
  n1 : Nat
  n2 : Nat
  s1 : Int
  s2 : Int
  mbz : Nat
  deriving DecidableEq, Repr

def boxOf (ops : List DWord) : Box :=
  let x := fun k => (ops.getD k 0).toNat
  { g := x 0, l0 := bits (x 3) 23 0, n1 := bits (x 3) 39 24, n2 := bits (x 3) 55 40, s1 := signed 64 (x 4), s2 := signed 64 (x 5)
    mbz := bits (x 3) 63 56 }

/-- T, the bytes that a box moves. -/
def Box.total (b : Box) : Nat := b.l0 * b.n1 * b.n2

/-- The address of row `r`, counted over planes. -/
def Box.row (b : Box) (r : Nat) : Nat :=
  (((b.g : Int) + (r / b.n1 : Nat) * b.s2 + (r % b.n1 : Nat) * b.s1) % (2 ^ 64 : Nat)).toNat

/-- The global address of byte `i` of the copy (R355). -/
def Box.addr (b : Box) (i : Nat) : Nat := (b.row (i / b.l0) + i % b.l0) % 2 ^ 64

/-- The opcodes and forms of copies (R353). -/
inductive CopyKind where
  | g2s | mem | s2g | multi | xform | t2s | s2t
  deriving DecidableEq, Repr

def copyKind (opc sz : Nat) : CopyKind :=
  match opc with
  | 0x2F => if sz = 1 then .mem else .g2s
  | 0x30 => .s2g
  | 0x31 => .multi
  | 0x32 => .xform
  | 0x33 => .t2s
  | _ => .s2t

/-- Whether a copy writes a scratchpad. -/
def CopyKind.toPad : CopyKind → Bool
  | .g2s | .multi | .xform | .t2s => true
  | _ => false

/-! ## Tensors (R371 to R374) -/

/-- The tensor of a handle in a context, if the handle is valid (R373). -/
def Context.tensorOf (c : Context) (h : Nat) : Option Tensor :=
  match c.tensors.find (h % 1024) with
  | some t => if bits h 23 10 = 0 ∧ t.gen = bits h 31 24 ∧ ! t.destroying then some t else none
  | none => none

/-- Extent `k` of a tensor. -/
def Tensor.dim (t : Tensor) (k : Nat) : Nat := t.dims.getD k 1

/-- The byte offset of an element (R372). -/
def Tensor.offset (t : Tensor) (x : List Nat) : Nat :=
  let c := fun k => x.getD k 0
  let d := t.dim
  if t.layout = 0 then t.esz * (c 0 + d 0 * (c 1 + d 1 * (c 2 + d 2 * (c 3 + d 3 * c 4))))
  else
    let t0 := ceilDiv (d 0) 32
    let t1 := ceilDiv (d 1) 32
    t.esz * (1024 * (c 0 / 32 + t0 * (c 1 / 32 + t1 * (c 2 + d 2 * (c 3 + d 3 * c 4)))) + c 0 % 32 + 32 * (c 1 % 32))

/-- A box of a tensor: coordinates and extents (R374). -/
structure TBox where
  c : List Nat
  e : List Nat
  mbz : Nat
  deriving DecidableEq, Repr

def tboxOf (ops : List DWord) : TBox :=
  let x := (ops.getD 3 0).toNat
  let y := (ops.getD 4 0).toNat
  { c := [bits x 15 0, bits x 31 16, bits x 47 32, bits x 63 48, bits y 15 0], e := [bits y 31 16, bits y 47 32, bits y 63 48]
    mbz := bits (ops.getD 0 0).toNat 63 32 }

/-- The number of elements of a box. -/
def TBox.count (b : TBox) : Nat := b.e.getD 0 0 * b.e.getD 1 0 * b.e.getD 2 0

/-- The coordinates of element `k` of a box, dimension 0 fastest (R374). -/
def TBox.elem (b : TBox) (k : Nat) : List Nat :=
  let e0 := b.e.getD 0 1
  let e1 := b.e.getD 1 1
  [b.c.getD 0 0 + k % e0, b.c.getD 1 0 + k / e0 % e1, b.c.getD 2 0 + k / (e0 * e1), b.c.getD 3 0, b.c.getD 4 0]

/-- The place of an element in its tower's tensor store (R372). -/
def Tensor.place (t : Tensor) (b : TBox) (k : Nat) : Nat := t.start + t.offset (b.elem k)

/-- The bank of a byte of a tower's tensor store, as a part (R13, R372). -/
def tsBank (tower a : Nat) : PartRef := ⟨.tsBank, 64 * tower + a / 4096 % 64⟩

/-- Whether a bank is fenced or retired. -/
def State.bankGone (s : State) (p : PartRef) : Bool := s.dev.fenced.contains p || s.dev.mapped.contains p

/-- Read a byte of a tensor store: a byte of a fenced bank is zero and poisoned (R374). -/
def State.tsByte (s : State) (tower a : Nat) : Marked :=
  if s.bankGone (tsBank tower a) then (0, true)
  else
    let bad := (s.tower tower).tsPoison.contains (a / 32)
    (if bad then 0 else Mem.get (s.tower tower).ts a, bad)

/-- Write marked bytes into a tensor store (R117, R374). -/
def State.tsWrite (s : State) (tower : Nat) (l : List (Nat × Marked)) : State :=
  let l := l.filter fun p => ! s.bankGone (tsBank tower p.1)
  let whole := fun sec => (List.range 32).all fun j => l.any fun p => p.1 == 32 * sec + j
  s.modTower tower fun w =>
    let secs := (l.map fun p => p.1 / 32).eraseDups
    let gone := secs.filter whole
    let new := ((l.filter fun p => p.2.2).map fun p => p.1 / 32).eraseDups
    { w with ts := l.foldl (fun m p => Mem.set m p.1 p.2.1) w.ts
             tsPoison := new.foldl (fun t n => insertNat n t) (w.tsPoison.filter fun n => ! gone.contains n) }

/-! ## Checks at issue (R356, R364, R374) -/

/-- The checks of one contiguous range, page by page in ascending order: the causes found (R268, R272, R356). -/
def State.walkPages (s : State) (cl ctx : Nat) (priv : Bool) (k : AccKind) : Nat → Nat → Nat → List (Nat × Nat) × State
  | 0, _, _ => ([], s)
  | fuel + 1, a, n =>
    if n = 0 then ([], s)
    else
      let m := min n (65536 - a % 65536)
      let a := a % 2 ^ 64
      let (c, s) : List (Nat × Nat) × State :=
        if 2 ^ 52 ≤ a then ([(0x10, 1)], s)
        else match s.reach cl ctx priv k a m with
          | (.trap code sub, s) => ([(code, sub)], s)
          | (_, s) => ([], s)
      let (r, s) := s.walkPages cl ctx priv k fuel (a + m) (n - m)
      (c ++ r, s)

/-- The checks of several ranges, of at most 2 MiB each. -/
def State.walkRanges (s : State) (cl ctx : Nat) (priv : Bool) (k : AccKind) : List (Nat × Nat) → List (Nat × Nat) × State
  | [] => ([], s)
  | (a, n) :: t =>
    let (c, s) := s.walkPages cl ctx priv k (n / 65536 + 2) a n
    let (r, s) := s.walkRanges cl ctx priv k t
    (c ++ r, s)

/-- The first fault in the order of the table: XLAT, then SEALW (R92, R356). -/
def firstFault (l : List (Nat × Nat)) : Option (Nat × Nat) :=
  match l.find? fun p => p.1 == 0x10 with
  | some p => some p
  | none => l.head?

/-- The global ranges of a box, one for each row. -/
def Box.ranges (b : Box) : List (Nat × Nat) := (List.range (b.n1 * b.n2)).map fun r => (b.row r, b.l0)

/-- Whether the descriptor of a memory copy is malformed (R356). -/
def boxBad (k : CopyKind) (nbuf : Nat) (ops : List DWord) : Bool :=
  let x := fun n => (ops.getD n 0).toNat
  let c := ctlOf (ops.getD 2 0)
  let b := boxOf ops
  let es := 2 ^ c.esz
  c.mbz != 0 || b.mbz != 0 || decide (c.esz > 4) || b.total == 0 || decide (b.total > 2097152) || (c.cb && c.off != 0)
    || ((c.bcen || c.cb) && ! k.toPad)
    || b.l0 % es != 0 || decide (b.s1 % (es : Int) ≠ 0) || decide (b.s2 % (es : Int) ≠ 0) || c.off % es != 0
    || (k == .mem && x 1 % es != 0)
    || (k == .multi && (decide (x 1 ≥ nbuf) || bits (x 6) 63 8 != 0 || bits (x 6) 7 0 == 0))

/-- How the checks of a copy end: a cause (code, SUB), a wait, or well. -/
inductive CopyChk where
  | ok | bad (code sub : Nat) | wait (k : WaitKind) (phase : Nat)
  deriving DecidableEq, Repr

/-- The checks of CPG2S, CPS2G and CPMC (R356). -/
def State.checkBox (s : State) (cl ctx : Nat) (priv : Bool) (k : CopyKind) (nbuf : Nat) (ops : List DWord) :
    CopyChk × State :=
  let b := boxOf ops
  let c := ctlOf (ops.getD 2 0)
  if boxBad k nbuf ops then (.bad 0x11 2, s)
  else if b.g % 2 ^ c.esz ≠ 0 then (.bad 0x11 1, s)
  else
    let (l, s) := s.walkRanges cl ctx priv (if k = .s2g then .engineWrite else .engineRead) b.ranges
    let (r, s) := if k = .mem then s.walkRanges cl ctx priv .engineWrite [((ops.getD 1 0).toNat, b.total)] else ([], s)
    match firstFault (l ++ r) with
    | some (code, sub) => (.bad code sub, s)
    | none => (.ok, s)

/-- The transform of the scalars of a CPXF; the prologue's frame numbers go on in a seventh (R364, R369). -/
def xformOps (chain : List Byte) (ops : List DWord) (tower : Nat) : Xform :=
  let x := fun k => (ops.getD k 0).toNat
  xformOf chain (x 0 + 2 ^ 64 * x 6) (x 4) (x 5) tower

/-- The global ranges of a transform's source (R364). -/
def Xform.ranges (x : Xform) : List (Nat × Nat) :=
  if x.srck = 1 then []
  else ((List.range x.h).map fun y => ((x.src + y * x.pitch) % 2 ^ 64, x.rowBytes))
    ++ if x.infmt = 4 then [(x.exps, x.h * (x.w * x.c / 32))] else []

/-- The checks of CPXF once its chain record is read (R356, R364). -/
def State.checkXform (s : State) (cl ctx : Nat) (priv : Bool) (c : Ctl) (x : Xform) : CopyChk × State :=
  if c.mbz ≠ 0 ∨ c.esz ≠ 0 ∨ (c.cb = true ∧ c.off ≠ 0) ∨ x.malformed = true ∨ s.sessionBad x = true then (.bad 0x11 2, s)
  else if x.srck = 0 ∧ x.src % x.srcSize ≠ 0 then (.bad 0x11 1, s)
  else
    let (l, s) := s.walkRanges cl ctx priv .engineRead x.ranges
    match firstFault l with
    | some (code, sub) => (.bad code sub, s)
    | none => (.ok, s)

/-- The checks of CPT2S and CPS2T (R374). -/
def State.checkTensor (s : State) (ctx : Nat) (k : CopyKind) (ops : List DWord) : CopyChk :=
  let c := ctlOf (ops.getD 2 0)
  let b := tboxOf ops
  let t := (s.ctx ctx).tensorOf (ops.getD 0 0).toNat
  let esz := (t.map (·.esz)).getD 1
  if b.mbz ≠ 0 ∨ c.mbz ≠ 0 ∨ c.esz ≠ 0 ∨ b.count = 0 ∨ (k = .s2t ∧ (c.cb = true ∨ c.bcen = true)) ∨ (c.cb = true ∧ c.off ≠ 0)
      ∨ c.off % esz ≠ 0 ∨ b.count * esz > 2097152 then .bad 0x11 2
  else
    match t with
    | none => .bad 0x17 1
    | some t =>
      if (List.range 3).any fun i => decide (b.c.getD i 0 + b.e.getD i 0 > t.dim i) then .bad 0x17 2
      else if b.c.getD 3 0 ≥ t.dim 3 ∨ b.c.getD 4 0 ≥ t.dim 4 then .bad 0x17 2
      else if (List.range b.count).any fun k => s.bankGone (tsBank t.tower (t.place b k)) then .bad 0x17 3
      else .ok

/-! ## The ends of a copy (R235, R236, R357) -/

/-- The end at a buffer handle on a core: an invalid handle gives generation 0. -/
def State.endOf (s : State) (core team : Nat) (h : DWord) (off : Nat) : CopyEnd :=
  match (s.core core).bufOf team h with
  | some b => { core := core, buf := handleId h, gen := b.gen, off := off, lim := 2 ^ 32, slot := none }
  | none => { core := core, buf := handleId h, gen := 0, off := off, lim := 2 ^ 32, slot := none }

/-- The end at the team's kernel buffer `k` on a core (R357). -/
def State.kernelEnd (s : State) (core team k off : Nat) : CopyEnd :=
  match (s.core core).bufs.find? fun p => p.2.team == team && p.2.num == k && ! p.2.parked with
  | some (id, b) => { core := core, buf := id, gen := b.gen, off := off, lim := 2 ^ 32, slot := none }
  | none => { core := core, buf := 0, gen := 0, off := off, lim := 2 ^ 32, slot := none }

/-- The buffer at an end. -/
def State.bufAt (s : State) (x : CopyEnd) : Option Buf :=
  match (s.core x.core).bufs.find x.buf with
  | some b => if b.gen = x.gen ∧ ! b.parked then some b else none
  | none => none

/-- The cores that CMASK names (R355). -/
def maskCores (cl : Nat) (ops : List DWord) : List Nat :=
  ((List.range 8).filter fun c => (ops.getD 6 0).getLsbD c).map fun c => 8 * cl + c

/-- The scratchpad ends of a copy before any claim (R355, R357). -/
def State.padEnds (s : State) (core team : Nat) (cores : List Nat) (k : CopyKind) (ops : List DWord) : List CopyEnd :=
  let off := (ctlOf (ops.getD 2 0)).off
  match k with
  | .mem => []
  | .multi => ((maskCores (clusterOfCore core) ops).filter cores.contains).map fun c =>
      s.kernelEnd c team (ops.getD 1 0).toNat off
  | _ => [s.endOf core team (ops.getD 1 0) off]

/-- The circular buffer at an end. -/
def State.circAt (s : State) (x : CopyEnd) : Option Circ := (s.bufAt x).bind (·.circ)

/-- Whether a copy with CB must wait for a slot at an end (R236, R248). -/
def State.slotless (s : State) (x : CopyEnd) : Bool :=
  match s.circAt x with
  | some c => c.free == 0 || s.cfgWaits x.core x.buf
  | none => false

/-- Claim a slot at an end (R235, R236): the end with its slot, and the state. -/
def State.claimAt (s : State) (x : CopyEnd) : CopyEnd × State :=
  match s.circAt x with
  | some c =>
    let (k, c') := c.claim
    ({ x with off := 1024 * c.srows * k, lim := 1024 * c.srows * (k + 1), slot := some k },
     s.modCore x.core fun r => r.setCirc x.buf (some c'))
  | none => (x, s)

/-- Claim slots at every end. -/
def State.claimAll (s : State) : List CopyEnd → List CopyEnd × State
  | [] => ([], s)
  | x :: t =>
    let (x, s) := s.claimAt x
    let (r, s) := s.claimAll t
    (x :: r, s)

/-- The team core of a core. -/
def Team.coreNo (t : Team) (core : Nat) : Nat := t.cores.findIdx (· == core)

/-- Bytes land at a receiving core: they count toward its byte counter (R340, R359). -/
def State.landBytes (s : State) (team core : Nat) (c : Ctl) (n : Nat) : State :=
  if c.bcen then s.modTeam team fun t => t.land (t.coreNo core) c.bck n else s

/-! ## Issue (R356, R357) -/

/-- A copy as it issues, without its ends. -/
def newCopy (gid team launch ctx core opc sz : Nat) (ops : List DWord) (chain : List Byte) (total batch : Nat) (clause : Word) :
    Copy :=
  { gid := gid, team := team, launch := launch, ctx := ctx, core := core, opc := opc, sz := sz, ops := ops, chain := chain
    total := total, landed := [], ends := [], bck := none, batch := batch, prologue := false, clause := clause, failed := []
    linkBad := [], lostAt := [] }

/-- The copies of a group that have issued and not completed. -/
def State.copiesOf (s : State) (gid : Nat) : List (Nat × Copy) := s.copies.filter fun c => c.2.gid == gid && ! c.2.prologue

/-- A copy enters the engine with its ends: those of a copy with CB whose buffer has no circular buffer are dropped with
KIND 2 and land at once; cores of CMASK without the team record KIND 1 (R236, R357). -/
def State.enterCopy (s : State) (c : Copy) (missing : List Nat) (ends : List CopyEnd) : Nat × State :=
  let ctl := ctlOf (c.ops.getD 2 0)
  let s := missing.foldl (fun s k => s.setSpoor c.launch (spoorWord 0 0 1 true 0 k)) s
  let out := ends.filter fun x => ctl.cb && (s.bufAt x).isSome && (s.circAt x).isNone
  let s := out.foldl (fun s x =>
    (s.setSpoor c.launch (spoorWord 0 x.buf 2 true 0 x.core)).landBytes c.team x.core ctl c.total) s
  let (es, s) := if ctl.cb then s.claimAll (ends.filter fun x => ! out.contains x) else (ends, s)
  let (n, s) := s.gensym
  (n, { s with copies := s.copies.put n { c with ends := es, bck := if ctl.bcen then some ctl.bck else none, lostAt := out.map (·.core) } })

/-- The entries of a group's copies that wait to be issued again (R107). -/
def Group.entries (g : Group) : List (List Byte) :=
  g.ops.filterMap fun (o : Op) => match o.act with
    | .entry l => some l
    | _ => none

/-- The batch of an entry (R107). -/
def entryBatch (l : List Byte) : Nat := field l 8 8

/-- An operation joins batch `n` if it is a copy of the open batch that waits to be issued again (R107, R360). -/
def Op.join (n : Nat) (o : Op) : Op :=
  match o.act with
  | .entry l => if entryBatch l = 0 then { o with act := .entry (l.take 8 ++ toBytes 8 n ++ l.drop 16) } else o
  | _ => o

/-- The body of a copy once its checks have passed: it waits while the group has 64 copies or a slot is not free, and then
issues; with DC = 6 the group is held until the copy completes (R356). -/
def startCopy (f : MX) (opc total : Nat) (ops : List DWord) (chain : List Byte) (e : Env) (s : State) : Res :=
  let core := coreOf e.gid
  let k := copyKind opc f.sz.toNat
  let ends := s.padEnds core e.g.team e.team.cores k ops
  let ctl := ctlOf (ops.getD 2 0)
  if (s.copiesOf e.gid).length + e.g.entries.length ≥ 64 then .wait .copies 0 0 s
  else if ctl.cb && ends.any s.slotless then .wait .circ 0 2 s
  else
    let missing := if k = .multi then (maskCores (clusterOfCore core) ops).filter fun c => ! e.team.cores.contains c else []
    let c := newCopy e.gid e.g.team e.team.launch e.team.ctx core opc f.sz.toNat ops chain total 0 e.c.addr
    let (n, s) := s.enterCopy c missing ends
    if f.dc.toNat < 6 then .later {} (.copy n) s else .wait .copies n 1 s

/-- The copy that a group with DC = 6 is held by. -/
def Group.heldCopy (g : Group) : Option Nat :=
  match g.wait with
  | some ⟨.copies, _, _, n, 1⟩ => some n
  | _ => none

/-- A copy instruction: held by its copy, or its checks and its issue. -/
def copyBody (check : Env → State → (CopyChk × List Byte × Nat) × State) (f : MX) (opc : Nat) (ops : Env → List DWord)
    (e : Env) (s : State) : Res :=
  match e.g.heldCopy with
  | some n => if (s.copies.find n).isSome then .wait .copies n 1 s else .done {} s
  | none =>
    match check e s with
    | ((.bad code sub, _, _), s) => .trap (e.cause code sub) s
    | ((.wait k ph, _, _), s) => .wait k 0 ph s
    | ((.ok, chain, total), s) => startCopy f opc total (ops e) chain e s

/-- The descriptor scalars (R354). -/
def scalars (f : MX) (n : Nat) (e : Env) : List DWord := (span f.base.toNat n).map e.g.sreg

/-- The shape of a copy instruction. -/
def copyShape (f : MX) (opc n : Nat) : Shape :=
  { sr := span f.base.toNat n, dc := f.dc.toNat, opc := opc, sz := f.sz.toNat, out := .output }

/-- The checks of a memory copy for a group. -/
def boxCheck (k : CopyKind) (f : MX) (n : Nat) (e : Env) (s : State) : (CopyChk × List Byte × Nat) × State :=
  let ops := scalars f n e
  let (r, s) := s.checkBox (clusterOf e.gid) e.team.ctx (cfgPriv e.g.ctxcfg) k e.launch.nbuf ops
  ((r, [], (boxOf ops).total), s)

/-- CPG2S and CPG2S.mem (R355 to R357). -/
def execCpg2s (f : MX) (s : State) : Host.Outcome State Fault Refusal :=
  issue (.cpg2s f) (copyShape f 0x2F 6)
    (copyBody (boxCheck (copyKind 0x2F f.sz.toNat) f 6) f 0x2F (scalars f 6)) s

/-- CPS2G (R355 to R357). -/
def execCps2g (f : MX) (s : State) : Host.Outcome State Fault Refusal :=
  issue (.cps2g f) (copyShape f 0x30 6) (copyBody (boxCheck .s2g f 6) f 0x30 (scalars f 6)) s

/-- CPMC (R355 to R357). -/
def execCpmc (f : MX) (s : State) : Host.Outcome State Fault Refusal :=
  issue (.cpmc f) (copyShape f 0x31 7) (copyBody (boxCheck .multi f 7) f 0x31 (scalars f 7)) s

/-- The checks of CPXF: its chain record is read as LDG reads it, then R364 applies. -/
def xformCheck (f : MX) (e : Env) (s : State) : (CopyChk × List Byte × Nat) × State :=
  let ops := scalars f 6 e
  let ra := (ops.getD 3 0).toNat
  if ra % 64 ≠ 0 then ((.bad 0x11 2, [], 0), s)
  else
    let (ps, s) := s.probe e .load (.load 64) false 64 [(0, ra), (1, (ra + 64) % 2 ^ 64)]
    match s.loadGate e 0 ps with
    | (.trap c, s) => ((.bad c.code c.sub, [], 0), s)
    | (.wait k ph, s) => ((.wait k ph, [], 0), s)
    | (.open, s) =>
      match s.peerReads e 64 ps with
      | (none, id, s) => ((.wait (.peer id) 0, [], 0), s)
      | (some peer, _, s) =>
        let (bs, s) := s.readLanes e 64 peer readLdg ps
        let chain := bytesOf bs 0 ++ bytesOf bs 1
        let x := xformOps chain ops (towerOf e.gid)
        let (r, s) := s.checkXform (clusterOf e.gid) e.team.ctx (cfgPriv e.g.ctxcfg) (ctlOf (ops.getD 2 0)) x
        ((r, chain, x.outBytes), s)

/-- CPXF (R364, R365). -/
def execCpxf (f : MX) (s : State) : Host.Outcome State Fault Refusal :=
  issue (.cpxf f) (copyShape f 0x32 6) (copyBody (xformCheck f) f 0x32 (scalars f 6)) s

/-- The checks of a tensor copy. -/
def tensorCheck (k : CopyKind) (f : MX) (e : Env) (s : State) : (CopyChk × List Byte × Nat) × State :=
  let ops := scalars f 5 e
  let esz := (((s.ctx e.team.ctx).tensorOf (ops.getD 0 0).toNat).map (·.esz)).getD 1
  ((s.checkTensor e.team.ctx k ops, [], (tboxOf ops).count * esz), s)

/-- CPT2S (R374). -/
def execCpt2s (f : MX) (s : State) : Host.Outcome State Fault Refusal :=
  issue (.cpt2s f) (copyShape f 0x33 5) (copyBody (tensorCheck .t2s f) f 0x33 (scalars f 5)) s

/-- CPS2T (R374). -/
def execCps2t (f : MX) (s : State) : Host.Outcome State Fault Refusal :=
  issue (.cps2t f) (copyShape f 0x34 5) (copyBody (tensorCheck .s2t f) f 0x34 (scalars f 5)) s

/-! ## Batches (R360, R361) -/

/-- CSEAL (R360). -/
def execCseal (f : MX) (s : State) : Host.Outcome State Fault Refusal :=
  issue (.cseal f) { sw := [f.base.toNat], opc := 0x35, out := .input } (fun e s =>
    let n := max s.time (e.g.batch + 1)
    let s := { s with copies := s.copies.map fun (p : Nat × Copy) =>
      if p.2.gid = e.gid ∧ ! p.2.prologue ∧ p.2.batch = 0 then (p.1, { p.2 with batch := n }) else p }
    let s := s.modTeam e.g.team fun t =>
      { t with dests := t.dests.map fun d => if d.1 = e.g.num ∧ d.2.1 = 0 then (d.1, n, d.2.2) else d }
    .done { sw := [(f.base.toNat, BitVec.ofNat 64 n)] } (s.modGroup e.gid fun g => { g with batch := n, ops := g.ops.map (Op.join n) })) s

/-- Whether every copy of a group in a batch numbered at most `n` has completed (R361). -/
def State.batchDone (s : State) (gid n : Nat) : Bool :=
  let within := fun (b : Nat) => b != 0 && decide (b ≤ n)
  ! ((s.copiesOf gid).any fun c => within c.2.batch)
    && ! (((s.groups.find gid).map Group.entries).getD []).any fun l => within (entryBatch l)

/-- What CWAIT does once its batches have completed (R361): the L1 lines of their destinations are made fresh, and the
batches are recorded for the next release of each barrier of the team (R338). A later CWAIT that covers them does so again. -/
def State.cwaited (s : State) (gid team n : Nat) : State :=
  match s.groups.find gid, s.teams.find team with
  | some g, some t =>
    let mine := t.dests.filter fun d => d.1 == g.num && d.2.1 != 0 && decide (d.2.1 ≤ n)
    let s := s.refreshL1 (coreOf gid) false fun l => mine.any fun d => inRange t.ctx d.2.2.1 d.2.2.2 l
    let new := (List.range 4).flatMap fun b => mine.map fun d => (⟨b, d.1, false, d.2.2.1, d.2.2.2⟩ : FreshRange)
    s.modTeam team fun t => { t with fresh := t.fresh ++ new.filter fun r => ! t.fresh.contains r }
  | _, _ => s

/-- CWAIT (R361). With a counter it acts when it completes. -/
def execCwait (f : MX) (s : State) : Host.Outcome State Fault Refusal :=
  issue (.cwait f) { sr := [f.base.toNat], dc := f.dc.toNat, opc := 0x36, out := .input } (fun e s =>
    let n := (e.g.sreg f.base.toNat).toNat
    if f.dc.toNat < 6 then (if e.g.manyWaits then .wait .other 0 0 s else .later {} (.cwait n) s)
    else if s.batchDone e.gid n then .done {} (s.cwaited e.gid e.g.team n)
    else .wait .copies 0 0 s) s

/-! ## Landing (R357 to R359) -/


/-- Whether a piece overlaps what has landed. -/
def Copy.again (c : Copy) (lo len : Nat) : Bool := c.landed.any fun p => overlaps lo len p.1 p.2

/-- Whether every byte has landed. -/
def Copy.full (c : Copy) : Bool := decide (sumBy (·.2) c.landed ≥ c.total)

/-- The agent that reads for copy `n`. -/
def Copy.agent (c : Copy) (n : Nat) : Agent :=
  { cl := clusterOfCore c.core, ctx := c.ctx, launch := c.launch, who := .copyRead, owner := n, gid := c.gid, linkBad := c.linkBad }

/-- The transform of a CPXF. -/
def Copy.xform (c : Copy) : Xform :=
  xformOps c.chain c.ops (towerOfCore c.core)

/-- Read byte `off + i` of a scratchpad source: out of range reads zero, a stale row zero with a mark and CHKIV.POISON
(R230, R358). -/
def State.padByte (s : State) (c : Copy) (x : CopyEnd) (i : Nat) : Marked × State :=
  let o := x.off + i
  let k := s.core x.core
  match k.classify s.time (s.bufAt x) o 1 true with
  | .out kind => ((0, false), s.setSpoor c.launch (spoorWord o x.buf kind false 0 x.core))
  | .trap _ _ => ((0, true), s.setChk c.launch chkPoison)
  | .ok row col =>
    let r := s.padRow x.core c.gid row
    ((if r.bad col then 0 else (r.read col 1).headD 0, r.readsPoison col 1), s)

/-- The tensor of a tensor copy. -/
def State.copyTensor (s : State) (c : Copy) : Option Tensor := (s.ctx c.ctx).tensors.find ((c.ops.getD 0 0).toNat % 1024)

/-- Where byte `i` of the output lies from the destination's start. -/
def Copy.place (c : Copy) (i : Nat) : Nat := if copyKind c.opc c.sz = .xform then c.xform.place i else i

/-- The bytes that are written to a global or tensor element as one: at most 8 (R362, R375). -/
def State.copyUnit (s : State) (c : Copy) : Nat :=
  match copyKind c.opc c.sz with
  | .xform => 1
  | .t2s | .s2t => min (((s.copyTensor c).map (·.esz)).getD 1) 8
  | _ => min (2 ^ (ctlOf (c.ops.getD 2 0)).esz) 8

/-- Whether a piece may begin or end at byte `i`: elements of a global side or a tensor and aligned words of a scratchpad are
whole (R239, R362, R375). -/
def State.cut (s : State) (c : Copy) (i : Nat) : Bool :=
  i == 0 || i == c.total ||
    (i % s.copyUnit c == 0 && c.ends.all fun x => (x.off + c.place (i - 1)) / 4 != (x.off + c.place i) / 4)

/-- Byte `i` of the source of copy `n`; none if it cannot be read yet (R357, R358, R374). -/
def State.copySrc (s : State) (n : Nat) (c : Copy) (i : Nat) : Option Marked × State :=
  match copyKind c.opc c.sz with
  | .g2s | .mem | .multi => s.engineByte (c.agent n) 3 ((boxOf c.ops).addr i)
  | .s2g | .s2t =>
    match c.ends with
    | x :: _ => let (b, s) := s.padByte c x i; (some b, s)
    | [] => (some (0, false), s)
  | .xform => s.xfByte (c.agent n) c.xform i
  | .t2s =>
    match s.copyTensor c with
    | some t => (some (s.tsByte t.tower (t.place (tboxOf c.ops) (i / t.esz) + i % t.esz)), s)
    | none => (some (0, true), s)

/-- Whether byte `i` lies, on either side, on a page that RESOLVE failed, or is computed from one there (R358). -/
def State.skips (s : State) (c : Copy) (i : Nat) : Bool :=
  ! c.failed.isEmpty && (match copyKind c.opc c.sz with
    | .g2s | .multi | .s2g => c.failed.contains ((boxOf c.ops).addr i / 65536)
    | .mem => c.failed.contains ((boxOf c.ops).addr i / 65536) || c.failed.contains (((c.ops.getD 1 0).toNat + i) / 65536)
    | .xform => (s.xfByte { c.agent 0 with dry := some c.failed } c.xform i).1.isNone
    | _ => false)

/-- The bytes of a piece of copy `id` with their positions; `none` if one of them cannot be read yet. -/
def State.piece (s : State) (id : Nat) (c : Copy) (i : Nat) : Nat → Option (List (Nat × Marked)) × State
  | 0 => (some [], s)
  | n + 1 =>
    if s.skips c i then s.piece id c (i + 1) n
    else
      match s.copySrc id c i with
      | (none, s) => (none, s)
      | (some b, s) =>
        match s.piece id c (i + 1) n with
        | (some r, s) => (some ((i, b) :: r), s)
        | (none, s) => (none, s)

/-- Merge marked bytes at home, line by line (R278, R357, R358). -/
def State.mergeBytes (s : State) (l : List (Nat × Marked)) : State :=
  let lines := (l.map fun p => p.1 / 128).eraseDups
  lines.foldl (fun s n =>
    let mine := l.filter fun p => p.1 / 128 == n
    let d := mine.foldl (fun (a : BitVec 1024 × BitVec 128) p =>
      let m := byteMask (p.1 % 128) 1
      (overlay a.1 (BitVec.ofNat 1024 (p.2.1.toNat * 2 ^ (8 * (p.1 % 128)))) m, a.2 ||| m)) (0, 0)
    let s := s.homeMerge (n * 128) d.1 d.2
    (mine.filter fun p => p.2.2).foldl (fun s p => s.addPoison (sectorOf (homeKey p.1))) s) s

/-- Where the bytes of a global destination go: home places, places behind links, and the addresses in mirrored pages. -/
structure Places where
  home : List (Nat × Marked)
  link : List (Nat × Marked)
  mirrors : List (Nat × TlbEntry)
  deriving DecidableEq, Repr

/-- The places of a global destination's bytes; none if a page is not present, reported with the given kind, or its home
holds it (R282, R357, R358). -/
def State.globalPlaces (s : State) (c : Copy) (kind : Nat) : List (Nat × Marked) → Option Places × State
  | [] => (some ⟨[], [], []⟩, s)
  | (va, b) :: t =>
    match s.reach (clusterOfCore c.core) c.ctx true .engineWrite (va % 2 ^ 64) 1 with
    | (.ok pa e, s) =>
      if spaceOf pa = .link then
        match s.globalPlaces c kind t with
        | (some q, s) => (some { q with link := (pa, b) :: q.link }, s)
        | r => r
      else if s.reserveHolds pa then (none, s.reportFault c.ctx va 5 (8 * clusterOfCore c.core) 0 false false)
      else
        match s.home 8 pa with
        | .here p =>
          match s.globalPlaces c kind t with
          | (some q, s) =>
            let known := ! e.mirror || q.mirrors.any fun (m : Nat × TlbEntry) => m.1 / 128 == pa / 128
            (some { q with home := (p, b) :: q.home, mirrors := if known then q.mirrors else (pa, e) :: q.mirrors }, s)
          | r => r
        | _ => (none, s)
    | (.absent pte l3 attr, s) => (none, s.reportFault c.ctx va kind (8 * clusterOfCore c.core) pte l3 attr)
    | (_, s) => (none, s)

/-- Write a run of bytes at an offset of an end: within the buffer and the slot they are written row by row, beyond they
are dropped with SPOOR (R230, R236, R358). -/
def State.padWrite (s : State) (c : Copy) (x : CopyEnd) (o : Nat) (l : List Marked) : State :=
  match s.bufAt x with
  | none => s.setSpoor c.launch (spoorWord o x.buf 1 true 0 x.core)
  | some b =>
    let room := min (1024 * b.rows) x.lim - o
    let inside := l.take room
    let s := if l.length > room then s.setSpoor c.launch (spoorWord (max o (min (1024 * b.rows) x.lim)) x.buf 0 true 0 x.core) else s
    (List.range (inside.length / 1024 + 2)).foldl (fun s k =>
      let r := o / 1024 + k
      let from_ := max o (1024 * r)
      let until_ := min (o + inside.length) (1024 * (r + 1))
      if until_ ≤ from_ then s
      else
        let run := (inside.drop (from_ - o)).take (until_ - from_)
        let col := from_ % 1024
        let row := b.base + r
        let s := s.modCore x.core fun k => k.writeRow b s.time row col (plain run)
        let m := maskOf fun sec => (List.range run.length).any fun j => (run.getD j (0, false)).2 && (col + j) / 32 == sec
        s.modCore x.core fun k => { k with sp := k.sp.modify row fun q => { q with poison := q.poison ||| m } }) s

/-- Runs of consecutive destination places. -/
def runsOf : List (Nat × Marked) → List (Nat × List Marked)
  | [] => []
  | (o, b) :: t =>
    match runsOf t with
    | (p, bs) :: r => if p = o + 1 then (o, b :: bs) :: r else (o, [b]) :: (p, bs) :: r
    | [] => [(o, [b])]

/-- A run of bytes cut into naturally aligned requests of 1 to 256 bytes (R415). -/
def cutRun : Nat → Nat → List Marked → List (Nat × List Marked)
  | 0, _, _ => []
  | fuel + 1, a, l =>
    if l.isEmpty then []
    else
      let n := ([256, 128, 64, 32, 16, 8, 4, 2].find? fun k => a % k == 0 && decide (k ≤ l.length)).getD 1
      (a, l.take n) :: cutRun fuel (a + n) (l.drop n)

/-- The requests that write bytes behind link apertures: their data carries its marks (R117, R415, R416); a window that
admits no store fails them (R418). -/
def State.linkWrite (s : State) (c : Copy) (who : PeerKind) (owner : Nat) (l : List (Nat × Marked)) : State :=
  ((runsOf l).flatMap fun (r : Nat × List Marked) => cutRun r.2.length r.1 r.2).foldl (fun s p =>
    if admits (s.window p.1) .store then
      (s.sendPeer who (.write (plain p.2) (p.2.map (·.2))) c.gid c.launch c.ctx p.1 p.2.length owner).2
    else s.setChk c.launch chkPeerPost) s

/-- Write a piece to its destination; `none` if it cannot land yet (R357). `who` and `owner` name the writer to peers, `kind`
is that of its fault records. -/
def State.putPiece (s : State) (who : PeerKind) (owner kind : Nat) (c : Copy) (l : List (Nat × Marked)) :
    Option State × State :=
  let toGlobal := fun (s : State) (f : Nat → Nat) =>
    match s.globalPlaces c kind (l.map fun p => (f p.1, p.2)) with
    | (none, s) => ((none : Option State), s)
    | (some q, s) =>
      let s := (s.mergeBytes q.home).linkWrite c who owner q.link
      let s := q.mirrors.foldl (fun s m => s.mirrorStore c.gid c.launch c.ctx m.1 m.2) s
      (some s, s)
  match copyKind c.opc c.sz with
  | .s2g => toGlobal s fun i => (boxOf c.ops).addr i
  | .mem => toGlobal s fun i => ((c.ops.getD 1 0).toNat + i) % 2 ^ 64
  | .s2t =>
    match s.copyTensor c with
    | some t =>
      let s := s.tsWrite t.tower (l.map fun p => (t.place (tboxOf c.ops) (p.1 / t.esz) + p.1 % t.esz, p.2))
      (some s, s)
    | none => (some s, s)
  | _ =>
    let s := c.ends.foldl (fun s x =>
      (runsOf (l.map fun p => (x.off + c.place p.1, p.2))).foldl (fun s r => s.padWrite c x r.1 r.2) s) s
    (some s, s)

/-- The last byte of a copy has landed: its claimed slots have landed (R235). -/
def State.markSlots (s : State) (c : Copy) : State :=
  c.ends.foldl (fun s x => match x.slot, s.circAt x with
    | some k, some q => s.modCore x.core fun r =>
        r.setCirc x.buf (some { q with claims := q.claims.map fun p => if p.1 = k then (k, true) else p })
    | _, _ => s) s

/-- COPY_PIECE_LANDED: bytes [b, b + c) of copy a move and land (R340, R357, R359). -/
def execCopyPieceLanded (s : State) : Host.Outcome State Fault Refusal :=
  let n := s.arg.a
  let lo := s.arg.b
  let len := s.arg.c
  match s.copies.find n with
  | none => .next s
  | some c =>
    if len = 0 ∨ c.total < lo + len ∨ c.again lo len ∨ ! s.cut c lo ∨ ! s.cut c (lo + len) then .next s
    else
      match s.piece n c lo len with
      | (none, s) => .next s
      | (some l, s) =>
        match s.putPiece .copyWrite n 3 c l with
        | (none, s) => .next s
        | (some s, _) =>
          let ctl := ctlOf (c.ops.getD 2 0)
          let s := if (copyKind c.opc c.sz).toPad then
            c.ends.foldl (fun s x => s.landBytes c.team x.core ctl len) s else s
          let s := s.modCopy n fun c => { c with landed := (lo, len) :: c.landed }
          let c := { c with landed := (lo, len) :: c.landed }
          .next (if c.full then s.markSlots c else s)

/-- SLOT_LANDED: the landed slots of buffer b of core a that no earlier claimed slot holds up are filled (R235). -/
def execSlotLanded (s : State) : Host.Outcome State Fault Refusal :=
  .next (s.modCore s.arg.a fun k =>
    { k with bufs := k.bufs.modify s.arg.b fun b => { b with circ := b.circ.map Circ.settle } })

/-- The global destination of a completed copy, as the range of the addresses it wrote (R361). -/
def Copy.dests (c : Copy) : List (Nat × Nat) :=
  match copyKind c.opc c.sz with
  | .s2g => (boxOf c.ops).ranges
  | .mem => [((c.ops.getD 1 0).toNat, c.total)]
  | _ => []

/-- The prologue of a team ends: its bound buffers start as R237 states, and its groups start (R369). -/
def State.prologueEnd (s : State) (team : Nat) : State :=
  if s.copies.any fun c => c.2.prologue && c.2.team == team then s
  else
    match s.teams.find team with
    | none => s
    | some t =>
      if t.binds ≠ [] then s
      else if t.st = .prologue then
        let s := s.modTeam team fun t => { t with st := .running }
        s.modSiblings team (2 ^ 64) fun g => { g with st := .ready, age := s.tick }
      else s.settle team

/-- A buffer filled by the prologue carries one slot that covers it, FILLED (R237). -/
def boundCirc (b : Buf) : Buf := { b with circ := some { newCirc 1 b.rows with free := 0, filled := 1 } }

/-- A counted operation of a group is complete: its results are written and its counter falls (R79, R168). -/
def State.opDone (s : State) (gid : Nat) (o : Op) (e : Eff) : State :=
  s.modGroup gid fun g =>
    Group.apply e { g with ops := g.ops.filter fun p => p.id != o.id, dcs := g.dcs.put o.dc (g.dc o.dc - 1) }

/-- Whether a write of a copy or a task still waits for its target to accept it (R359, R416). -/
def State.writesOut (s : State) (who : PeerKind) (owner : Nat) : Bool :=
  s.peers.any fun (p : Nat × PeerReq) => p.2.kind == who && p.2.owner == owner

/-- Whether a copy names tensor `k` of a context (R371). -/
def Copy.names (c : Copy) (ctx k : Nat) : Bool :=
  c.ctx == ctx && (match copyKind c.opc c.sz with
    | .t2s | .s2t => (c.ops.getD 0 0).toNat % 1024 == k
    | _ => false)

/-- Tensors of a context whose destruction was asked for and that no copy names any more are gone; the request is answered
(R371). -/
def State.reapTensors (s : State) (ctx : Nat) : State :=
  let gone := ((s.ctx ctx).tensors.filter fun (p : Nat × Tensor) =>
    p.2.destroying && ! s.copies.any fun (c : Nat × Copy) => c.2.names ctx p.1).map (·.1)
  gone.foldl (fun (s : State) k => (s.modCtx ctx fun c => { c with tensors := c.tensors.del k }).answer .ok) s

/-- A copy leaves the engine with its requests. -/
def State.dropCopy (s : State) (n : Nat) : State :=
  let ctx := ((s.copies.find n).map (·.ctx)).getD 64
  let s : State := { s with
    copies := s.copies.del n
    peers := s.peers.filter fun (p : Nat × PeerReq) => ! (p.2.kind == .copyRead && p.2.owner == n) }
  s.reapTensors ctx

/-- A prologue copy ends: its buffers are bound (R237, R369). -/
def State.endPrologueCopy (s : State) (c : Copy) : State :=
  (c.ends.foldl (fun (s : State) x => s.modCore x.core fun k => { k with bufs := k.bufs.modify x.buf boundCirc }) s).prologueEnd c.team

/-- A group's copy ends: its destinations are noted for CWAIT and its counter falls (R168, R359, R361). -/
def State.endCopy (s : State) (n : Nat) (c : Copy) : State :=
  let num := ((s.groups.find c.gid).map (·.num)).getD 0
  let s := s.modTeam c.team fun t =>
    { t with dests := t.dests ++ c.dests.map fun (d : Nat × Nat) => (num, c.batch, d.1, d.2) }
  let s := match (s.groups.find c.gid).bind fun (g : Group) => g.ops.find? fun (o : Op) => o.act == .copy n with
    | some o => s.opDone c.gid o {}
    | none => s
  s.settle c.team

/-- COPY_COMPLETE: copy a, every byte of which has landed, ends (R359, R369). -/
def execCopyComplete (s : State) : Host.Outcome State Fault Refusal :=
  let n := s.arg.a
  match s.copies.find n with
  | none => .next s
  | some c =>
    if ! c.full || s.writesOut .copyWrite n then .next s
    else if c.prologue then .next ((s.dropCopy n).endPrologueCopy c)
    else .next ((s.dropCopy n).endCopy n c)

end Sys2Proof.Machine
end

