-- ==== Sys2Proof/Machine/Tiles.lean ====
section
/-! DEFINITION. Tile tasks (R376 to R391): TTQ, records, the sequencer, the kinds of tasks, and the RCU that drains pass
(R393 to R403, R412). -/

namespace Sys2Proof.Machine

open Sys2Proof

/-! ## Requests of the driver (R20) -/

/-- A service request: it is served in READY and refused with NOTREADY in BRINGUP and FAILED (R20). -/
def request (s : State) (f : State → State) : Host.Outcome State Fault Refusal :=
  .next (match s.dev.st with
    | .ready => f s
    | .off => s
    | _ => s.answer .notReady)

/-! ## Records (R380 to R382) -/

/-- The fields of a tile-task record (R380); `x20` to `x34` are the parts of OPS. -/
structure Rec where
  kind : Nat
  eng : Nat
  relb : Bool
  rela : Bool
  dbnd : Nat
  tag : Nat
  dtag0 : Nat
  dtag1 : Nat
  aid : Nat
  bid : Nat
  row0 : Nat
  nrows : Nat
  p0 : Nat
  dsig : Nat
  sig : Nat
  x20 : Nat
  x28 : Nat
  x30 : Nat
  x34 : Nat
  deriving DecidableEq, Repr

/-- Read a record (R380). -/
def recOf (l : List Byte) : Rec :=
  let c := field l 0 8
  { kind := bits c 3 0, eng := bits c 7 4, relb := bit c 8, rela := bit c 9, dbnd := bits c 15 10, tag := bits c 31 16
    dtag0 := bits c 47 32, dtag1 := bits c 63 48, aid := field l 8 1, bid := field l 9 1, row0 := field l 0xA 1
    nrows := field l 0xB 1 + 1, p0 := field l 0xC 4, dsig := field l 0x10 8, sig := field l 0x18 8, x20 := field l 0x20 8
    x28 := field l 0x28 8, x30 := field l 0x30 4, x34 := field l 0x34 4 }

/-- The kinds that require an accumulator id, and a B id (R382). -/
def Rec.needsA (r : Rec) : Bool := r.kind != 0 && r.kind != 2
def Rec.needsB (r : Rec) : Bool := r.kind == 2 || r.kind == 3 || r.kind == 4

/-- Fields of P0 (R381). -/
def Rec.emode (r : Rec) : Nat := bits r.p0 1 0
def Rec.m (r : Rec) : Nat := bits r.p0 7 4
def Rec.kb (r : Rec) : Nat := bits r.p0 10 8 + 1
def Rec.tensor (r : Rec) : Bool := bit r.p0 11
def Rec.pad (r : Rec) : Nat := bits r.p0 2 0
def Rec.ofmt (r : Rec) : Nat := bits r.p0 2 0
def Rec.global (r : Rec) : Bool := bit r.p0 3
def Rec.phase (r : Rec) : Nat := bits r.p0 12 8
def Rec.dcore (r : Rec) : Nat := bits r.p0 15 13
def Rec.low28 (r : Rec) : Nat := bits r.x28 31 0
def Rec.high28 (r : Rec) : Nat := bits r.x28 63 32

/-- The bits of P0 that each kind lists (R381). -/
def p0Mask (kind : Nat) : Nat := [0, 0xFFFF0003, 0xFF0, 0x7F7, 0x7F7, 0xFFFF, 0x3F, 0].getD kind 0

/-- The unit of PITCH (R387). -/
def Rec.unit (r : Rec) : Nat :=
  match r.ofmt with
  | 1 | 2 => 2
  | 3 => 4 * r.m
  | _ => 4

/-- Whether an id field breaks R380 or R382: `need` 0 must be 0xFF, 1 optional, 2 required. -/
def badId (id need : Nat) : Bool :=
  match need with
  | 0 => id != 255
  | 1 => id != 255 && decide (id > 127)
  | _ => decide (id > 127)

/-- How each kind uses its accumulator id and its B id (R382). -/
def needA (kind : Nat) : Nat := [0, 2, 1, 2, 2, 2, 2, 2].getD kind 0
def needB (kind : Nat) : Nat := [0, 1, 2, 2, 2, 0, 1, 0].getD kind 0

/-- Whether OPS holds something where its kind lists nothing (R381). -/
def Rec.badOps (r : Rec) : Bool :=
  r.x34 != 0 || (match r.kind with
    | 1 => (r.emode != 2 && r.x20 != 0) || r.x28 != 0 || r.x30 != 0
    | 2 => r.x30 != 0 || (r.tensor && (r.x28 != 0 || bits r.x20 63 48 != 0))
    | 3 => r.x30 != 0
    | 4 | 5 => false
    | 6 | 7 => r.x28 != 0 || r.x30 != 0
    | _ => r.x20 != 0 || r.x28 != 0 || r.x30 != 0)

/-- Whether a field breaks R380 to R382, or a DRAIN's PITCH its unit (R385, R387). -/
def Rec.bad (r : Rec) : Bool :=
  decide (r.kind > 7) || decide (8 ≤ r.eng ∧ r.eng ≤ 14) || decide (r.row0 + r.nrows > 256)
    || r.p0 &&& p0Mask r.kind != r.p0 || r.badOps || badId r.aid (needA r.kind) || badId r.bid (needB r.kind)
    || (match r.kind with
        | 1 => r.emode == 3
        | 2 | 3 | 4 => decide (r.m < 2 ∨ 8 < r.m)
        | 5 => decide (r.ofmt > 4) || (if r.ofmt = 3 then decide (r.m < 2 ∨ 8 < r.m) else r.m != 0)
                || r.high28 % max r.unit 1 != 0
        | 6 => decide (r.p0 = 0 ∨ 48 < r.p0)
        | _ => false)

/-- The units of an engine (R377): none, compute, LOADB, drain. -/
inductive TaskUnit where
  | none | compute | loadb | drain
  deriving DecidableEq, Repr

def Rec.unitOf (r : Rec) : TaskUnit :=
  match r.kind with
  | 0 => .none
  | 2 => .loadb
  | 5 | 7 => .drain
  | _ => .compute

/-! ## Queues and tasks (R378, R379) -/

/-- The record of a task. -/
def Task.fields (t : Task) : Rec := recOf t.record

/-- The task queue and task that a reference names. -/
def State.taskAt (s : State) (r : TaskRef) : Option (TaskQueue × Task) :=
  match (s.cluster r.cluster).queues.find r.queue with
  | some q => (q.tasks.find? fun t => t.n == r.n).map fun t => (q, t)
  | none => none

/-- Change a task queue. -/
def State.modTq (s : State) (cl q : Nat) (f : TaskQueue → TaskQueue) : State :=
  s.modCluster cl fun c => { c with queues := c.queues.modify q f }

/-- Change a task. -/
def State.modTask (s : State) (r : TaskRef) (f : Task → Task) : State :=
  s.modTq r.cluster r.queue fun q => { q with tasks := q.tasks.map fun t => if t.n = r.n then f t else t }

/-- HEAD: the first record that has not ended (R378). -/
def TaskQueue.headNow (q : TaskQueue) : Nat := (q.tasks.head?.map (·.n)).getD q.tail

/-- The END codes (R388). -/
def endOk : Nat := 1
def endRange : Nat := 2
def endBindx : Nat := 3
def endBad : Nat := 4
def endFault : Nat := 5
def endCancelled : Nat := 6

/-- A task has come to an end, which R388 is still to report. -/
def Task.endWith (code : Nat) (t : Task) : Task := { t with st := .ended, status := t.status ||| BitVec.ofNat 64 code }

/-- A task that did not start ends with a fault (R389). -/
def Task.fault (code sub : Nat) (t : Task) : Task := t.endWith (endFault + code * 2 ^ 16 + sub * 2 ^ 24)

/-- The queue of a context on a cluster (R378). -/
def State.queueFor (s : State) (cl ctx : Nat) : Option (Nat × TaskQueue) :=
  (s.cluster cl).queues.find? fun q => q.2.ctx == ctx

/-- Every task of a context's queues that is not RUNNING ends CANCELLED, and its arms are dropped (R378, R385, R412). -/
def State.cancelTasks (s : State) (ctx : Nat) : State :=
  { s with clusters := s.clusters.map fun (p : Nat × Cluster) =>
      (p.1, { p.2 with
        arm := if (p.2.arm.map (·.ctx)) == some ctx then none else p.2.arm
        queues := p.2.queues.map fun (q : Nat × TaskQueue) =>
          if q.2.ctx = ctx then
            (q.1, { q.2 with tasks := q.2.tasks.map fun t =>
              if t.st = .running ∨ t.st = .ended then t else t.endWith endCancelled })
          else q }) }

/-- A task queue is created (R378). A malformed request is refused: log entry 25. -/
def execTaskQueueCreate (s : State) : Host.Outcome State Fault Refusal :=
  request s fun s =>
    match s.arg.body with
    | .taskQueue r =>
      let c := s.cluster r.cluster
      if r.ctx ≥ 64 ∨ r.cluster ≥ 48 ∨ r.ring % 4096 ≠ 0 ∨ r.logsz < 6 ∨ 12 < r.logsz then s.answer .badReq
      else if (s.queueFor r.cluster r.ctx).isSome ∨ c.queues.length ≥ 8 then s.answer .tooMany
      else
        let q : TaskQueue := { ctx := r.ctx, ring := r.ring, logsz := r.logsz, head := 0, tail := 0, tasks := [], aids := []
                               bids := [], destroying := false }
        (s.setCluster r.cluster { c with queues := c.queues.put (c.queues.firstFree 8 0) q }).answer .ok
    | _ => s

/-- Free a slot (R384). -/
def Cluster.freeSlot (c : Cluster) (acc : Bool) (p : Nat × Nat) : Cluster :=
  { c with engines := c.engines.modify p.1 fun e => if acc then { e with acc := e.acc.del p.2 } else { e with b := e.b.del p.2 } }

/-- A queue with HEAD = TAIL whose destruction was asked for is gone; a request for it is answered (R378). -/
def State.reapQueue (s : State) (cl n : Nat) : State :=
  match (s.cluster cl).queues.find n with
  | some q =>
    if q.destroying && q.tasks.isEmpty then
      let c := q.aids.foldl (fun (c : Cluster) p => c.freeSlot true p.2) (s.cluster cl)
      let c := q.bids.foldl (fun (c : Cluster) p => c.freeSlot false p.2) c
      let s := s.setCluster cl { c with queues := c.queues.del n }
      if (s.ctx q.ctx).st = .destroyed then s else s.answer .ok
    else s
  | none => s

/-- A destroy request waits until HEAD = TAIL (R378). -/
def execTaskQueueDestroy (s : State) : Host.Outcome State Fault Refusal :=
  request s fun s =>
    if ((s.cluster s.arg.a).queues.find s.arg.b).isNone then s.answer .badReq
    else (s.modTq s.arg.a s.arg.b fun q => { q with destroying := true }).reapQueue s.arg.a s.arg.b

/-! ## TTQ (R391) -/

/-- The home of a place in a context's task ring; a page that is not present, or that the tables do not let the device
write, holds the access: log entry 27. -/
def State.ringPlace (s : State) (cl ctx va : Nat) : Option Nat × State :=
  match s.reach cl ctx true .engineWrite va 8 with
  | (.ok pa _, s) => (if spaceOf pa = .link then none else some pa, s)
  | (.absent pte l3 attr, s) => (none, s.reportFault ctx va 4 (8 * cl) pte l3 attr)
  | (_, s) => (none, s)

/-- The place of record `n` in its ring (R378). -/
def TaskQueue.slotVa (q : TaskQueue) (n : Nat) : Nat := q.ring + 64 * (n % 2 ^ q.logsz)

/-- Whether a group's earlier stores, atomics and copies have completed, so that TTQ may fence (R391). -/
def State.ttqReady (s : State) (gid : Nat) (earlier : List Op) : Bool :=
  s.fenceReady gid 4 earlier && ! earlier.any fun o => match o.act with
    | .copy _ => true
    | _ => false

/-- A new task. -/
def newTask (n team launch : Nat) (l : List Byte) : Task :=
  { n := n, record := l, team := team, launch := launch, st := .queued, order := 0, eng := 8, aslot := 4, bslot := 4
    worked := false, status := 0, hold := false, spoor := 0, failed := [] }

/-- Append a record; none while the ring has no room or cannot be reached (R391). -/
def State.appendTask (s : State) (cl ctx team launch : Nat) (l : List Byte) : Option State × State :=
  match s.queueFor cl ctx with
  | none => (some s, s)
  | some (k, q) =>
    if q.tail - q.headNow ≥ 2 ^ q.logsz then (none, s)
    else
      let l := l.take 56 ++ List.replicate 8 0
      match s.ringPlace cl ctx (q.slotVa q.tail) with
      | (none, s) => (none, s)
      | (some pa, s) =>
        let s := s.putHome pa l
        (some ((s.modTq cl k fun q => { q with tail := q.tail + 1, tasks := q.tasks ++ [newTask q.tail team launch l] }).notSafe team), s)

/-- TTQ once its record is known (R391). -/
def ttqRun (dc : Nat) (act : OpAct) (getRec : State → Option (List Byte) × State) (e : Env) (s : State) : Res :=
  if (s.queueFor (clusterOf e.gid) e.team.ctx).isNone then .trap (e.cause 0x11 3) s
  else if dc < 6 then (if e.g.manyWaits then .wait .other 0 0 s else .later {} act s)
  else if ! s.ttqReady e.gid e.g.ops then .wait .other 0 0 s
  else
    match getRec (s.fence (coreOf e.gid) e.team.ctx 4) with
    | (none, s) => .wait .other 0 0 s
    | (some l, s) =>
      match s.appendTask (clusterOf e.gid) e.team.ctx e.g.team e.team.launch l with
      | (some s, _) => .done {} s
      | (none, s) => .wait .other 0 0 s

/-- The record in a vector register: words 0 to 15 (R391). -/
def recordOf (g : Group) (v : Nat) : List Byte := (List.range 16).flatMap fun w => toBytes 4 (g.v32 v w).toNat

/-- TTQ (R391). -/
def execTtq (f : MX) (s : State) : Host.Outcome State Fault Refusal :=
  issue (.ttq f)
    { vr := [f.data.toNat], dc := f.dc.toNat, opc := 0x37, sz := f.sz.toNat, lanes := fun _ _ _ => 0xFFFF, out := .output }
    (fun e s =>
      let l := recordOf e.g f.data.toNat
      ttqRun f.dc.toNat (.ttq l) (fun s => (some l, s)) e s) s

/-- The 64 bytes of a record at home, read as LDG reads; none while they cannot be read. -/
def State.ttqRead (s : State) (core ctx launch va : Nat) (priv : Bool) : Option (List Byte) × State :=
  match s.check (clusterOfCore core) ctx priv .load va 64 with
  | (.ok pa t, s) => let (bs, s) := s.loadBytes core ctx launch va pa 64 t; (some bs, s)
  | (.absent pte l3 attr, s) => (none, s.reportFault ctx va 0 core pte l3 attr)
  | (_, s) => (none, s)

/-- TTQ.mem with its record behind a link aperture: once the group's earlier accesses and copies have completed, the record
is read as LDG reads, and the group is held until the response arrives (R391, R416). -/
def ttqPeer (dc : Nat) (ps : List Probe) (e : Env) (s : State) : Res :=
  if (s.queueFor (clusterOf e.gid) e.team.ctx).isNone then .trap (e.cause 0x11 3) s
  else if ! s.ttqReady e.gid e.g.ops then .wait .other 0 0 s
  else
    match (s.fence (coreOf e.gid) e.team.ctx 4).peerReads e 64 ps with
    | (none, id, s) => .wait (.peer id) 0 0 s
    | (some peer, _, s) =>
      let l := (peer.map (·.2)).headD []
      ttqRun dc (.ttq l) (fun s => (some l, s)) e s

/-- TTQ.mem (R391). -/
def execTtqMem (f : MX) (s : State) : Host.Outcome State Fault Refusal :=
  issue (.ttqMem f) { sr := [f.base.toNat], dc := f.dc.toNat, opc := 0x37, sz := f.sz.toNat, out := .output }
    (fun e s =>
      let va := (e.g.sreg f.base.toNat).toNat
      let (ps, s) := s.probe e .load (.load 64) false 64 (e.once va)
      match s.loadGate e 0 ps with
      | (.trap c, s) => .trap (e.wide c) s
      | (.wait k ph, s) => .wait k 0 ph s
      | (.open, s) =>
        if (linkLanes ps).isEmpty then
          ttqRun f.dc.toNat (.ttqMem va)
            (fun s => s.ttqRead (coreOf e.gid) e.team.ctx e.team.launch va (cfgPriv e.g.ctxcfg)) e s
        else ttqPeer f.dc.toNat ps e s) s

/-! ## QUEUED to READY (R383, R385) -/

/-- The check of a signal's address under R268 and R272, and its alignment: 0 well, 1 bad, 2 not present (R385). -/
def State.signalCheck (s : State) (cl ctx va : Nat) (k : AccKind) : Nat × State :=
  if va = 0 then (0, s)
  else
    match s.check cl ctx (cfgPriv (s.ctx ctx).ctxcfg) k va 8 with
    | (.ok _ _, s) => (0, s)
    | (.absent pte l3 attr, s) => (2, s.reportFault ctx va 4 (8 * cl) pte l3 attr)
    | (.held, s) => (2, s)
    | (.logged _, s) => (0, s)
    | (.trap code _, s) => (if code = 0x12 then 0 else 1, s)

/-- TASK_WINDOW_ENTRY: a QUEUED task enters the window of 64 records; a malformed one ends BADTASK (R379, R385). -/
def execTaskWindowEntry (s : State) : Host.Outcome State Fault Refusal :=
  match s.arg.body with
  | .task r =>
    match s.taskAt r with
    | some (q, t) =>
      if t.st ≠ .queued ∨ ! (q.tasks.take 64).contains t then .next s
      else if t.fields.bad then .next (s.modTask r (Task.endWith endBad))
      else
        let (a, s) := s.signalCheck r.cluster q.ctx t.fields.dsig .engineRead
        let (b, s) := s.signalCheck r.cluster q.ctx t.fields.sig .atomic
        if a = 1 ∨ b = 1 then .next (s.modTask r (Task.endWith endBad))
        else if a = 2 ∨ b = 2 then .next s
        else .next (s.modTask r fun t => { t with st := .waiting })
    | none => .next s
  | _ => .next s

/-- Whether a record orders a later one of its queue before it (R383). -/
def Rec.blocks (a b : Rec) : Bool :=
  let adds := fun (r : Rec) => r.kind == 3 || r.kind == 4
  (b.dtag0 != 0 && a.tag == b.dtag0) || (b.dtag1 != 0 && a.tag == b.dtag1)
    || (a.needsA && b.needsA && a.aid == b.aid && ! (adds a && adds b))
    || (a.bid == b.bid && ((b.kind == 2 && a.needsB) || (adds b && a.kind == 2)))

/-- The name by which a task's requests to peers are known. -/
def taskId (r : TaskRef) : Nat := (r.n * 8 + r.queue) * 48 + r.cluster

/-- A signal behind a link aperture is read by a request of 8 bytes; its answer is consumed, and a later look asks again
(R383, R416). -/
def State.peerSignal (s : State) (r : TaskRef) (ctx launch pa : Nat) : Bool × State :=
  match s.peers.find? fun (p : Nat × PeerReq) => p.2.kind == .taskRead && p.2.owner == taskId r && p.2.pa == pa && p.2.size == 8 with
  | none =>
    (false, if admits (s.window pa) (.load 8) then (s.sendPeer .taskRead .read (2 ^ 40) launch ctx pa 8 (taskId r)).2 else s)
  | some (id, q) =>
    if ! q.done then (false, s)
    else (q.cause == 0 && decide (signed 64 (ofBytes q.value) ≤ 0), { s with peers := s.peers.del id })

/-- Whether the signal that a task waits on is at most 0; not while it cannot be read (R383). -/
def State.dsigMet (s : State) (r : TaskRef) (ctx launch va : Nat) : Bool × State :=
  let cl := r.cluster
  if va = 0 then (true, s)
  else
    match s.reach cl ctx (cfgPriv (s.ctx ctx).ctxcfg) .engineRead va 8 with
    | (.ok pa _, s) =>
      if spaceOf pa = .link then s.peerSignal r ctx launch pa
      else let (m, s) := s.homeWord launch pa; (decide (signed 64 m ≤ 0), s)
    | (.absent pte l3 attr, s) => (false, s.reportFault ctx va 4 (8 * cl) pte l3 attr)
    | (_, s) => (false, s)

/-- TASK_READY: a WAITING task whose dependences all hold becomes READY (R383). -/
def execTaskReady (s : State) : Host.Outcome State Fault Refusal :=
  match s.arg.body with
  | .task r =>
    match s.taskAt r with
    | some (q, t) =>
      if t.st ≠ .waiting ∨ (q.tasks.any fun a => decide (a.n < t.n) && a.fields.blocks t.fields) then .next s
      else
        match s.dsigMet r q.ctx t.launch t.fields.dsig with
        | (false, s) => .next s
        | (true, s) =>
          let (k, s) := s.gensym
          .next (s.modTask r fun t => { t with st := .ready, order := k })
    | none => .next s
  | _ => .next s

/-! ## Starting (R377, R379, R384, R385, R389, R390) -/

/-- The profile as run of a cluster's context. -/
def State.taskRun (s : State) (cl ctx : Nat) : Run := s.ctxRun ctx (cl / 12)

/-- An engine of a cluster, and its slots. -/
def Cluster.eng (c : Cluster) (e : Nat) : Engine := c.engines.findD e freshEngine
def Cluster.aslot (c : Cluster) (e k : Nat) : ASlot := (c.eng e).acc.findD k freshA
def Cluster.bslot (c : Cluster) (e k : Nat) : BSlot := (c.eng e).b.findD k freshB
def Cluster.setA (c : Cluster) (e k : Nat) (x : ASlot) : Cluster :=
  { c with engines := c.engines.put e { c.eng e with acc := (c.eng e).acc.put k x } }
def Cluster.setB (c : Cluster) (e k : Nat) (x : BSlot) : Cluster :=
  { c with engines := c.engines.put e { c.eng e with b := (c.eng e).b.put k x } }

/-- The free slots of a kind on an engine, the lowest first (R384, R401). -/
def Engine.freeSlots (e : Engine) (acc : Bool) : List Nat :=
  (List.range 4).filter fun k => if acc then (e.acc.find k).isNone else (e.b.find k).isNone

/-- The bound required ids of a record, as (engine, slot) of its accumulator id and of its B id (R382). -/
def TaskQueue.boundA (q : TaskQueue) (r : Rec) : Option (Nat × Nat) := if r.needsA then q.aids.find r.aid else none
def TaskQueue.boundB (q : TaskQueue) (r : Rec) : Option (Nat × Nat) := if r.needsB then q.bids.find r.bid else none

/-- Whether a task ends BINDX (R384, R408, R437). -/
def Cluster.bindx (c : Cluster) (q : TaskQueue) (r : Rec) : Bool :=
  let a := q.boundA r
  let b := q.boundB r
  let adds := r.kind == 3 || r.kind == 4
  let engs := (a.toList ++ b.toList).map (·.1) ++ (if r.eng < 8 ∧ r.kind ≠ 0 then [r.eng] else [])
  ((adds || r.kind == 5 || r.kind == 7) && a.isNone) || (adds && b.isNone)
    || (engs.any fun e => e != engs.headD 0 || (c.eng e).fenced)
    || (adds && (match b with
        | some (e, k) => (c.bslot e k).lost
        | none => false))

/-- The engine of a task, and whether it must bind an accumulator slot or a B slot there (R384). Engine 8: none needed. -/
def Cluster.engineFor (c : Cluster) (q : TaskQueue) (r : Rec) : Nat × Option Bool :=
  if r.kind = 0 then (8, none)
  else
    let acc := r.kind != 2
    match (if acc then q.boundA r else q.boundB r) with
    | some (e, _) => (e, none)
    | none =>
      let other := if acc then (if r.bid ≤ 127 then q.bids.find r.bid else none)
                   else (if r.aid ≤ 127 then q.aids.find r.aid else none)
      if r.eng < 8 then (r.eng, some acc)
      else match other with
        | some (e, _) => (e, some acc)
        | none =>
          let live := (List.range 8).filter fun e => ! (c.eng e).fenced
          ((minBy (fun e => 4 - ((c.eng e).freeSlots acc).length) live).getD 8, some acc)

/-- The RUNNING tasks of a cluster. -/
def Cluster.running (c : Cluster) : List Task := c.queues.flatMap fun q => q.2.tasks.filter fun t => t.st == .running

/-- The accumulator slot and B slot that a task is to use on its engine; none while one is to be bound and none is free. -/
def Cluster.slotsFor (c : Cluster) (q : TaskQueue) (r : Rec) : Option (Nat × Nat × Nat) :=
  let (e, own) := c.engineFor q r
  let a := ((q.boundA r).map (·.2)).getD 4
  let b := ((q.boundB r).map (·.2)).getD 4
  match own with
  | none => some (e, a, b)
  | some acc => if e = 8 then none else ((c.eng e).freeSlots acc).head?.map fun k => if acc then (e, k, b) else (e, a, k)

/-- Whether a READY task can start, its pages and its turn apart: slots free, its unit of the engine free, its slots used by
no other task, and for a drain the RCU free (R377, R384). -/
def Cluster.canStart (c : Cluster) (q : TaskQueue) (t : Task) : Bool :=
  let r := t.fields
  t.st == .ready && ! t.hold && ! c.bindx q r && (match c.slotsFor q r with
    | none => false
    | some (e, a, b) =>
      c.running.all fun x =>
        (r.unitOf == .none || x.eng != e || (x.fields.unitOf != r.unitOf && (a == 4 || x.aslot != a) && (b == 4 || x.bslot != b)))
          && ! (r.unitOf == .drain && x.fields.unitOf == .drain))

/-- Whether it is a task's turn too: of the drains that can start, the first to have become ready (R377). -/
def Cluster.mayStart (c : Cluster) (q : TaskQueue) (t : Task) : Bool :=
  c.canStart q t && (t.fields.unitOf != .drain || c.queues.all fun p => p.2.tasks.all fun x =>
    ! (x.fields.unitOf == .drain && decide (x.order < t.order)) || ! c.canStart p.2 x)

/-- Whether a task is the next of its cluster to start: the oldest of its queue that can, its queue next in turn (R379). -/
def Cluster.isNext (c : Cluster) (k : Nat) (q : TaskQueue) (t : Task) : Bool :=
  let turn := fun (n : Nat) => (n + 7 - c.lastQ) % 8
  c.mayStart q t
    && (q.tasks.all fun x => ! decide (x.n < t.n) || ! c.mayStart q x)
    && (c.queues.all fun p => ! decide (turn p.1 < turn k) || ! p.2.tasks.any (c.mayStart p.2))

/-- Whether a tower's sequencers start no task: a die is in RETIRING or REBUILD (R390, R406). -/
def State.paused (s : State) (tower : Nat) : Bool :=
  (s.tower tower).dies.any fun d => d.2 == .retiring || d.2 == .rebuild

/-- The bytes of an output row (R387). -/
def Rec.rowBytes (r : Rec) : Nat :=
  match r.ofmt with
  | 1 | 2 => 512
  | 3 => 32 * r.m
  | _ => 1024

/-- The global operands and destinations of a record, with whether they are written (R387, R389). -/
def Rec.ranges (r : Rec) : List (Nat × Nat) × Bool :=
  match r.kind with
  | 1 => (if r.emode = 2 then [(r.x20, 512)] else [], false)
  | 2 => (if r.tensor then [] else [(r.x20, 1024 * r.kb * r.m), (r.x28, 256 * r.kb)], false)
  | 5 =>
    (if r.global then
      (List.range r.nrows).map (fun q => ((r.x20 + q * r.high28) % 2 ^ 64, r.rowBytes))
        ++ (if r.ofmt = 3 then [((r.x20 + r.x30) % 2 ^ 64, 8 * r.nrows)] else [])
     else [], true)
  | 6 => ([(r.x20, 2048 * r.nrows)], false)
  | 7 => ([(r.x20, 2048 * r.nrows)], true)
  | _ => ([], false)

/-- Whether the pages of a range are present and their homes free; faults of kind 4 are reported (R282, R385). -/
def State.pagesHere (s : State) (cl ctx : Nat) (priv : Bool) (k : AccKind) : Nat → Nat → Nat → Bool × State
  | 0, _, _ => (true, s)
  | fuel + 1, a, n =>
    if n = 0 then (true, s)
    else
      let m := min n (65536 - a % 65536)
      let a := a % 2 ^ 64
      let (ok, s) : Bool × State := match s.reach cl ctx priv k a m with
        | (.absent pte l3 attr, s) => (false, s.reportFault ctx a 4 (8 * cl) pte l3 attr)
        | (.held, s) => (false, s)
        | (_, s) => (true, s)
      let (r, s) := s.pagesHere cl ctx priv k fuel (a + m) (n - m)
      (ok && r, s)

/-- The same for several ranges. -/
def State.rangesHere (s : State) (cl ctx : Nat) (priv : Bool) (k : AccKind) : List (Nat × Nat) → Bool × State
  | [] => (true, s)
  | (a, n) :: t =>
    let (x, s) := s.pagesHere cl ctx priv k (n / 65536 + 2) a n
    let (y, s) := s.rangesHere cl ctx priv k t
    (x && y, s)

/-- The place in the tensor store of element `x` of row `y` of a tensor (R387). -/
def Tensor.at2 (t : Tensor) (x y : Nat) : Nat := t.start + t.offset [x, y, 0, 0, 0]

/-- The TSERR of a tensor operand: its SUB (R374, R389). A tensor without ESZ 4 and two dimensions is none that the handle
may name: log entry 28. -/
def State.tensorFault (s : State) (ctx : Nat) (r : Rec) : Option Nat :=
  if r.kind ≠ 2 ∨ ! r.tensor then none
  else
    let y := bits r.x20 47 32
    match (s.ctx ctx).tensorOf (bits r.x20 31 0) with
    | none => some 1
    | some t =>
      let n := 256 * r.kb * r.m
      if t.esz ≠ 4 ∨ t.ndim < 2 then some 1
      else if t.dim 0 < n ∨ t.dim 1 ≤ y + 1 then some 2
      else if (List.range n).any fun x => s.bankGone (tsBank t.tower (t.at2 x y)) then some 3
      else if (List.range (64 * r.kb)).any fun x => s.bankGone (tsBank t.tower (t.at2 x (y + 1))) then some 3
      else none

/-- A task starts on its slots, which are bound to its ids (R384, R385). -/
def State.startTask (s : State) (r : TaskRef) (q : TaskQueue) (t : Task) : State :=
  let c := s.cluster r.cluster
  let f := t.fields
  match c.slotsFor q f with
  | none => s
  | some (e, a, b) =>
    let newA := f.needsA && (q.boundA f).isNone
    let newB := f.needsB && (q.boundB f).isNone
    let c := if newA then c.setA e a { freshA with used := true, seed := s.tick } else c
    let c := if newB then c.setB e b { freshB with used := true } else c
    let s := s.setCluster r.cluster { c with lastQ := r.queue }
    let s := s.modTq r.cluster r.queue fun q =>
      { q with aids := if newA then q.aids.put f.aid (e, a) else q.aids
               bids := if newB then q.bids.put f.bid (e, b) else q.bids }
    s.modTask r fun t => { t with st := .running, eng := e, aslot := a, bslot := b }

/-- TASK_START: a READY task ends RANGE or BINDX, ends FAULT on its walks, stays READY for a page, or starts (R377, R379,
R384, R385, R389, R390). -/
def execTaskStart (s : State) : Host.Outcome State Fault Refusal :=
  match s.arg.body with
  | .task r =>
    match s.taskAt r with
    | some (q, t) =>
      let c := s.cluster r.cluster
      let f := t.fields
      let run := s.taskRun r.cluster q.ctx
      if t.st ≠ .ready ∨ s.paused (r.cluster / 12) then .next s
      else if f.dbnd ≠ 0 ∧ 2 ^ f.dbnd > run.top then .next (s.modTask r (Task.endWith endRange))
      else if c.bindx q f then .next (s.modTask r (Task.endWith endBindx))
      else if ! c.isNext r.queue q t then .next s
      else
        let (rs, w) := f.ranges
        let k := if w then AccKind.engineWrite else AccKind.engineRead
        let priv := cfgPriv (s.ctx q.ctx).ctxcfg
        match s.walkRanges r.cluster q.ctx priv k rs with
        | (l, s) =>
          match firstFault l, s.tensorFault q.ctx f with
          | some (code, sub), _ => .next (s.modTask r (Task.fault code sub))
          | none, some sub => .next (s.modTask r (Task.fault 0x17 sub))
          | none, none =>
            match s.rangesHere r.cluster q.ctx priv k rs with
            | (false, s) => .next (s.modTask r fun t => { t with hold := true })
            | (true, s) => .next (s.startTask r q t)
    | none => .next s
  | _ => .next s

/-! ## Reading operands (R387, R389) -/

/-- The bits of STATUS that work may set (R388). -/
def stInexact : DWord := 0x10
def stOver : DWord := 0x20
def stCorr : DWord := 0x40
def stUncorr : DWord := 0x80
def stPoison : DWord := 0x100
def stSpoor : DWord := 0x200

/-- A task notes bits of its STATUS. -/
def Task.note (m : DWord) (t : Task) : Task := { t with status := t.status ||| m }

/-- A task's first scratchpad range event (R230, R231). -/
def Task.noteOut (w : DWord) (t : Task) : Task :=
  { t with status := t.status ||| stSpoor, spoor := if t.spoor = 0 then w else t.spoor }

/-- The agent that reads for a task. -/
def TaskQueue.agent (q : TaskQueue) (r : TaskRef) (launch : Nat) : Agent :=
  { cl := r.cluster, ctx := q.ctx, launch := launch, who := .taskRead, owner := taskId r }

/-- Bytes of a scratchpad buffer as a task reads them: out of range zero, stale rows and poisoned sectors zero and marked;
and the first range event (R225, R230, R389). -/
def Core.taskBytes (k : Core) (now core team : Nat) (h : DWord) (o n : Nat) : List Marked × Option DWord :=
  let b := k.bufOf team h
  let cls := (List.range n).map fun i => (o + i, k.classify now b (o + i) 1 true)
  (cls.map fun p => match p.2 with
      | .out _ => (0, false)
      | .trap _ _ => (0, true)
      | .ok row col => (((k.row row).read col 1).headD 0, (k.row row).readsPoison col 1),
   cls.findSome? fun p => match p.2 with
      | .out kind => some (spoorWord p.1 (handleId h) kind false 0 core)
      | _ => none)

/-- An RE8 element from its channels. -/
def Run.packed (r : Run) (f : Nat → Nat → Nat) : DWord :=
  BitVec.ofNat 64 (sumBy (fun c => match r.mod c with
    | some m => f c m % m * 2 ^ (8 * c)
    | none => 0) (List.range 8))

/-- A row of an accumulator slot; one that nothing has set holds free values (R384: the contents were lost; entry 3). -/
def ASlot.row (a : ASlot) (r : Nat) : ARow :=
  match a.rows.find r with
  | some x => x
  | none =>
    let w := fun j => Config.freeWord a.seed (2 ^ 20 + 1024 * r + j)
    { res := (List.range 256).map fun j => w (2 * j) ++ w (2 * j + 1), eref := some (signed 16 (w 512).toNat)
      bnd := (w 513).toNat, ovr := Config.freeBit a.seed (2 ^ 20 + r) }

def ASlot.setRow (a : ASlot) (r : Nat) (x : ARow) : ASlot := { a with rows := a.rows.put r x }

/-- The buses of an engine of a cluster: two of the A plane and a drain bus (R428). -/
def engineBuses (cl eng : Nat) : List Nat :=
  let t := 1984 * (cl / 12)
  let c := cl % 12
  [t + 16 * c + 2 * eng, t + 16 * c + 2 * eng + 1, t + 192 + 8 * c + eng]

/-- Where a work event finds its task: RUNNING, of the event's kind, its work not done yet, the buses of its engine not
waiting (R435). -/
def State.workOf (s : State) (kind : Nat) : Option (TaskRef × TaskQueue × Task) :=
  match s.arg.body with
  | .task r =>
    match s.taskAt r with
    | some (q, t) => 
        if t.st = .running ∧ ! t.worked ∧ t.fields.kind = kind
            ∧ ! (decide (t.eng < 8) && (engineBuses r.cluster t.eng).any fun b => (s.bus b).waits false)
        then some (r, q, t) else none
    | none => none
  | _ => none

/-- The work of a task is complete (R385). -/
def State.workDone (s : State) (r : TaskRef) (f : Task → Task) : State :=
  s.modTask r fun t => { f t with worked := true, status := (f t).status ||| BitVec.ofNat 64 endOk }

/-- NOTE (R387). -/
def execNote (s : State) : Host.Outcome State Fault Refusal :=
  match s.workOf 0 with
  | some (r, _, _) => .next (s.workDone r id)
  | none => .next s

/-- ZERO (R386). -/
def execZero (s : State) : Host.Outcome State Fault Refusal :=
  match s.workOf 1 with
  | none => .next s
  | some (r, q, t) =>
    let f := t.fields
    match (if f.emode = 2 then s.engineBytes (q.agent r t.launch) 4 f.x20 512 else (some [], s)) with
    | (none, s) => .next s
    | (some ev, s) =>
      let c := s.cluster r.cluster
      let eref := fun (k : Nat) => if f.emode = 0 then (none : Option Int)
        else if f.emode = 1 then some (signed 16 (bits f.p0 31 16)) else some (signed 16 (field (plain ev) (2 * k) 2))
      let a := (List.range f.nrows).foldl (fun (a : ASlot) k =>
        a.setRow (f.row0 + k) { res := [], eref := eref (f.row0 + k), bnd := 0, ovr := false }) (c.aslot t.eng t.aslot)
      .next ((s.setCluster r.cluster (c.setA t.eng t.aslot a)).workDone r (if marked ev then Task.note stPoison else id))

/-- The images and exponents of LOADB's blocks, in block order (R387). -/
def State.loadbBytes (s : State) (r : TaskRef) (q : TaskQueue) (t : Task) : Option (List Marked × List Marked) × State :=
  let f := t.fields
  let n := 1024 * f.kb * f.m
  if f.tensor then
    match (s.ctx q.ctx).tensorOf (bits f.x20 31 0) with
    | some x =>
      let y := bits f.x20 47 32
      (some ((List.range n).map (fun i => s.tsByte x.tower (x.at2 (i / 4) y + i % 4)),
             (List.range (256 * f.kb)).map fun i => s.tsByte x.tower (x.at2 (i / 4) (y + 1) + i % 4)), s)
    | none => (some (List.replicate n (0, true), List.replicate (256 * f.kb) (0, true)), s)
  else
    match s.engineBytes (q.agent r t.launch) 4 f.x20 n with
    | (none, s) => (none, s)
    | (some img, s) =>
      match s.engineBytes (q.agent r t.launch) 4 f.x28 (256 * f.kb) with
      | (none, s) => (none, s)
      | (some ex, s) => (some (img, ex), s)

/-- The 32 mantissas of an image at an offset; those of an invalid block, and of one with E = 0, are zero (R39, R40). -/
def blockMants (m : Nat) (img : List Byte) (o e : Nat) : List Int :=
  if e = 0 ∨ e = 255 then List.replicate 32 0
  else
    let planes := (List.range m).map fun j => BitVec.ofNat 32 (field img (o + 4 * j) 4)
    (List.range 32).map fun i => mantOf m i planes

/-- The largest magnitude among mantissas (R386). -/
def maxMag (l : List Int) : Nat := l.foldl (fun n x => max n x.natAbs) 0

/-- The B slot that LOADB leaves: block (kb, j) is number j × KB + kb (R386, R387). -/
def loadedB (run : Run) (kb m : Nat) (img ex : List Byte) : BSlot :=
  let e := fun j k => (ex.getD (j * kb + k) 0).toNat
  let mants := fun j k => blockMants m img ((j * kb + k) * 4 * m) (e j k)
  let cols := List.range 256
  let blocks := cols.flatMap fun j => (List.range kb).map fun k => (j, k)
  { used := true, kb := kb, mb := m, lost := false
    eb := blocks.foldl (fun (t : Tbl Nat) p => t.put (256 * p.2 + p.1) (e p.1 p.2)) []
    bmax := blocks.foldl (fun (t : Tbl Nat) p => t.put (256 * p.2 + p.1) (maxMag (mants p.1 p.2))) []
    res := blocks.foldl (fun (t : Tbl DWord) p =>
      (List.range 32).foldl (fun (t : Tbl DWord) i =>
        t.put (256 * (32 * p.2 + i) + p.1) (run.re8 ((mants p.1 p.2).getD i 0))) t) [] }

/-- LOADB (R386, R387). An invalid block sets POISON: log entry 29. -/
def execLoadb (s : State) : Host.Outcome State Fault Refusal :=
  match s.workOf 2 with
  | none => .next s
  | some (r, q, t) =>
    match s.loadbBytes r q t with
    | (none, s) => .next s
    | (some (img, ex), s) =>
      let f := t.fields
      let c := s.cluster r.cluster
      let b := loadedB (s.taskRun r.cluster q.ctx) f.kb f.m (plain img) (plain ex)
      let bad := marked img || marked ex || (plain ex).any fun e => e == 0xFF
      .next ((s.setCluster r.cluster (c.setB t.eng t.bslot b)).workDone r (if bad then Task.note stPoison else id))

/-! ## MMA and ACCLD (R386) -/

/-- A row of A: exponents and mantissas by block. -/
structure ARowIn where
  exps : List Nat
  mants : List (List Int)
  deriving DecidableEq, Repr

/-- What an MMA did to a row. -/
structure RowOut where
  row : ARow
  inexact : Bool
  ovr : Bool
  poison : Bool
  deriving DecidableEq, Repr

/-- One row of an MMA (R386). -/
def mmaRow (run : Run) (b : BSlot) (kb ma : Nat) (a : ARowIn) (row : ARow) : RowOut :=
  let ks := List.range kb
  let js := List.range 256
  let eb := fun k j => b.eb.findD (256 * k + j) 0
  let bm := fun k j => b.bmax.findD (256 * k + j) 0
  let ea := fun k => a.exps.getD k 0
  let good := fun (e : Nat) => e != 0 && e != 255
  let live := fun k j => good (ea k) && good (eb k j)
  let scale := fun k j => ((ea k : Int) - (ma - 2)) + ((eb k j : Int) - ((b.mb : Int) - 2))
  let poison := ks.any fun k => ea k == 255 || js.any fun j => eb k j == 255
  let tops := ks.flatMap fun k => js.filterMap fun j => if live k j then some (scale k j) else none
  match tops with
  | [] =>
    let past := decide (row.bnd > run.top)
    { row := { row with ovr := row.ovr || past }, inexact := false, ovr := past, poison := poison }
  | x :: xs =>
    let er := row.eref.getD (xs.foldl max x - run.w)
    let sh := fun k j => scale k j - er
    let kept := fun k j => live k j && decide (0 ≤ sh k j)
    let inc := sumBy (fun k => 32 * maxMag (a.mants.getD k [])
      * js.foldl (fun n j => if kept k j then max n (bm k j * 2 ^ (sh k j).toNat) else n) 0) ks
    let inexact := tops.any fun t => decide (t - er < 0)
    if row.bnd + inc > run.top then
      { row := { row with eref := some er, ovr := true }, inexact := inexact, ovr := true, poison := poison }
    else
      let part := fun c m k j => wrapMod m (((List.range 32).foldl (fun (n : Int) i =>
        n + (a.mants.getD k []).getD i 0 * (re8Byte (b.res.findD (256 * (32 * k + i) + j) 0) c : Nat)) 0))
      let res := js.map fun j => run.packed fun c m =>
        re8Byte (row.res.getD j 0) c + sumBy (fun k => if kept k j then part c m k j * (2 ^ (sh k j).toNat % m) else 0) ks
      { row := { row with res := res, eref := some er, bnd := row.bnd + inc }, inexact := inexact, ovr := false
        poison := poison }
where
  /-- A number mod m. -/
  wrapMod (m : Nat) (v : Int) : Nat := (v % (m : Int)).toNat

/-- A task marks rows OVERRANGE (R388). -/
def Task.noteOver (n : Nat) (t : Task) : Task :=
  if n = 0 then t else { t with status := t.status ||| stOver ||| BitVec.ofNat 64 (n * 2 ^ 32) }

/-- The rows of an MMA or MMAG as (task row, row of A) pairs, with the marks and range event of the index list (R386). -/
def State.mmaRows (s : State) (core : Nat) (t : Task) : List (Nat × Nat) × Bool × Option DWord :=
  let f := t.fields
  if f.kind = 3 then ((List.range f.nrows).map fun q => (q, q), false, none)
  else
    let (l, ev) := (s.core core).taskBytes s.time core t.team (BitVec.ofNat 64 f.x20) f.x30 (2 * f.nrows)
    ((List.range f.nrows).filterMap fun q =>
      let a := field (plain l) (2 * q) 2
      if a = 0xFFFF then none else some (q, a), marked l, ev)

/-- One row of A: its blocks, marks and range event (R387). -/
def State.readA (s : State) (core : Nat) (t : Task) (a : Nat) : ARowIn × Bool × Option DWord :=
  let f := t.fields
  let h := BitVec.ofNat 64 f.x20
  let k := s.core core
  let (img, e1) := k.taskBytes s.time core t.team h (f.low28 + a * f.kb * 4 * f.m) (f.kb * 4 * f.m)
  let (ex, e2) := k.taskBytes s.time core t.team h (f.high28 + a * f.kb) f.kb
  let exps := (plain ex).map (·.toNat)
  ({ exps := exps, mants := (List.range f.kb).map fun n => blockMants f.m (plain img) (4 * f.m * n) (exps.getD n 0) },
   marked img || marked ex, e1.orElse fun _ => e2)

/-- Note a range event if there is one. -/
def Task.noteEv (e : Option DWord) (t : Task) : Task :=
  match e with
  | some w => t.noteOut w
  | none => t

/-- The work of MMA and MMAG, row by row: the slot after it, the task with its bits, and the rows marked (R386). -/
def State.mmaWork (s : State) (r : TaskRef) (q : TaskQueue) (t : Task) : ASlot × Task × Nat :=
  let c := s.cluster r.cluster
  let f := t.fields
  let core := 8 * r.cluster + f.pad
  let run := s.taskRun r.cluster q.ctx
  let b := c.bslot t.eng t.bslot
  let (rows, bad, ev) := s.mmaRows core t
  let t := (if bad then t.note stPoison else t).noteEv ev
  rows.foldl (fun (x : ASlot × Task × Nat) p =>
    let (a, bad, ev) := s.readA core t p.2
    let o := mmaRow run b f.kb f.m a (x.1.row (f.row0 + p.1))
    let u := (if bad || o.poison then x.2.1.note stPoison else x.2.1).noteEv ev
    (x.1.setRow (f.row0 + p.1) o.row, if o.inexact then u.note stInexact else u, x.2.2 + (if o.ovr then 1 else 0)))
    (c.aslot t.eng t.aslot, t, 0)

/-- A compute task ends its work with a new slot. -/
def State.mmaDone (s : State) (r : TaskRef) (x : ASlot × Task × Nat) : State :=
  let c := s.cluster r.cluster
  (s.setCluster r.cluster (c.setA x.2.1.eng x.2.1.aslot x.1)).workDone r fun _ => x.2.1.noteOver x.2.2

/-- MMA (R386). -/
def execMma (s : State) : Host.Outcome State Fault Refusal :=
  match s.workOf 3 with
  | some (r, q, t) => .next (s.mmaDone r (s.mmaWork r q t))
  | none => .next s

/-- MMAG (R386). -/
def execMmag (s : State) : Host.Outcome State Fault Refusal :=
  match s.workOf 4 with
  | some (r, q, t) => .next (s.mmaDone r (s.mmaWork r q t))
  | none => .next s

/-- One row of ACCLD (R47, R386): the row after it and whether it was marked. -/
def accldRow (run : Run) (lbnd n q : Nat) (tile : List Byte) (row : ARow) : ARow × Bool :=
  if row.bnd + 2 ^ lbnd > run.top then ({ row with ovr := true }, true)
  else
    ({ row with
        bnd := row.bnd + 2 ^ lbnd
        res := (List.range 256).map fun j => run.packed fun c _ =>
          re8Byte (row.res.getD j 0) c + (tile.getD ((c * n + q) * 256 + j) 0).toNat }, false)

/-- ACCLD (R386). -/
def execAccld (s : State) : Host.Outcome State Fault Refusal :=
  match s.workOf 6 with
  | none => .next s
  | some (r, q, t) =>
    let f := t.fields
    match s.engineBytes (q.agent r t.launch) 4 f.x20 (2048 * f.nrows) with
    | (none, s) => .next s
    | (some tile, s) =>
      let run := s.taskRun r.cluster q.ctx
      let a := (List.range f.nrows).foldl (fun (x : ASlot × Nat) k =>
        let (row, m) := accldRow run f.p0 f.nrows k (plain tile) (x.1.row (f.row0 + k))
        (x.1.setRow (f.row0 + k) row, x.2 + (if m then 1 else 0))) ((s.cluster r.cluster).aslot t.eng t.aslot, 0)
      .next (s.mmaDone r (a.1, if marked tile then t.note stPoison else t, a.2))

/-! ## Retirement of a channel die (R406, R407) -/

/-- Whether an HBM4 stack of the tower is being retired, which excludes every other action (R22). -/
def State.stackRetiring (s : State) (tower : Nat) : Bool :=
  s.dev.actions.any fun a => a.part.kind == .hbmStack && a.part.idx / 4 == tower && a.act == .retire

/-- The answer to a retire request for a die: another die of the tower on its way gives BUSY, no seven left FLOOR (R406;
log entry 26). -/
def State.retireAnswer (s : State) (die : Nat) : Status :=
  let t := die / 8
  let st := fun d => if s.dev.mapped.contains ⟨.channelDie, 8 * t + d⟩ then DieSt.retired else (s.tower t).dies.findD d .live
  let live := (List.range 8).filter fun d => st d == .live
  if die ≥ 32 then .badReq
  else if (List.range 8).any fun d => st d == .retiring || st d == .rebuild then .busy
  else if s.stackRetiring t then .busy
  else if st (die % 8) = .retired then .badState
  else if live.length < 8 then .floor
  else .ok

/-- Ask for the retirement of a die: it enters RETIRING, and the answer (R406). -/
def State.retireDie (s : State) (die : Nat) : Status × State :=
  match s.retireAnswer die with
  | .ok =>
    let s := s.modTower (die / 8) fun t => { t with dies := t.dies.put (die % 8) .retiring }
    (.ok, s.modDev fun d => { d with actions := d.actions ++ [⟨⟨.channelDie, die⟩, .retire⟩] })
  | x => (x, s)

/-- The service cores count a correction on a die and ask for its retirement at RETIRECNT within a second; a refused request
is repeated at every further correction (R407). -/
def State.countCorrection (s : State) (die : Nat) : State :=
  let d := die % 8
  let s := s.modTower (die / 8) fun t =>
    { t with corrected := (d, s.time) :: t.corrected.filter fun p => decide (s.time - p.2 < 1000000000) }
  let t := s.tower (die / 8)
  if t.retireCnt ≠ 0 ∧ (t.dieAsked.contains d ∨ (t.corrected.filter fun p => p.1 == d).length ≥ t.retireCnt) then
    let (st, s) := s.retireDie die
    s.modTower (die / 8) fun t => { t with dieAsked := t.dieAsked.filter (· != d) ++ (if st = .ok then [] else [d]) }
  else s

/-! ## The RCU (R394 to R403, R412) -/

/-- The kinds of CONTAIN (R402). -/
def containCorrected : Nat := 0
def containNocand : Nat := 1
def containMulti : Nat := 2
def containErased : Nat := 3

/-- The two words of CONTAIN for an event, its count zero (R402). -/
structure ContainEv where
  kind : Nat
  inj : Bool
  chan : Nat
  die : Nat
  observed : Nat
  corrected : Nat
  eng : Nat
  slot : Nat
  row : Nat
  col : Nat
  taskid : Nat
  queue : Nat
  ctx : Nat
  deriving DecidableEq, Repr

def ContainEv.word0 (e : ContainEv) : DWord :=
  BitVec.ofNat 64 (1 + e.kind * 2 + (if e.inj then 8 else 0) + e.chan * 2 ^ 4 + e.die * 2 ^ 8 + e.observed * 2 ^ 16
    + e.corrected * 2 ^ 24 + e.eng * 2 ^ 32 + e.slot * 2 ^ 36 + e.row * 2 ^ 40 + e.col * 2 ^ 48)

def ContainEv.word1 (e : ContainEv) : DWord := BitVec.ofNat 64 (e.taskid % 2 ^ 32 + e.queue * 2 ^ 32 + e.ctx * 2 ^ 36)

/-- Record an event in CONTAIN and in the service cores' log (R400, R403). -/
def State.contain (s : State) (cl : Nat) (e : ContainEv) : State :=
  let c := s.cluster cl
  let n := min 65535 (bits c.contain1.toNat 63 48 + 1)
  let fill := ! c.contain0.getLsbD 0 || (e.kind != containCorrected && bits c.contain0.toNat 2 1 == containCorrected)
  let w1 := if fill then e.word1 else BitVec.ofNat 64 (c.contain1.toNat % 2 ^ 48)
  let s := s.setCluster cl { c with contain0 := if fill then e.word0 else c.contain0, contain1 := w1 + BitVec.ofNat 64 (n * 2 ^ 48) }
  { s with svcLog := .contain cl e.word0 e.word1 :: s.svcLog }

/-- Where an element is read: cluster, queue, record, context, engine, slot, row and column. -/
structure ElemAt where
  cl : Nat
  queue : Nat
  n : Nat
  ctx : Nat
  eng : Nat
  slot : Nat
  row : Nat
  col : Nat
  deriving DecidableEq, Repr

/-- Whether an arm substitutes a residue of an element (R412). -/
def Arm.hits (a : Arm) (x : ElemAt) (r : Run) : Bool :=
  a.eng == x.eng && a.slot == x.slot && a.row == x.row && a.col == x.col && a.ctx == x.ctx && decide (a.chan < r.mods.length)

/-- What the RCU reads: the stored element, or with one residue substituted (R412). -/
def substituted (x : DWord) (chan : Nat) (v : Byte) : DWord :=
  BitVec.ofNat 64 (x.toNat - re8Byte x chan * 2 ^ (8 * chan) + v.toNat * 2 ^ (8 * chan))

/-- The RCU's pass over one element: its value if it has one, the element as it stands after, the STATUS bits, and the
state with the event recorded (R394 to R398, R400, R412). -/
def State.rcuElem (s : State) (run : Run) (p : ElemAt) (x : DWord) : Option Int × DWord × DWord × State :=
  let arm := (s.cluster p.cl).arm.filter fun a => a.hits p run
  let (y, s) := match arm with
    | some a => (substituted x a.chan a.value, s.modCluster p.cl fun c => { c with arm := none })
    | none => (x, s)
  let ev := fun kind chan => ({ kind := kind, inj := arm.isSome, chan := chan, die := run.dies.getD chan 0
                                observed := re8Byte y chan, corrected := 0, eng := p.eng, slot := p.slot, row := p.row
                                col := p.col, taskid := p.n, queue := p.queue, ctx := p.ctx } : ContainEv)
  match run.rcu y with
  | .clean v => (some v, x, 0, s)
  | .corrected v c =>
    let z := run.re8 v
    let s := s.contain p.cl { ev containCorrected c with corrected := re8Byte z c }
    (some v, z, stCorr, s.countCorrection (8 * (p.cl / 12) + run.dies.getD c 0))
  | .nocand c => (none, x, stUncorr, s.contain p.cl (ev containNocand c))
  | .multi c => (none, x, stUncorr, s.contain p.cl (ev containMulti c))

/-- The pass over a row: values, the row after it, STATUS bits and the state. -/
def State.rcuRow (s : State) (run : Run) (p : ElemAt) (row : ARow) : List (Option Int) × ARow × DWord × State :=
  let o := (List.range 256).foldl (fun (a : List (Option Int) × List DWord × DWord × State) j =>
    let (v, z, st, s) := a.2.2.2.rcuElem run { p with col := j } (row.res.getD j 0)
    (a.1 ++ [v], a.2.1 ++ [z], a.2.2.1 ||| st, s)) ([], [], 0, s)
  (o.1, { row with res := o.2.1 }, o.2.2.1, o.2.2.2)

/-- The value X × 2^(ERef − 254) with 254 for UNSET (R387). -/
def valueOf (eref : Option Int) (x : Int) : FVal := .fin (decide (x < 0)) x.natAbs (eref.getD 254 - 254)

/-- The bytes of an element in a plain format (R387). -/
def drainElem (ofmt phase j : Nat) (eref : Option Int) (ovr : Bool) (x : Option Int) : List Byte :=
  let v := if ovr then none else x
  match ofmt, v with
  | 0, some x => toBytes 4 (fp32.convert rne false (valueOf eref x)).1
  | 0, none => toBytes 4 fp32.nanBits
  | 1, some x => toBytes 2 (bf16.convert rne false (valueOf eref x)).1
  | 2, some x => toBytes 2 (bf16.convert ⟨4, dither (j % 32) phase⟩ false (valueOf eref x)).1
  | 1, none => toBytes 2 bf16.nanBits
  | 2, none => toBytes 2 bf16.nanBits
  | _, some x => toBytes 4 (wrapInt 32 (toIntClamped rne (-2147483648) 2147483647 (valueOf eref x)).1)
  | _, none => toBytes 4 0x80000000

/-- A block of a row under XBm: its image and exponent (R387). -/
def drainBlock (m phase b : Nat) (eref : Option Int) (ovr : Bool) (xs : List (Option Int)) : List Byte × Byte :=
  let l := (List.range 32).map fun i => xs.getD (32 * b + i) none
  if ovr || l.any (·.isNone) then (List.replicate (4 * m) 0, 0xFF)
  else
    let (ms, e) := blockOf m phase (l.map fun x => valueOf eref (x.getD 0))
    ((List.range m).flatMap fun j => toBytes 4 (planeWord m j ms).toNat, BitVec.ofNat 8 e)

/-- The output of row `q` as runs of bytes at offsets from the destination's start (R387). -/
def drainRow (f : Rec) (q : Nat) (eref : Option Int) (ovr : Bool) (xs : List (Option Int)) : List (Nat × List Byte) :=
  let ph := (f.phase + q / 32) % 32
  if f.ofmt = 3 then
    let bs := (List.range 8).map fun b => drainBlock f.m ph b eref ovr xs
    [(q * f.high28, bs.flatMap (·.1)), (f.x30 + 8 * q, bs.map (·.2))]
  else [(q * f.high28, (List.range 256).flatMap fun j => drainElem f.ofmt ph j eref ovr (xs.getD j none))]

/-- The pass of a drain task over its rows: for each row its values, the slot after corrections, the task and the state. -/
def State.drainPass (s : State) (r : TaskRef) (q : TaskQueue) (t : Task) :
    List (Nat × ARow × List (Option Int)) × Task × State :=
  let f := t.fields
  let run := s.taskRun r.cluster q.ctx
  (List.range f.nrows).foldl (fun (a : List (Nat × ARow × List (Option Int)) × Task × State) k =>
    let s := a.2.2
    let row := ((s.cluster r.cluster).aslot t.eng t.aslot).row (f.row0 + k)
    let p : ElemAt := { cl := r.cluster, queue := r.queue, n := t.n, ctx := q.ctx, eng := t.eng, slot := t.aslot
                        row := f.row0 + k, col := 0 }
    let (xs, row, st, s) := s.rcuRow run p row
    let c := s.cluster r.cluster
    let s := s.setCluster r.cluster (c.setA t.eng t.aslot ((c.aslot t.eng t.aslot).setRow (f.row0 + k) row))
    (a.1 ++ [(k, row, xs)], a.2.1.note (st ||| (if row.ovr then stOver else 0)), s)) ([], t, s)

/-- The stand-in for a copy by which a task writes: it writes to global memory from an address on (R387). -/
def taskCopy (r : TaskRef) (q : TaskQueue) (t : Task) (va : Nat) : Copy :=
  newCopy (2 ^ 40) t.team t.launch q.ctx (8 * r.cluster) 0x2F 1 [0, BitVec.ofNat 64 va] [] 0 0 0

/-- Bytes at positions. -/
def spread (l : List (Nat × List Byte)) : List (Nat × Marked) :=
  l.flatMap fun p => p.2.zipIdx.map fun b => (p.1 + b.2, (b.1, false))

/-- Of bytes written to one place, one stays: which row's is open (R387; log entry 15). -/
def lastOf (tick : Nat) (l : List (Nat × List Byte)) : List (Nat × Marked) :=
  spread (if Config.freeBit tick (2 ^ 21) then l else l.reverse)

/-- Write a task's output to global memory; none if it cannot land yet. -/
def State.taskPut (s : State) (r : TaskRef) (q : TaskQueue) (t : Task) (va : Nat) (l : List (Nat × Marked)) : Option State × State :=
  s.putPiece .taskWrite (taskId r) 4 (taskCopy r q t va) l

/-- Write a task's output to a scratchpad buffer: bytes beyond it are dropped with a range event (R230, R387). -/
def State.taskPad (s : State) (r : TaskRef) (q : TaskQueue) (t : Task) (l : List (Nat × Marked)) : Task × State :=
  let f := t.fields
  let core := 8 * r.cluster + f.dcore
  let h := BitVec.ofNat 64 f.x20
  let x := s.endOf core t.team h f.low28
  match s.bufAt x with
  | none => (t.noteOut (spoorWord f.low28 x.buf 1 true 0 core), s)
  | some b =>
    let at_ := l.map fun p => (f.low28 + p.1, p.2)
    let inside := at_.filter fun p => decide (p.1 < 1024 * b.rows)
    let t := match at_.find? fun p => decide (1024 * b.rows ≤ p.1) with
      | some p => t.noteOut (spoorWord p.1 x.buf 0 true 0 core)
      | none => t
    (t, (runsOf inside).foldl (fun (s : State) p => s.padWrite (taskCopy r q t 0) x p.1 p.2) s)

/-- DRAIN (R387): every row passes the RCU, is formatted and written. -/
def execDrain (s : State) : Host.Outcome State Fault Refusal :=
  match s.workOf 5 with
  | none => .next s
  | some (r, q, t) =>
    let f := t.fields
    let (rows, u, s') := s.drainPass r q t
    let out := lastOf s.tick (rows.flatMap fun p => drainRow f p.1 p.2.1.eref p.2.1.ovr p.2.2)
    if f.global then
      match s.taskPut r q t f.x20 out with
      | (none, s) => .next s
      | (some _, _) =>
        match s'.taskPut r q u f.x20 out with
        | (some s, _) => .next (s.workDone r fun _ => u)
        | (none, s) => .next s
    else
      let (u, s) := s'.taskPad r q u out
      .next (s.workDone r fun _ => u)

/-- The tile that ACCST stores (R46, R387). -/
def accstTile (run : Run) (n : Nat) (rows : List (Nat × ARow × List (Option Int))) : List (Nat × List Byte) :=
  (List.range 8).flatMap fun c => rows.map fun p =>
    ((c * n + p.1) * 256, (List.range 256).map fun j =>
      if c < run.mods.length then BitVec.ofNat 8 (re8Byte (p.2.1.res.getD j 0) c) else 0)

/-- ACCST (R387). -/
def execAccst (s : State) : Host.Outcome State Fault Refusal :=
  match s.workOf 7 with
  | none => .next s
  | some (r, q, t) =>
    let f := t.fields
    let (rows, u, s') := s.drainPass r q t
    let out := spread (accstTile (s.taskRun r.cluster q.ctx) f.nrows rows)
    match s.taskPut r q t f.x20 out with
    | (none, s) => .next s
    | (some _, _) =>
      match s'.taskPut r q u f.x20 out with
      | (some s, _) => .next (s.workDone r fun _ => u)
      | (none, s) => .next s

/-! ## The end of a task (R388) -/

/-- CHKIV bits of STATUS (R388, R400). -/
def chkOfStatus (w : DWord) : BitVec 8 :=
  (if w &&& (stPoison ||| stUncorr) = 0 then 0 else chkPoison) ||| (if w &&& stInexact = 0 then 0 else chkInexact)
    ||| (if w &&& stOver = 0 then 0 else chkOverrange) ||| (if w &&& stCorr = 0 then 0 else chkChanCorr)

/-- Free every slot that no id names and no RUNNING task uses: its contents are lost (R384; log entry 85). -/
def Cluster.sweep (c : Cluster) : Cluster :=
  let run := c.running
  let named := fun (acc : Bool) (p : Nat × Nat) =>
    c.queues.any fun q => (if acc then q.2.aids else q.2.bids).any fun (x : Nat × Nat × Nat) => x.2 == p
  let used := fun (acc : Bool) (p : Nat × Nat) => run.any fun t => t.eng == p.1 && (if acc then t.aslot else t.bslot) == p.2
  { c with engines := c.engines.map fun (e : Nat × Engine) =>
      (e.1, { e.2 with acc := e.2.acc.filter fun x => named true (e.1, x.1) || used true (e.1, x.1)
                       b := e.2.b.filter fun x => named false (e.1, x.1) || used false (e.1, x.1) }) }

/-- The ids that a record releases become unbound (R384). -/
def TaskQueue.release (q : TaskQueue) (f : Rec) : TaskQueue :=
  { q with aids := if f.rela ∧ f.aid ≤ 127 then q.aids.del f.aid else q.aids
           bids := if f.relb ∧ f.bid ≤ 127 then q.bids.del f.bid else q.bids }

/-- A task is reported: it leaves its queue with its ids released and its requests dropped, and HEAD advances (R378, R384,
R388). -/
def State.leaveQueue (s : State) (r : TaskRef) (f : Rec) : State :=
  let s := s.modTq r.cluster r.queue fun q =>
    let q := q.release f
    let ts := q.tasks.filter fun x => x.n != r.n
    { q with tasks := ts, head := (ts.head?.map (·.n)).getD q.tail }
  let s : State := { s with peers := s.peers.filter fun (p : Nat × PeerReq) => ! (p.2.kind == .taskRead && p.2.owner == taskId r) }
  s.modCluster r.cluster Cluster.sweep

/-- The completion signal's target: none while its page is not present; an address that the tables refuse gets nothing. -/
def State.sigPlace (s : State) (cl ctx va : Nat) : Option (Option Nat) × State :=
  if va = 0 ∨ va % 8 ≠ 0 ∨ 2 ^ 52 ≤ va then (some none, s)
  else
    match s.reach cl ctx (cfgPriv (s.ctx ctx).ctxcfg) .atomic va 8 with
    | (.ok pa _, s) => (some (some pa), s)
    | (.absent pte l3 attr, s) => (none, s.reportFault ctx va 4 (8 * cl) pte l3 attr)
    | (.held, s) => (none, s)
    | (_, s) => (some none, s)

/-- The slot of a record that its STATUS is written to: no place if RESOLVE failed its page (R388, R389). -/
def State.statusPlace (s : State) (cl : Nat) (q : TaskQueue) (t : Task) : Option (Option Nat) × State :=
  let va := q.slotVa t.n + 0x38
  if t.failed.contains (va / 65536) then (some none, s)
  else
    match s.ringPlace cl q.ctx va with
    | (some pa, s) => (some (some pa), s)
    | (none, s) => (none, s)

/-- TASK_END: once a task's writes have been accepted, STATUS, CHKIV, the signal and the releases, in this order (R388);
HEAD advances (R378). -/
def execTaskEnd (s : State) : Host.Outcome State Fault Refusal :=
  match s.arg.body with
  | .task r =>
    match s.taskAt r with
    | some (q, t) =>
      if ! (t.st = .ended ∨ (t.st = .running ∧ t.worked)) ∨ s.writesOut .taskWrite (taskId r) then .next s
      else
        let f := t.fields
        match s.statusPlace r.cluster q t with
        | (none, s) => .next s
        | (some pa, s) =>
          match s.sigPlace r.cluster q.ctx (if t.failed.contains (f.sig / 65536) then 0 else f.sig) with
          | (none, s) => .next s
          | (some sg, s) =>
            let s := match pa with
              | some pa => s.putHome pa (toBytes 8 t.status.toNat)
              | none => s
            let s := s.setChk t.launch (chkOfStatus t.status)
            let s := if t.spoor = 0 then s else s.setSpoor t.launch t.spoor
            let s := match sg with
              | some a => s.signalAdd (2 ^ 40) (8 * r.cluster) q.ctx t.launch a (-1)
              | none => s
            .next ((s.leaveQueue r f).reapQueue r.cluster r.queue)
    | none => .next s
  | _ => .next s

end Sys2Proof.Machine
end

