-- ==== Sys2Proof/Machine/Channel.lean ====
section
/-! DEFINITION. CONTAIN and the fault injection of the RCU (R402, R410 to R412), and the retirement of a channel die (R404
to R409). -/

namespace Sys2Proof.Machine

open Sys2Proof

/-! ## Instructions (R410, R411) -/

/-- RDCONT (R410). -/
def execRdcont (f : CXR) (s : State) : Host.Outcome State Fault Refusal :=
  let d := f.p.toNat - 64
  issue (.rdcont f) { sw := span d 2, out := .input } (fun e s =>
    let c := s.cluster (clusterOf e.gid)
    let s := if f.imm.getLsbD 0 then s.setCluster (clusterOf e.gid) { c with contain0 := 0, contain1 := 0 } else s
    .done { sw := [(d, c.contain0), (d + 1, c.contain1)] } s) s

/-- FLTINJ (R411). -/
def execFltinj (f : CXR) (s : State) : Host.Outcome State Fault Refusal :=
  let p := f.p.toNat - 64
  issue (.fltinj f) { sr := [p], out := .output } (fun e s =>
    let v := (e.g.sreg p).toNat
    let cl := clusterOf e.gid
    let arm (a : Option Arm) : State := s.modCluster cl fun c => { c with arm := a }
    if bits v 3 3 ≠ 0 ∨ bits v 7 6 ≠ 0 ∨ bits v 31 27 ≠ 0 ∨ bits v 62 40 ≠ 0 then .trap (e.cause 0x11 2) s
    else if ! bit v 63 then .done {} (arm none)
    else if bits v 26 24 ≥ (s.taskRun cl e.team.ctx).mods.length then .trap (e.cause 0x11 4) s
    else
      .done {} (arm (some { eng := bits v 2 0, slot := bits v 5 4, row := bits v 15 8, col := bits v 23 16
                            chan := bits v 26 24, value := BitVec.ofNat 8 (bits v 39 32), ctx := e.team.ctx }))) s

/-! ## The device's fields that parts change (R16, R17, R22) -/

/-- The channel dies of a tower that are live (R16). -/
def State.liveDies (s : State) (t : Nat) : Nat :=
  ((List.range 8).filter fun d =>
    ! s.dev.mapped.contains ⟨.channelDie, 8 * t + d⟩ && (s.tower t).dies.findD d .live != .retired).length

/-- CHLIVE: the smallest number of live channel dies of a tower (R16). -/
def State.chLiveNow (s : State) : Nat := ((List.range 4).map s.liveDies).foldl min 8

/-- DEGRADED: a part is retired, mapped out, fenced or lost (R16, R437); a lane that a spare has replaced is mapped out (R19;
DEDUCED: log entry 63). -/
def State.degradedNow (s : State) : Bool :=
  ! s.dev.mapped.isEmpty || ! s.dev.fenced.isEmpty
    || (s.towers.any fun t => t.2.buses.any fun b => b.2.st == .lost || ! b.2.swapped.isEmpty)
    || (s.clusters.any fun c => c.2.engines.any fun e => e.2.fenced)

/-- Parts changed: in READY, EPOCH advances once for each, DEGRADED and CHLIVE are recomputed; a FAILED device keeps them
(R16, R17). -/
def State.partsChanged (s : State) (n : Nat) : State :=
  let live := s.chLiveNow
  let deg := s.degradedNow
  match s.dev.st with
  | .ready => s.modDev fun d => { d with epoch := d.epoch + n, degraded := deg, chLive := live }
  | _ => s

/-- One part changed. -/
def State.partChanged (s : State) : State := s.partsChanged 1

/-- A service action completes (R22). -/
def State.actionDone (s : State) (part : PartRef) (act : Action) : State :=
  (s.modDev fun d => { d with actions := d.actions.erase ⟨part, act⟩ }).partChanged

/-- A part is retired or mapped out (R25). -/
def State.mapOut (s : State) (p : PartRef) : State :=
  s.modDev fun d => { d with mapped := if d.mapped.contains p then d.mapped else p :: d.mapped
                             fenced := d.fenced.filter (· != p) }

/-- The retirement fuse of a part is written (R23). -/
def State.fuse (s : State) (p : PartRef) : State :=
  s.modDev fun d => { d with fuses := if d.fuses.contains p then d.fuses else p :: d.fuses }

/-! ## Losing a die (R404 to R408) -/

/-- CHANNEL_DIE_RETIRE: a driver's request for die a (R406, R407). -/
def execChannelDieRetire (s : State) : Host.Outcome State Fault Refusal :=
  request s fun s => let (st, s) := s.retireDie s.arg.a; s.answer st

/-- RETIRECNT_SET: RETIRECNT of tower a becomes b (R407). -/
def execRetirecntSet (s : State) : Host.Outcome State Fault Refusal :=
  request s fun s =>
    if s.arg.a ≥ 4 ∨ s.arg.b > 65535 then s.answer .badReq
    else (s.modTower s.arg.a fun t => { t with retireCnt := s.arg.b }).answer .ok

/-- An accumulator element after the loss of channel `c` of the old profile: none if the verification fails (R408). -/
def rebuiltElem (old new : Run) (c : Nat) (x : DWord) : Option DWord :=
  let live := (List.range old.mods.length).filter (· != c)
  let form := live.take old.ninfo
  let check := live.drop old.ninfo
  let (y, p) := crt (form.map fun k => (re8Byte x k, old.mods.getD k 1))
  let v : Int := if y > (p - 1) / 2 then (y : Int) - p else y
  if check.all fun k => (v % (old.mods.getD k 1 : Int)).toNat == re8Byte x k then some (new.re8 v) else none

/-- The rebuild of a row: an element that cannot be verified is lost, with an event ERASED whose CHANNEL the manual does not
give, and its row is marked; so is a row whose bound the new range does not admit (R402, R408). -/
def State.rebuildRow (s : State) (old new : Run) (c : Nat) (p : ElemAt) (row : ARow) : ARow × State :=
  let o := (List.range 256).foldl (fun (a : List DWord × Bool × State) j =>
    let x := row.res.getD j 0
    match rebuiltElem old new c x with
    | some z => (a.1 ++ [z], a.2.1, a.2.2)
    | none =>
      let s := a.2.2
      let chan := (Config.freeWord s.tick (2 ^ 22 + 256 * p.row + j)).toNat % old.mods.length
      let ev : ContainEv := { kind := containErased, inj := false, chan := chan, die := old.dies.getD chan 0
                              observed := re8Byte x chan, corrected := 0, eng := p.eng, slot := p.slot, row := p.row, col := j
                              taskid := 0xFFFFFFFF, queue := p.queue, ctx := p.ctx }
      let lost := Config.freeWord s.tick (2 ^ 23 + 512 * p.row + 2 * j) ++ Config.freeWord s.tick (2 ^ 23 + 512 * p.row + 2 * j + 1)
      (a.1 ++ [lost], true, s.contain p.cl ev)) ([], false, s)
  ({ row with res := o.1, ovr := row.ovr || o.2.1 || decide (row.bnd > new.top) }, o.2.2)

/-- The rebuild of a bound accumulator slot (R408). -/
def State.rebuildA (s : State) (old new : Run) (c : Nat) (p : ElemAt) : State :=
  (List.range 256).foldl (fun (s : State) r =>
    let a := (s.cluster p.cl).aslot p.eng p.slot
    let (row, s) := s.rebuildRow old new c { p with row := r } (a.row r)
    s.modCluster p.cl fun k => k.setA p.eng p.slot ((k.aslot p.eng p.slot).setRow r row)) s

/-- The mantissa of a B element over the surviving channels, of least magnitude (R408). -/
def rebuiltB (old new : Run) (c : Nat) (x : DWord) : DWord :=
  let live := (List.range old.mods.length).filter (· != c)
  let (y, p) := crt (live.map fun k => (re8Byte x k, old.mods.getD k 1))
  new.re8 (if 2 * y > p then (y : Int) - p else y)

/-- The rebuild of a bound B slot: lost when the surviving product is below 256 (R408). -/
def BSlot.rebuilt (old new : Run) (c : Nat) (b : BSlot) : BSlot :=
  let live := (List.range old.mods.length).filter (· != c)
  if live.foldl (fun n k => n * old.mods.getD k 1) 1 < 256 then { b with lost := true }
  else { b with res := b.res.map fun (p : Nat × DWord) => (p.1, rebuiltB old new c p.2) }

/-- The rebuild of the slots that a queue's ids name, every one of them; of a profile that does not name the die every channel
survives (R408; log entry 31). -/
def State.rebuildQueue (s : State) (cl k : Nat) (q : TaskQueue) (old new : Run) (die : Nat) : State :=
  let c := (old.dies.findIdx? (· == die)).getD old.mods.length
  let s := (sortBy (fun (p : Nat × Nat × Nat) => 4 * p.2.1 + p.2.2) q.aids).foldl (fun (s : State) p =>
    s.rebuildA old new c { cl := cl, queue := k, n := 0, ctx := q.ctx, eng := p.2.1, slot := p.2.2, row := 0, col := 0 }) s
  q.bids.foldl (fun (s : State) p =>
    s.modCluster cl fun x => x.setB p.2.1 p.2.2 ((x.bslot p.2.1 p.2.2).rebuilt old new c)) s

/-- Whether a RUNNING task is left on a tower. -/
def State.tasksRun (s : State) (t : Nat) : Bool :=
  s.clusters.any fun p => p.1 / 12 == t && ! p.2.running.isEmpty

/-- DIE_REBUILD: the retiring die of tower a leaves RETIRING once no task runs on the tower; arms are dropped, the profiles
as run change, and every bound slot is rebuilt (R406, R408). -/
def execDieRebuild (s : State) : Host.Outcome State Fault Refusal :=
  let t := s.arg.a
  match (s.tower t).dies.find? fun d => d.2 == .retiring with
  | none => .next s
  | some (d, _) =>
    if s.tasksRun t ∨ s.dev.st ≠ .ready then .next s
    else
      let before := s
      let s := s.modTower t fun w => { w with dies := w.dies.put d .rebuild }
      .next ((List.range 12).foldl (fun (s : State) k =>
        let cl := 12 * t + k
        if (before.clusters.find cl).isNone then s
        else
          let s := s.modCluster cl fun c => { c with arm := none }
          (s.cluster cl).queues.foldl (fun (s : State) q =>
            s.rebuildQueue cl q.1 q.2 (before.ctxRun q.2.ctx t) (s.ctxRun q.2.ctx t) d) s) s)

/-- DIE_RETIRED: the die of tower a in REBUILD is gated off and its fuse written; EPOCH and CHLIVE follow (R406, R23). -/
def execDieRetired (s : State) : Host.Outcome State Fault Refusal :=
  let t := s.arg.a
  match (s.tower t).dies.find? fun d => d.2 == .rebuild with
  | none => .next s
  | some (d, _) =>
    let p : PartRef := ⟨.channelDie, 8 * t + d⟩
    if s.dev.st ≠ .ready then .next s else
    let s := s.modTower t fun w => { w with dies := w.dies.put d .retired }
    .next (((s.mapOut p).fuse p).actionDone p .retire)

end Sys2Proof.Machine
end

