-- ==== Sys2Proof/Machine/Save.lean ====
section
/-! DEFINITION. What stops a team and what it leaves: halts and single steps (R94 to R99), the save area and its records
(R106 to R111, R344, R459), and snapshots (R122 to R126, R443, R444). -/

namespace Sys2Proof.Machine

open Sys2Proof

/-! ## The arrival of a halt, and single steps (R94, R95, R98, R99) -/

/-- Where a halt stops a group, as the word at which it resumes (0: a header); none while it finishes its clause, or is held
by a copy that has issued and is not abandoned, or by a SIGADD whose request has left (R94, R95, R125; log entry 20). -/
def Group.haltPoint (abandon : Bool) (g : Group) : Option Nat :=
  match g.st with
  | .stopped | .retiring => none
  | .waitAlloc => some (match g.clause with
      | some c => if c.begun then c.pos + 1 else 0
      | none => g.hword)
  | .waiting =>
    if (g.heldCopy.isSome && ! abandon) || g.postedAdd.isSome then none
    else some (match g.clause with
      | some c => if c.begun then c.pos + 1 else 0
      | none => g.hword)
  | .ready =>
    if g.stepDue then none
    else match g.clause with
    | some c => if c.begun then none else some 0
    | none => some g.hword

/-- The active set of a group that stops at a word. TMASK of a group that a halt stops at a header names a clause that did
not trap, for which the manual gives no set: the model records no lane (R91; log entry 82). -/
def Group.haltSet (g : Group) (tword : Nat) : Word :=
  if tword = 0 then 0
  else match g.clause with
    | some c => c.active
    | none => g.active

/-- The address of the clause at which a group stops. -/
def Group.haltAddr (g : Group) : Word :=
  match g.clause with
  | some c => c.addr
  | none => minPc g.pcv

/-- A group stops for a halt: in handler mode under a halt without a cause its frame stays and its position is kept apart
(R98); otherwise it records its position, with SKIDH for a halt of a trap (R91, R94). -/
def Group.stopFor (cause : Bool) (tword : Nat) (g : Group) : Group :=
  let alloc := decide (g.st = .waitAlloc)
  let g := { g with heldOp := none, matched := g.shadow && g.matched }
  if ! cause && g.hmode then
    { g with st := .stopped, hword := tword, clause := none, wait := none, granted := false, halt := none, skid := 0
             allocStop := alloc }
  else
    { Group.record (if cause then skidhCause else 0) (g.haltSet tword) g.haltAddr tword g.skid g with allocStop := alloc }

/-- HALT_ARRIVAL: the halt on its way to group a stops it; after a halt of a trap it enters its handler (R94 to R98). -/
def execHaltArrival (s : State) : Host.Outcome State Fault Refusal :=
  let gid := s.arg.a
  match s.groups.find gid with
  | none => .next s
  | some g =>
    let roll := ((s.teams.find g.team).map fun t => t.st == .stopping .rollback).getD false
    match g.halt, g.haltPoint roll with
    | some cause, some tword =>
      let s := ((s.modGroup gid (Group.stopFor cause tword)).leaveAlloc gid).noteHalting g.team
      let s := s.modTeam g.team fun t => { t with stoppedAt := s.time }
      .next (if cause then s.afterRecord gid false else s.settle g.team)
    | _, _ => .next s

/-- SSTEP_TRAP: group a, whose clause has ended under SSTEP, traps once its results are written (R99). It stops alone. -/
def execSstepTrap (s : State) : Host.Outcome State Fault Refusal :=
  let gid := s.arg.a
  match s.groups.find gid with
  | none => .next s
  | some g =>
    if g.stepDue && g.st == .ready && g.clause.isNone then
      let c : Cause := { code := 0x61, sub := 0, imm := 0, lanes := g.tmask }
      let s := s.modGroup gid fun g => { Group.record c.word 0 (minPc g.pcv) 0 0 g with tmask := g.tmask, hazards := [] }
      .next (((s.leaveAlloc gid).noteHalting g.team).afterRecord gid g.hmode)
    else .next s

/-! ## Areas in memory (R97, R110, R443) -/

/-- How an access to a save or snapshot area ends: done, failed for a group of the team with a cause code (R97), or held
by the home of a page. -/
inductive Got (α : Type) where
  | ok (a : α) (s : State)
  | fail (group code : Nat) (s : State)
  | held

/-- Go on with a result. -/
def Got.bind {α β : Type} (x : Got α) (f : α → State → Got β) : Got β :=
  match x with
  | .ok a s => f a s
  | .fail g c s => .fail g c s
  | .held => .held

/-- Do something for each element of a list. -/
def Got.each {α β : Type} (f : α → State → Got β) : List α → State → Got (List β)
  | [], s => .ok [] s
  | a :: t, s => (f a s).bind fun b s => (Got.each f t s).bind fun r s => .ok (b :: r) s

/-- A failure is that of a group (R97). -/
def Got.of {α : Type} (group : Nat) (x : Got α) : Got α :=
  match x with
  | .fail _ c s => .fail group c s
  | r => r

/-- Cut a byte string at the ends of lines. -/
def linePieces {α : Type} : Nat → Nat → List α → List (Nat × List α)
  | 0, _, _ => []
  | n + 1, va, l =>
    if l.isEmpty then [] else (va, l.take (128 - va % 128)) :: linePieces n (va / 128 * 128 + 128) (l.drop (128 - va % 128))

/-- Cut a range of addresses at the ends of lines. -/
def lineSpans : Nat → Nat → Nat → List (Nat × Nat)
  | 0, _, _ => []
  | k + 1, va, n =>
    if n = 0 then [] else (va, min n (128 - va % 128)) :: lineSpans k (va / 128 * 128 + 128) (n - (128 - va % 128))

/-- The access of an area: it needs what an access of the context needs (R272); a page that is not present fails. -/
def State.areaReach (s : State) (a : Agent) (k : AccKind) (va n : Nat) : Got (Nat × Nat × TlbEntry) :=
  if 2 ^ 52 ≤ va then .fail 0 0x10 s
  else
    match s.reach a.cl a.ctx (cfgPriv (s.ctx a.ctx).ctxcfg) k va n with
    | (.ok pa e, s) =>
      if spaceOf pa = .link then .fail 0 0x10 s
      else match s.home 8 pa with
        | .here p => .ok (p, pa, e) s
        | _ => .held
    | (.held, _) => .held
    | (_, s) => .fail 0 0x10 s

/-- Whether a write of `n` bytes of one line leaves a part of a poisoned sector unwritten: the sector cannot be completed, an
uncorrectable error (R97, R117; log entry 86). -/
def State.torn (s : State) (home n : Nat) : Bool :=
  let k := homeKey home
  (k % 32 != 0 && s.poisoned k) || ((k + n) % 32 != 0 && s.poisoned (k + n - 1))

/-- Write marked bytes to an area (R97, R117). -/
def State.putMarked (s : State) (a : Agent) (va : Nat) (l : List Marked) : Got Unit :=
  (Got.each (fun (p : Nat × List Marked) s =>
    (s.areaReach a .engineWrite p.1 p.2.length).bind fun q s =>
      if s.torn q.1 p.2.length then .fail 0 0 s
      else .ok () ((s.mergeBytes ((List.range p.2.length).map fun j => (q.1 + j, p.2.getD j (0, false)))).mirrorStore
        goneGid a.launch a.ctx q.2.1 q.2.2)) (linePieces (l.length / 128 + 2) va l) s).bind fun _ s => .ok () s

/-- Write bytes to an area. -/
def State.putPlain (s : State) (a : Agent) (va : Nat) (l : List Byte) : Got Unit := s.putMarked a va (l.map fun b => (b, false))

/-- Read bytes of an area with their marks. -/
def State.getMarked (s : State) (a : Agent) (va n : Nat) : Got (List Marked) :=
  (Got.each (fun (p : Nat × Nat) s =>
    (s.areaReach a .engineRead p.1 p.2).bind fun q s =>
      let (bs, s) := s.homeRead q.1 p.2
      .ok ((List.range p.2).map fun j => (bs.getD j 0, s.poisoned (homeKey q.1 + j))) s) (lineSpans (n / 128 + 2) va n) s).bind
    fun l s => .ok l.flatten s

/-- Read bytes of an area; poisoned data fails with code 0 (R97). -/
def State.getPlain (s : State) (a : Agent) (va n : Nat) : Got (List Byte) :=
  (s.getMarked a va n).bind fun l s => if marked l then .fail 0 0 s else .ok (plain l) s

/-- The agent of the front end for a team. -/
def Team.agent (t : Team) : Agent := { cl := clusterOfCore (t.cores.headD 0), ctx := t.ctx, launch := t.launch }

/-! ## A kernel's buffers and the slots of a team (R110, R139, R140) -/

/-- The buffer table of the descriptor: bytes, lifetime, class (R140). -/
def Launch.kbufs (l : Launch) : List (Nat × Nat × BufClass) :=
  (List.range l.nbuf).map fun k =>
    (field l.desc (0x20 + 16 * k) 4, field l.desc (0x24 + 16 * k) 4, BufClass.ofCode (field l.desc (0x28 + 16 * k) 1))

/-- The summed bytes of a kernel's buffers. -/
def Launch.bufBytes (l : Launch) : Nat := sumBy (fun (p : Nat × Nat × BufClass) => p.1) l.kbufs

/-- NSCAL (R139). -/
def Launch.nscal (l : Launch) : Nat := field l.desc 0x0E 1

/-- Row slots that a team's SAVE and PARK kernel buffers reserve on each core (R110). -/
def Launch.rowSlots (l : Launch) : Nat :=
  sumBy (fun (p : Nat × Nat × BufClass) => if p.2.2 = .drop then 0 else ceilDiv (p.1 / 1024) 26) l.kbufs

/-- The size of a save-area slot (R110). -/
def slotSize : Nat := 27200

/-- The address of a slot. -/
def Context.slotVa (c : Context) (n : Nat) : Nat := c.saveBase + slotSize * n

/-- The free slots of a save area, ascending. -/
def Context.freeSlots (c : Context) : List Nat := (List.range (c.saveSize / slotSize)).filter fun n => ! c.saveUsed.contains n

/-- The size of a snapshot image for a team on `c` cores (R443). -/
def Launch.imgSize (l : Launch) (c : Nat) : Nat := ceilDiv (4160 + l.teamSize * 16960 + c * l.bufBytes) 4096 * 4096

/-- The size of a snapshot slot (R443). -/
def Launch.snapSize (l : Launch) (c : Nat) : Nat := 4096 + 2 * l.imgSize c

/-! ## Records (R107, R110, R344) -/

/-- The bytes of a row of 32 lanes, and the row of bytes at an offset. -/
def rowBytes (r : Row) : List Byte := (List.range 32).flatMap fun l => toBytes 4 (lane r l).toNat
def rowFrom (l : List Byte) (off : Nat) : Row := rowOf fun k => BitVec.ofNat 32 (field l (off + 4 * k) 4)

/-- A bit as a number. -/
def bitNat (b : Bool) : Nat := if b then 1 else 0

/-- Whether a trap frame is held (R110, R113). -/
def Group.hasFrame (g : Group) : Bool := g.hmode || g.trapPending

/-- FLAGS (R110). -/
def Group.flags (g : Group) : Nat :=
  bitNat g.hmode + 2 * bitNat g.allocStop + 4 * bitNat g.trapPending + 8 * bitNat g.pendHalt
    + (if g.hmode then g.hword * 256 else 0)

/-- The save record of a group (R110). -/
def Group.saveRecord (g : Group) : List Byte :=
  rowBytes g.pcv ++ rowBytes g.rev ++ rowBytes (if g.hasFrame then g.spcv else zeroRow)
    ++ toBytes 8 g.cause.toNat ++ toBytes 8 g.skidWord.toNat ++ toBytes 8 g.pidx.toNat ++ toBytes 8 g.ctxcfg.toNat
    ++ toBytes 8 g.dphase ++ toBytes 8 g.flags ++ toBytes 8 (sumBy (fun k => 2 ^ k) g.rows.keys) ++ toBytes 8 0
    ++ toBytes 112 (sumBy (fun q => (g.queue q).length % 16 * 16 ^ q) (List.range 224))
    ++ toBytes 8 (sumBy (fun k => g.dc k % 64 * 64 ^ k) (List.range 6)) ++ toBytes 8 g.deferred.length
    ++ ((List.range 128).flatMap fun n => toBytes 8 (g.sreg n).toNat)
    ++ ((List.range 224).flatMap fun q => (List.range 8).flatMap fun e =>
         toBytes 4 (((g.queue q).map fun (x : PortEntry) => x.val).getD e 0).toNat)
    ++ (g.rows.flatMap fun p => rowBytes p.2) ++ g.deferred.flatten

/-- What the record does not hold of a group. -/
def Group.rest (g : Group) : Rest :=
  { tclause := g.tclause, region := g.region, pendFree := g.pendFree, batch := g.batch, shq := g.shq
    matched := g.shadow && g.matched, pendSkid := g.pendSkid }

/-- The bytes of a record up to its rows (R110). -/
def recordHead : Nat := 0x2240

/-- The rows and the deferred entries that follow, in units of 128 bytes. -/
def recordTail (l : List Byte) : Nat :=
  ((List.range 64).filter fun k => bit (field l 0x1B0 8) k).length + min (field l 0x238 8) 80

/-- The fields of CTXCFG; the rest reads as zero (R4, R88). -/
def cfgMask : DWord := 0x3F0FFFFF

/-- A group from its record: stopped, with every row resident (R111). -/
def Group.ofRecord (l : List Byte) (r : Rest) (g : Group) : Group :=
  let names := (List.range 64).filter fun k => bit (field l 0x1B0 8) k
  let flags := field l 0x1A8 8
  let skid := field l 0x188 8
  { g with
    st := .stopped, pcv := rowFrom l 0, rev := rowFrom l 0x80, spcv := rowFrom l 0x100
    cause := BitVec.ofNat 64 (field l 0x180 4), skidn := bits skid 5 0, tword := bits skid 11 8
    tmask := BitVec.ofNat 32 (bits skid 63 32), pidx := BitVec.ofNat 33 (field l 0x190 8)
    ctxcfg := BitVec.ofNat 64 (field l 0x198 8) &&& cfgMask, dphase := bits (field l 0x1A0 8) 4 0
    hmode := bit flags 0, trapPending := bit flags 2, pendHalt := bit flags 3, hword := bits flags 11 8
    dcs := (List.range 6).map fun k => (k, bits (field l 0x230 8) (6 * k + 5) (6 * k))
    sregs := (List.range 128).map fun n => (n, BitVec.ofNat 64 (field l (0x240 + 8 * n) 8))
    ports := (List.range 224).filterMap fun q =>
      let n := min (bits (field l 0x1C0 112) (4 * q + 3) (4 * q)) 8
      if n = 0 then none
      else some (q, (List.range n).map fun e => ⟨BitVec.ofNat 32 (field l (0x640 + 32 * q + 4 * e) 4), true⟩)
    rows := (List.range names.length).map fun i => (names.getD i 0, rowFrom l (recordHead + 128 * i))
    deferred := (List.range (min (field l 0x238 8) 80)).map fun i =>
      sliceBytes l (recordHead + 128 * (names.length + i)) 128
    tclause := r.tclause, region := r.region, pendFree := r.pendFree, batch := r.batch, shq := r.shq, matched := r.matched, pendSkid := r.pendSkid }

/-- The code of a barrier state (R344). -/
def BarSt.code : BarSt → Nat
  | .none => 0
  | .arrived => 1
  | .passed => 2

def BarSt.ofCode (n : Nat) : BarSt := if n = 1 then .arrived else if n = 2 then .passed else .none

/-- The word of a barrier (R344). -/
def Barrier.word (b : Barrier) : Nat := b.arr % 4096 + bitNat b.ph * 4096 + b.exp % 4096 * 65536

def Barrier.ofWord (n : Nat) : Barrier := { exp := bits n 27 16, arr := bits n 11 0, ph := bit n 12 }

/-- The team record (R344); `gs` are the leading groups that are not retired. -/
def Team.record (t : Team) (gs : List Group) : List Byte :=
  ((List.range 4).flatMap fun b => toBytes 16 (t.bar b).word)
    ++ ((List.range 4).flatMap fun b => toBytes 512 (sumBy (fun (g : Group) => (g.bar b).code * 4 ^ g.num) gs))
    ++ (List.range 16).flatMap fun j => (List.range 8).flatMap fun k => toBytes 8 (t.bc j k).1 ++ toBytes 8 (t.bc j k).2

/-- A team with the barriers and counters of its record. -/
def Team.ofRecord (l : List Byte) (t : Team) : Team :=
  { t with
    bars := (List.range 4).map fun b => Barrier.ofWord (field l (16 * b) 8)
    bcs := (List.range 128).filterMap fun n =>
      let p := (field l (0x840 + 16 * n) 8, field l (0x848 + 16 * n) 8)
      if p = (0, 0) then none else some (n, p) }

/-- The barrier states of group `n` in a team record. -/
def barsFrom (l : List Byte) (n : Nat) : List BarSt :=
  (List.range 4).map fun b => BarSt.ofCode (bits (field l (0x40 + 512 * b) 512) (2 * n + 1) (2 * n))

/-! ## Deferral (R107) -/

/-- An entry of a deferred operation from its fields (R107). -/
def deferEntry (kind opc dc sz dreg batch : Nat) (slots ops : List Byte) : List Byte :=
  [BitVec.ofNat 8 kind, BitVec.ofNat 8 opc, BitVec.ofNat 8 dc, BitVec.ofNat 8 sz, BitVec.ofNat 8 dreg, 0, 0, 0]
    ++ toBytes 8 batch ++ sliceBytes slots 0 8 ++ List.replicate 8 0 ++ sliceBytes ops 0 64 ++ List.replicate 32 0

/-- SLOTS of a copy: 1 + the slot claimed, by CLUSTER.CPOS (R107). -/
def Copy.slotBytes (c : Copy) : List Byte :=
  (List.range 8).map fun p =>
    match c.ends.find? fun x => x.core % 8 == p && x.slot.isSome with
    | some x => BitVec.ofNat 8 (1 + x.slot.getD 0)
    | none => 0

/-- The global pages that a copy reads or writes, with the context that translates them: a stream's is its session's. -/
def State.copyPages (s : State) (c : Copy) : List (Nat × Nat) :=
  let mine := fun (rs : List (Nat × Nat)) => rs.map fun p => (c.ctx, p.1, p.2)
  let rs : List (Nat × Nat × Nat) := match copyKind c.opc c.sz with
    | .g2s | .multi | .s2g => mine (boxOf c.ops).ranges
    | .mem => mine ((boxOf c.ops).ranges ++ [((c.ops.getD 1 0).toNat, c.total)])
    | .xform =>
      let x := c.xform
      if x.srck = 1 then
        (match (s.tower x.tower).sessions.find x.session with
         | some v => [(v.ctx, v.va, v.len)]
         | none => [])
      else mine x.ranges
    | _ => []
  (rs.flatMap fun p => (List.range ((p.2.1 % 65536 + p.2.2 + 65535) / 65536)).map fun k => (p.1, p.2.1 / 65536 + k)).eraseDups

/-- Whether a page of a context is not present. -/
def State.pageAway (s : State) (cl ctx page : Nat) : Bool :=
  match s.reach cl ctx true .engineRead (page * 65536 % 2 ^ 52) 1 with
  | (.absent _ _ _, _) => true
  | _ => false

/-- Whether a copy waits on a page that is not present (R107). -/
def State.copyStuck (s : State) (c : Copy) : Bool :=
  ! c.full && (s.copyPages c).any fun p => s.pageAway (clusterOfCore c.core) p.1 p.2

/-- Withdraw the landed bytes of a copy from the byte counters that took them (R107). -/
def State.withdraw (s : State) (c : Copy) : State :=
  match c.bck with
  | none => s
  | some k =>
    let landed := sumBy (fun (p : Nat × Nat) => p.2) c.landed
    let cut := fun (n : Nat) (s : State) (core : Nat) =>
      s.modTeam c.team fun t =>
        let b := t.bc (t.coreNo core) k
        { t with bcs := t.bcs.put (8 * t.coreNo core + k) (b.1 - n, b.2) }
    c.lostAt.foldl (cut c.total) ((c.ends.map (·.core)).foldl (cut landed) s)

/-- The entry of an operation that can be deferred now; none if it must complete (R107). -/
def State.entryOf (s : State) (gid : Nat) (g : Group) (t : Team) (o : Op) : Option (List Byte × State) :=
  match o.act with
  | .sigwait va c _ d =>
    let d := if d = 128 then (o.sres.head?.map (·.1)).getD 128 else d
    some (deferEntry 1 o.opc o.dc o.sz d 0 [] (toBytes 8 va ++ toBytes 8 c.toNat), s)
  | .cwait n => some (deferEntry 2 o.opc o.dc o.sz 0 n [] [], s)
  | .ttq l => some (deferEntry 3 o.opc o.dc o.sz 0 0 [] l, s)
  | .ttqMem va =>
    (match s.ttqRead (coreOf gid) t.ctx t.launch va (cfgPriv g.ctxcfg) with
     | (some l, s) => some (deferEntry 3 o.opc o.dc o.sz 0 0 [] l, s)
     | (none, _) => none)
  | .entry l => some (l, s.dropReads o.id)
  | .copy n =>
    (match s.copies.find n with
     | some c =>
       if s.copyStuck c then
         some (deferEntry 4 o.opc o.dc o.sz 0 c.batch c.slotBytes ((c.ops.flatMap fun x => toBytes 8 x.toNat)),
           (s.withdraw c).dropCopy n)
       else none
     | none => none)
  | _ => none

/-- Defer what a group of a team can defer. -/
def State.deferGroup (s : State) (gid : Nat) : State :=
  match s.groups.find gid, (s.groups.find gid).bind fun g => s.teams.find g.team with
  | some g, some t =>
    g.ops.foldl (fun s o =>
      match s.entryOf gid g t o with
      | some (l, s) =>
        s.modGroup gid fun g => { g with ops := g.ops.filter fun p => p.id != o.id, deferred := g.deferred ++ [l] }
      | none => s) s
  | _, _ => s

/-- Whether a team is leaving the cores to be saved. -/
def Team.leaving (t : Team) : Bool :=
  match t.st with
  | .stopping .discard => false
  | .stopping _ => true
  | _ => false

/-- DEFERRAL_TIMEOUT: 2 µs after the last group of team a stopped, its operations that wait on conditions outside the team
are deferred (R107). -/
def execDeferralTimeout (s : State) : Host.Outcome State Fault Refusal :=
  match s.teams.find s.arg.a with
  | none => .next s
  | some t =>
    if t.leaving && s.allStopped s.arg.a && decide (s.time ≥ t.stoppedAt + 2000) then
      .next ((s.groupsOf s.arg.a).foldl (fun s p => s.deferGroup p.1) s)
    else .next s

/-! ## Rows of buffers (R109, R234, R459) -/

/-- A row of a saved buffer to be copied: team core, number, row and bytes. -/
structure SaveRow where
  tcore : Nat
  num : Nat
  row : Nat
  data : List Marked

/-- The bytes of a row with their marks. -/
def SpRow.marked (r : SpRow) : List Marked := (List.range 1024).map fun j => ((r.read j 1).headD 0, r.bad j)

/-- The index entry of a row (R459). -/
def SaveRow.entry (r : SaveRow) : Nat := r.tcore % 16 + r.num % 256 * 2 ^ 8 + r.row % 2048 * 2 ^ 16 + 2 ^ 63

/-- Write a row into place `n` of the row slots (R459). -/
def State.putRow (s : State) (a : Agent) (slots : List Nat) (n : Nat) (r : SaveRow) : Got Unit :=
  let base := (s.ctx a.ctx).slotVa (slots.getD (n / 26) 0)
  (s.putMarked a (base + 1024 * (n % 26)) r.data).bind fun _ s =>
    s.putPlain a (base + 0x6800 + 8 * (n % 26)) (toBytes 8 r.entry)

/-- Clear the indices of row slots (R459). -/
def State.clearIndex (s : State) (a : Agent) (slots : List Nat) : Got Unit :=
  (Got.each (fun n (s : State) => s.putPlain a ((s.ctx a.ctx).slotVa n + 0x6800) (List.replicate 576 0)) slots s).bind
    fun _ s => .ok () s

/-- Write rows from place `n` on. -/
def State.putRows (s : State) (a : Agent) (slots : List Nat) (n : Nat) (rs : List SaveRow) : Got Unit :=
  (Got.each (fun (p : Nat × SaveRow) (s : State) => s.putRow a slots p.1 p.2) ((List.range rs.length).map fun k =>
    (n + k, rs.getD k ⟨0, 0, 0, []⟩)) s).bind fun _ s => .ok () s

/-- The rows of a buffer as a save keeps them, the first copied row taking place `n`, and the rows to copy (R234). -/
def Core.keepRows (k : Core) (now tcore : Nat) (b : Buf) (slots : List Nat) (n : Nat) : List SavedRow × List SaveRow :=
  (List.range b.rows).foldl (fun (a : List SavedRow × List SaveRow) i =>
    let r := k.row (b.base + i)
    if r.st = .never then (a.1 ++ [.never], a.2)
    else if b.cls = .drop ∨ r.st = .void ∨ r.expired now (k.keepNs b) = true then (a.1 ++ [.void], a.2)
    else
      let m := n + a.2.length
      (a.1 ++ [.copied (slots.getD (m / 26) 0) (m % 26) r.poison], a.2 ++ [⟨tcore, b.num, i, r.marked⟩])) ([], [])

/-- Save buffers, in the order given: `place` marks those that stay as PARKED buffers (R109). -/
def State.keepBufs (s : State) (slots : List Nat) :
    List (Nat × Nat × Nat × Buf) → Nat → List SavedBuf × List SaveRow
  | [], _ => ([], [])
  | (j, core, id, b) :: t, n =>
    if b.cls = .park then
      let r := s.keepBufs slots t n
      (⟨j, id, b, [], some (core, id)⟩ :: r.1, r.2)
    else
      let x := (s.core core).keepRows s.time j b slots n
      let r := s.keepBufs slots t (n + x.2.length)
      (⟨j, id, { b with circ := if b.cls = .drop then none else b.circ }, x.1, none⟩ :: r.1, x.2 ++ r.2)

/-- The buffers of a team, by team core and number (R459). -/
def State.bufsOf (s : State) (team : Nat) (t : Team) : List (Nat × Nat × Nat × Buf) :=
  (List.range t.cores.length).flatMap fun j =>
    let core := t.cores.getD j 0
    (sortBy (fun (p : Nat × Buf) => p.2.num) ((s.core core).bufs.filter fun p => p.2.team == team)).map fun p =>
      (j, core, p.1, p.2)

/-- The rows that buffers would copy. -/
def State.rowsToSave (s : State) (bs : List (Nat × Nat × Nat × Buf)) : Nat := (s.keepBufs [] bs 0).2.length

/-- Further row slots that a team must take so that `n` rows fit; none if the area has too few (R459). -/
def Context.moreSlots (c : Context) (have_ n : Nat) : Option (List Nat) :=
  let need := ceilDiv n 26 - have_
  if c.freeSlots.length < need then none else some (c.freeSlots.take need)

/-! ## Saving a team (R106 to R110, R256) -/

/-- Whether a release that has begun is due at a barrier of a team (R337, R344). -/
def Team.releaseDue (t : Team) : Bool := t.bars.any fun b => b.arr == b.exp && decide (0 < b.arr)

/-- Whether a team may be saved now: every group has stopped, nothing is incomplete and no release is due (R106, R344); a
team that rolls back abandons its operations (R125). -/
def State.canSave (s : State) (team : Nat) (t : Team) : Bool :=
  match t.st with
  | .stopping .discard => false
  | .stopping .rollback => s.allStopped team
  | .stopping _ => ((s.groupsOf team).all fun p => p.2.st == .stopped) && s.opsDone team && ! t.releaseDue
  | .saved _ => true
  | _ => false

/-- Whether team a may be saved with those that must leave with it (R256). -/
def State.maySave (s : State) (team : Nat) (t : Team) : Bool :=
  match s.launchOf t with
  | none => false
  | some l =>
    if l.portMask = 0 ∨ t.st = .stopping .rollback then s.canSave team t
    else (s.teams.filter fun p => p.2.launch == t.launch).all fun p => s.canSave p.1 p.2

/-- Write the records of a team's groups (R110). -/
def State.putRecords (s : State) (a : Agent) (t : Team) (gs : List (Nat × Group)) : Got Unit :=
  (Got.each (fun (p : Nat × Group) (s : State) =>
    (s.putPlain a ((s.ctx a.ctx).slotVa (t.slotG.getD p.1 0)) p.2.saveRecord).of p.2.num) gs s).bind fun _ s => .ok () s

/-- The members of a team on the cores, with their places in the team. -/
def State.membersOn (s : State) (t : Team) : List (Nat × Nat × Group) :=
  (List.range t.members.length).filterMap fun k =>
    match t.members.getD k .retired with
    | .on gid => (s.groups.find gid).map fun g => (k, gid, g)
    | _ => none

/-- A team's groups leave the cores: slots, rows and reservations are released; SAVE and DROP buffers are released and
PARK buffers stay; the L1 lines of the context go home (R109, R155, R227, R330). -/
def State.leaveCores (s : State) (team : Nat) (t : Team) (why : HaltWhy) (ms : List Member) (bufs : List SavedBuf)
    (extra : List Nat) : State :=
  let s := (s.membersOn t).foldl (fun (s : State) (p : Nat × Nat × Group) => s.renameGid p.2.1 (offGid team p.1)) s
  let s := t.cores.foldl (fun (s : State) c => s.flushL1 c false fun l => l.ctx == t.ctx) s
  let s := { s with
    cores := s.cores.map fun (p : Nat × Core) =>
      let c := s.forgetWaits team t.cores p.1 p.2
      let kept := c.bufs.filter fun (b : Nat × Buf) => b.2.team != team || bufs.any fun x => x.place == some (p.1, b.1)
      (p.1, { c with bufs := kept.map fun (b : Nat × Buf) =>
        if b.2.team = team then (b.1, { b.2 with parked := true }) else b })
    groups := s.groups.filter fun p => p.2.team != team }
  let s := s.modTeam team fun t => { t with st := .saved why, members := ms, bufs := bufs, extraR := extra, halting := false }
  let s := s.modCtx t.ctx fun c => { c with saveUsed := extra.foldl (fun l n => insertNat n l) c.saveUsed }
  s.refreshCtx t.ctx

/-- A save or capture that cannot be written faults the team (R97). -/
def State.areaFault (s : State) (team group code : Nat) : State :=
  (s.faultTeam team group 0 exitPc code 0 0).settle team

/-- The members of a team that is saved. -/
def State.membersOff (s : State) (t : Team) : List Member :=
  t.members.map fun m =>
    match m with
    | .on gid => match s.groups.find gid with
      | some g => .off g.rest
      | none => .retired
    | m => m

/-- Save a team (R109, R110, R344, R459). -/
def State.saveTeam (s : State) (team : Nat) (t : Team) (why : HaltWhy) : Got Unit :=
  let a := t.agent
  let gs := s.membersOn t
  let bs := s.bufsOf team t
  match (s.ctx t.ctx).moreSlots t.slotR.length (s.rowsToSave bs) with
  | none => .fail 0 0 s
  | some extra =>
    let slots := t.slotR ++ extra
    let kept := s.keepBufs slots bs 0
    let leaders := (gs.map fun p => p.2.2).filter fun g => ! g.shadow
    (s.putPlain a ((s.ctx t.ctx).slotVa t.slotT) (sliceBytes (t.record leaders) 0 slotSize)).bind fun _ s =>
      (s.putRecords a t (gs.map fun p => (p.1, p.2.2))).bind fun _ s =>
        (s.clearIndex a slots).bind fun _ s =>
          (s.putRows a slots 0 kept.2).bind fun _ s => .ok () (s.leaveCores team t why (s.membersOff t) kept.1 extra)

/-- A team that rolls back abandons its operations and leaves the cores (R125). -/
def State.abandon (s : State) (team : Nat) (t : Team) : State :=
  let s := (s.copies.filter fun (c : Nat × Copy) => c.2.team == team).foldl (fun (s : State) c => s.dropCopy c.1) s
  s.leaveCores team t .rollback (s.membersOff t) [] []

/-- TEAM_SAVE: team a, which has stopped, is saved and leaves the cores (R106, R109, R110, R256). -/
def execTeamSave (s : State) : Host.Outcome State Fault Refusal :=
  let n := s.arg.a
  match s.teams.find n with
  | none => .next s
  | some t =>
    if ! s.maySave n t then .next s
    else
      match t.st with
      | .stopping .rollback => .next (s.abandon n t)
      | .stopping why =>
        (match s.saveTeam n t why with
         | .ok _ s => .next s
         | .fail g c s => .next (s.areaFault n g c)
         | .held => .next s)
      | _ => .next s

/-! ## PARK buffers written out (R87, R458, R459) -/

/-- Write the PARK buffers of a saved team out as SAVE buffers (R87, R109). -/
def State.writeParked (s : State) (team : Nat) : Got Unit :=
  match s.teams.find team with
  | none => .ok () s
  | some t =>
    let a := t.agent
    let mine := t.bufs.filterMap fun b => match b.place with
      | some (core, id) => ((s.core core).bufs.find id).map fun (x : Buf) => (b.tcore, core, id, { x with cls := .save, parked := false })
      | none => none
    if mine.isEmpty then .ok () s
    else
      let used := sumBy (fun (b : SavedBuf) => (b.rows.filter fun r => match r with
        | .copied _ _ _ => true
        | _ => false).length) t.bufs
      let have_ := t.slotR ++ t.extraR
      match (s.ctx t.ctx).moreSlots have_.length (used + s.rowsToSave mine) with
      | none => .fail 0 0 s
      | some extra =>
        let slots := have_ ++ extra
        let kept := s.keepBufs slots mine used
        (s.clearIndex a extra).bind fun _ s =>
          (s.putRows a slots used kept.2).bind fun _ s =>
            let s := mine.foldl (fun (s : State) (x : Nat × Nat × Nat × Buf) => s.modCore x.2.1 fun c => c.freeBuf x.2.2.1) s
            let s := s.modCtx t.ctx fun c => { c with saveUsed := extra.foldl (fun l n => insertNat n l) c.saveUsed }
            .ok () (s.modTeam team fun t =>
              { t with extraR := t.extraR ++ extra
                       bufs := t.bufs.map fun b =>
                         match b.place, kept.1.find? fun x => x.tcore == b.tcore && x.id == b.id with
                         | some _, some x => { x with buf := { x.buf with cls := b.buf.cls } }
                         | _, _ => b })

/-- A PARKED context becomes EVICTED: its PARK buffers are written out; a team whose buffers cannot be written faults (R87,
R97). None while a page's home holds a write. -/
def State.evict (s : State) (ctx : Nat) : Option State :=
  let ts := (s.teams.filter fun p => p.2.ctx == ctx && ! p.2.onCores).map (·.1)
  (ts.foldl (fun (o : Option State) n => o.bind fun s =>
    match s.writeParked n with
    | .ok _ s => some s
    | .fail g c s => some (s.areaFault n g c)
    | .held => none) (some s)).map fun s => s.modCtx ctx fun c => { c with st := if c.st = .parked then .evicted else c.st }

/-! ## Queues and context-level faults (R97, R128, R129) -/

/-- Whether a write of the front end to the same line of a context waits already. -/
def State.frontBehind (s : State) (ctx va : Nat) : Bool := s.fronts.any fun w => w.ctx == ctx && w.va / 128 == va / 128

/-- The front end writes a word of a queue control block or of a stage queue: a page that is not present or an entry whose
home holds it makes the write wait, a link aperture makes it a posted request, and a page that the tables refuse drops it
(R128, R132, R149; log entry 79). -/
def State.frontPut (s : State) (tower ctx va : Nat) (bs : List Byte) : State :=
  let later := fun (s : State) => { s with fronts := s.fronts ++ [⟨ctx, tower, va, bs⟩] }
  if s.frontBehind ctx va then later s
  else
    match s.reach (12 * tower) ctx true .engineRead va bs.length with
    | (.ok pa _, s) => if spaceOf pa = .link then s.post (.write bs []) goneGid (2 ^ 64) ctx pa bs.length else s.putHome pa bs
    | (.absent pte l3 attr, s) => later (s.reportFault ctx va 3 (96 * tower) pte l3 attr)
    | (.held, s) => later s
    | (_, s) => s

/-- Writes of the front end that waited are tried again, in their order. -/
def State.drainFronts (s : State) : State :=
  s.fronts.foldl (fun (s : State) w => s.frontPut w.tower w.ctx w.va w.bytes) { s with fronts := [] }

/-- The code of a queue's state (R128). -/
def QueueSt.code : QueueSt → Nat
  | .created => 1
  | .active => 2
  | .suspended => 3
  | .draining => 4
  | .destroyed => 5

/-- A queue enters a state; QSTAT follows (R128, R129). -/
def State.setQueue (s : State) (n : Nat) (st : QueueSt) (err : Nat) : State :=
  match s.queues.find n with
  | none => s
  | some q =>
    (s.modQueue n fun q => { q with st := st, err := err }).frontPut q.tower q.ctx (q.qcb + 0x48)
      (toBytes 8 (st.code + 16 * err))

/-- No detail. -/
def noInfo : FaultInfo := { team := 0, group := 0, lane := 0, stage := 0, pc := exitPc, code := 0, part := 0, pkind := 0 }

/-- A launch of a faulted context ends FAULTED unless it has ended or its END is a fault or a cancellation (R97, R145). -/
def State.faultLaunch (s : State) (n : Nat) (info : FaultInfo) : State :=
  match s.launches.find n with
  | none => s
  | some l =>
    match l.st with
    | .submitted => s.modLaunch n fun l => { l with st := .draining, endv := 3, info := info, drainAt := s.time }
    | .draining => if l.endv = 1 then s.modLaunch n fun l => { l with endv := 3, info := info } else s
    | _ => s.drainLaunch n 3 info

/-- A context-level fault (R87, R97): teams are discarded, queues suspended, launches end FAULTED, tasks are
cancelled, the driver is interrupted. `team` names the team whose restore failed, with its code. -/
def State.faultCtx (s : State) (c : Nat) (team : Option (Nat × Nat)) : State :=
  let at_ := team.bind fun p => (s.teams.find p.1).map fun t =>
    (t.launch, { noInfo with team := t.num, stage := t.stage, code := p.2 })
  let s := s.modCtx c fun x => { x with st := .faulted }
  let s := (s.launches.filter fun p => p.2.ctx == c).foldl (fun s p =>
    s.faultLaunch p.1 (match at_ with
      | some (n, i) => if n = p.1 then i else noInfo
      | none => noInfo)) s
  let s := (s.queues.filter fun p => p.2.ctx == c && (p.2.st == .active || p.2.st == .created)).foldl
    (fun s p => s.setQueue p.1 .suspended p.2.err) s
  (s.cancelTasks c).interrupt (.contextFault c)

/-! ## Restoring a team (R111, R125, R228, R234) -/

/-- Where a team is restored: its cores, and the slot of each member that is off the cores. -/
structure Landing where
  cores : List Nat
  gids : List (Nat × Nat)

/-- Put a saved buffer back: its number of the table and its handle; the tag is cut to RETN.US now (R111, R228, R234). -/
def State.putBuf (s : State) (a : Agent) (team : Nat) (cores : List Nat) (addr : Nat → Nat → Nat) (b : SavedBuf) :
    Got (SavedBuf × DWord) :=
  let core := cores.getD b.tcore 0
  match b.place with
  | some (_, id) =>
    let s := s.modCore core fun c => { c with bufs := c.bufs.modify id fun x => { x with parked := false, tag := min x.tag c.retnUs } }
    .ok (b, (((s.core core).bufs.find id).getD b.buf).handle id) s
  | none =>
    match (s.core core).place b.buf.rows with
    | .at id base =>
      let (x, c) := (s.core core).alloc id base b.buf.rows b.buf.tag b.buf.cls team b.buf.num
      let x := { x with circ := b.buf.circ }
      let s := s.setCore core { c with bufs := c.bufs.put id x }
      (Got.each (fun (i : Nat) (s : State) =>
        match b.rows.getD i .never with
        | .never => Got.ok () s
        | .void => .ok () (s.modCore core fun c => { c with sp := c.sp.put (base + i) { freshRow with st := .void } })
        | .copied slot idx poison =>
          (s.getMarked a (addr slot idx) 1024).bind fun l s =>
            if (List.range 1024).any fun j => (l.getD j (0, false)).2 && ! poison.getLsbD (j / 32) then .fail 0 0 s
            else
              let row : SpRow := { st := .stamped, stamp := s.time, dirty0 := true, dirty1 := true
                                   data := BitVec.ofNat 8192 (ofBytes (plain l)), poison := poison }
              .ok () (s.modCore core fun c => { c with sp := c.sp.put (base + i) row }))
        (List.range b.rows.length) s).bind fun _ s => .ok (b, x.handle id) s
    | _ => .fail 0 0 s

/-- The new handle for an old one among the buffers of a team core. -/
def newHandle (bs : List (SavedBuf × DWord)) (tcore : Nat) (h : DWord) : DWord :=
  match bs.find? fun p => p.1.tcore == tcore && p.1.id == handleId h && p.1.buf.gen == handleGen h with
  | some p => p.2
  | none => h

/-- A word of an entry's operands. -/
def entryOp (l : List Byte) (k : Nat) : DWord := BitVec.ofNat 64 (field l (0x20 + 8 * k) 8)

/-- One half of the chain record of a copy that is issued again, read as LDG reads it, by operation `owner` of a group; or the
cause or the wait that stands in its way (R107, R364). -/
def State.chainHalf (s : State) (gid : Nat) (t : Team) (priv : Bool) (owner va : Nat) : Except CopyChk (List Byte) × State :=
  match s.check (clusterOf gid) t.ctx priv .load va 64 with
  | (.ok pa e, s) =>
    if spaceOf pa = .link then
      if ! admits (s.window pa) (.load 64) then (.error (.bad 0x15 4), s)
      else match s.opRead gid t.launch t.ctx pa 64 owner with
        | (none, s) => (.error (.wait .other 0), s)
        | (some r, s) =>
          if r.cause ≠ 0 then (.error (.bad (r.cause % 256) (r.cause / 256)), s) else (.ok r.value, s.consume t.launch [r])
    else let (bs, s) := s.loadBytes (coreOf gid) t.ctx t.launch va pa 64 e; (.ok bs, s)
  | (.trap code sub, s) => (.error (.bad code sub), s)
  | (.absent pte l3 attr, s) => (.error (.wait .other 0), s.reportFault t.ctx va 0 (coreOf gid) pte l3 attr)
  | (_, s) => (.error (.wait .other 0), s)

/-- The checks of a reissued copy (R107, R356, R364, R374), with its chain record and its size. -/
def State.recheck (s : State) (gid owner : Nat) (g : Group) (t : Team) (l : Launch) (k : CopyKind) (ops : List DWord) :
    (CopyChk × List Byte × Nat) × State :=
  let core := coreOf gid
  let cl := clusterOfCore core
  let priv := cfgPriv g.ctxcfg
  match k with
  | .xform =>
    let ra := (ops.getD 3 0).toNat
    (match s.chainHalf gid t priv owner ra with
     | (.error x, s) => ((x, [], 0), s)
     | (.ok x, s) =>
       match s.chainHalf gid t priv owner ((ra + 64) % 2 ^ 64) with
       | (.error x, s) => ((x, [], 0), s)
       | (.ok y, s) =>
         let v := xformOps (x ++ y) ops (towerOfCore core)
         let (r, s) := s.checkXform cl t.ctx priv (ctlOf (ops.getD 2 0)) v
         ((r, x ++ y, v.outBytes), s))
  | .t2s | .s2t =>
    let esz := (((s.ctx t.ctx).tensorOf (ops.getD 0 0).toNat).map (·.esz)).getD 1
    ((s.checkTensor t.ctx k ops, [], (tboxOf ops).count * esz), s)
  | _ =>
    let (r, s) := s.checkBox cl t.ctx priv k l.nbuf ops
    ((r, [], (boxOf ops).total), s)

/-- The slot of SLOTS for an end of a copy: its byte, or the only one of a copy with one end (R107). -/
def slotFor (l : List Byte) (one : Bool) (x : CopyEnd) : Option Nat :=
  let bs := sliceBytes l 0x10 8
  let b := if one then (bs.find? fun b => b != 0).getD 0 else bs.getD (x.core % 8) 0
  if b = 0 then none else some (b.toNat - 1)

/-- An entry of a copy whose buffer handle is the one it has after the restore (R107, R228). -/
def patchEntry (bs : List (SavedBuf × DWord)) (tcore : Nat) (e : List Byte) : List Byte :=
  let k := copyKind (field e 1 1) (field e 3 1)
  if k = .mem ∨ k = .multi then e
  else e.take 0x28 ++ toBytes 8 (newHandle bs tcore (entryOp e 1)).toNat ++ e.drop 0x30

/-- A copy is issued again from its entry, into the slots it claimed, for operation `owner` (R107): the copy's number, a
cause, or nothing while it must wait. -/
def State.recopy (s : State) (gid owner : Nat) (g : Group) (t : Team) (l : Launch) (e : List Byte) :
    Option (Except Nat Nat) × State :=
  let core := coreOf gid
  let opc := field e 1 1
  let sz := field e 3 1
  let k := copyKind opc sz
  let ops := (List.range 8).map (entryOp e)
  match s.recheck gid owner g t l k ops with
  | ((.wait _ _, _, _), s) => (none, s)
  | ((.bad code _, _, _), s) => (some (.error code), s)
  | ((.ok, chain, total), s) =>
    let ends := s.padEnds core g.team t.cores k ops
    let ctl := ctlOf (ops.getD 2 0)
    let claimed := if ctl.cb then ends.filterMap fun x =>
        match slotFor e (k != .multi) x, s.circAt x with
        | some n, some c => some { x with off := 1024 * c.srows * n, lim := 1024 * c.srows * (n + 1), slot := some n }
        | _, _ => none
      else []
    let others := ends.filter fun x => ! claimed.any fun y => y.core == x.core
    let missing := if k = .multi then (maskCores (clusterOfCore core) ops).filter fun c => ! t.cores.contains c else []
    let c := newCopy gid g.team t.launch t.ctx core opc sz ops chain total (field e 8 8) exitPc
    let (n, s) := s.enterCopy c missing others
    (some (.ok n), (s.dropReads owner).modCopy n fun c => { c with ends := claimed ++ c.ends })

/-- A copy that waits to be issued again is tried: it issues, it waits, or a cause is found, which faults the team with FPC
0xFFFF_FFFF (R107). -/
def State.tryEntry (s : State) (gid id : Nat) (g : Group) (t : Team) (l : Launch) (e : List Byte) : State :=
  match s.recopy gid id g t l e with
  | (none, s) => s
  | (some (.ok n), s) =>
    s.modGroup gid fun g => { g with ops := g.ops.map fun o => if o.id = id then { o with act := .copy n } else o }
  | (some (.error code), s) => (s.dropReads id).faultTeam g.team g.num 0 exitPc code 0 0

/-- A deferred operation is issued again, without raising its counter (R107, R111). -/
def State.reissue (s : State) (gid : Nat) (t : Team) (l : Launch) (bs : List (SavedBuf × DWord)) (e : List Byte) : State :=
  match s.groups.find gid with
  | none => s
  | some g =>
    let add := fun (s : State) (a : OpAct) (sres : List (Nat × DWord)) =>
      let (n, s) := s.gensym
      s.modGroup gid fun g => { g with ops := g.ops ++ [⟨n, field e 2 1, field e 1 1, field e 3 1, [], sres, a, exitPc⟩] }
    let d := field e 4 1
    match field e 0 1 with
    | 1 => add s (.sigwait (entryOp e 0).toNat (entryOp e 1) (field e 3 1) d) (if d < 128 then [(d, 0)] else [])
    | 2 => add s (.cwait (field e 8 8)) []
    | 3 => add s (.ttq (sliceBytes e 0x20 64)) []
    | 4 =>
      let id := s.fresh
      let e := patchEntry bs g.tcore e
      (add s (.entry e) []).tryEntry gid id g t l e
    | _ => s

/-- Issue the deferred operations of a group again (R107). -/
def State.reissueAll (s : State) (gid : Nat) (t : Team) (l : Launch) (bs : List (SavedBuf × DWord)) : State :=
  match s.groups.find gid with
  | none => s
  | some g =>
    g.deferred.foldl (fun (s : State) e => s.reissue gid t l bs e) (s.modGroup gid fun g => { g with deferred := [] })

/-- A restored group resumes: in its handler, at its frame's handler, or as RTE would resume it (R111, R113). -/
def Group.resume (handler : Word) (tick : Nat) (g : Group) : Group :=
  if g.trapPending then g.enterHandler handler tick
  else if g.hmode then { g with st := .ready, age := tick, clause := none, wait := none }
  else g.resumeAt tick (bits g.cause.toNat 7 0 = 0 ∨ bits g.cause.toNat 7 0 = 0x70)

/-- Read the record of member `k` of a team into a group (R110). -/
def State.readMember (s : State) (a : Agent) (team : Nat) (t : Team) (l : Launch) (va k : Nat) (m : Member) : Got Group :=
  let num := k % l.teamSize
  (s.getPlain a va recordHead).bind fun h s =>
    (s.getPlain a (va + recordHead) (128 * recordTail h)).bind fun r s =>
      let g := newGroup team num (num / t.per) (decide (k ≥ l.teamSize)) 0 0 [] s.tick
      let rest : Rest := match m with
        | .off r => r
        | _ => ⟨0, false, [], 0, [], false, 0⟩
      .ok (g.ofRecord (h ++ r) rest) s

/-- The handles of a team's restored kernel buffers go into their scalars; PARK buffers used in place keep theirs (R146, R227,
R228). -/
def handScalars (l : Launch) (bs : List (SavedBuf × DWord)) (g : Group) : Group :=
  bs.foldl (fun (g : Group) p =>
    if p.1.tcore = g.tcore ∧ p.1.buf.num < l.nbuf ∧ p.1.place = none then g.setS (l.nscal + p.1.buf.num) p.2 else g) g

/-- Which image a team that rolls back returns to: CUR (R443, R444); 0 for a saved team. -/
def State.readCur (s : State) (a : Agent) (t : Team) (roll : Bool) : Got Nat :=
  if roll then (s.getPlain a ((s.ctx t.ctx).snapBase + t.snapSlot) 8).bind fun b s => .ok (field b 0 1) s else .ok 0 s

/-- Where a team's records and rows are read from: the save area, or an image of the snapshot area (R125, R443). -/
structure Source where
  team : Nat
  member : Nat → Nat
  row : Nat → Nat → Nat

def Team.source (t : Team) (l : Launch) (c : Context) (roll : Bool) (cur : Nat) : Source :=
  if roll then
    let img := c.snapBase + t.snapSlot + 0x1000 + cur * l.imgSize t.cores.length
    { team := img, member := fun k => img + 4160 + 16960 * (k % l.teamSize)
      row := fun _ i => img + 4160 + 16960 * l.teamSize + 1024 * i }
  else { team := c.slotVa t.slotT, member := fun k => c.slotVa (t.slotG.getD k 0), row := fun n i => c.slotVa n + 1024 * i }

/-- The groups and buffers of a restored team stand on their cores; its operations are issued again and its groups resume
(R111, R459). Their L1s keep no older line of the context (R330). -/
def State.landTeam (s : State) (team : Nat) (t : Team) (l : Launch) (x : Landing) (roll : Bool) (tr : List Byte)
    (gs : List (Nat × Group)) (bs : List (SavedBuf × DWord)) : State :=
  let s := x.gids.foldl (fun (s : State) (p : Nat × Nat) => s.renameGid (offGid team p.1) p.2) s
  let s := { s with groups := gs.foldl (fun (m : Tbl Group) (p : Nat × Group) =>
    let g := if p.2.shadow then p.2 else { p.2 with bars := barsFrom tr p.2.num }
    m.put p.1 (handScalars l bs g)) s.groups }
  let s := x.cores.foldl (fun (s : State) c => s.flushL1 c false fun l => l.ctx == t.ctx) s
  let s := s.modCtx t.ctx fun c => { c with saveUsed := c.saveUsed.filter fun n => ! t.extraR.contains n }
  let s := s.modTeam team fun t =>
    let t := Team.ofRecord tr t
    { t with st := .running, cores := x.cores, placedAt := s.time, order := s.tick, extraR := [], bufs := [], halting := false
             members := x.gids.foldl (fun (m : List Member) (p : Nat × Nat) => listSet m p.1 (.on p.2)) t.members
             safe := t.safe || roll }
  let s := if roll then s.setChk t.launch chkRolled else s
  let t' := (s.teams.find team).getD t
  let s := gs.foldl (fun (s : State) (p : Nat × Group) => s.reissueAll p.1 t' l bs) s
  let s := gs.foldl (fun (s : State) (p : Nat × Group) => s.modGroup p.1 (Group.resume l.handler s.tick)) s
  (s.noteHalting team).refreshCtx t.ctx

/-- Restore a team on the cores chosen for it (R111, R125). -/
def State.restoreTeam (s : State) (team : Nat) (t : Team) (l : Launch) (x : Landing) : Got Unit :=
  let roll := decide (t.st = .saved .rollback)
  let a := { t.agent with cl := clusterOfCore (x.cores.headD 0) }
  (s.readCur a t roll).bind fun cur s =>
    let img := t.images.findD cur ⟨[], []⟩
    let src := t.source l (s.ctx t.ctx) roll cur
    let ms := if roll then img.members else t.members
    let t := { t with members := ms }
    (s.getPlain a src.team 4160).bind fun tr s =>
      (Got.each (fun (p : Nat × Nat) (s : State) =>
        (s.readMember a team t l (src.member p.1) p.1 (ms.getD p.1 .retired)).bind fun g s => .ok (p.2, g) s) x.gids s).bind
        fun gs s =>
          (Got.each (fun b (s : State) => s.putBuf a team x.cores src.row b) (if roll then img.bufs else t.bufs) s).bind
            fun bs s => .ok () ((s.modTeam team fun u => { u with members := ms }).landTeam team t l x roll tr gs bs)

/-- A lost scratchpad part under a team: a rollback-safe team of a SNAP launch with a current image rolls back, and the
other teams of a port launch leave the cores with it (R256); any other team faults with the part named (R125, R444). -/
def State.loseUnder (s : State) (team part pkind : Nat) : State :=
  match s.teams.find team, (s.teams.find team).bind s.launchOf with
  | some t, some l =>
    let cur := match s.readCur t.agent t true with
      | .ok n _ => n
      | _ => 255
    if l.snap && t.safe && (t.images.find cur).isSome then
      (if l.portMask = 0 then s else s.stopWhole team .preempt).stopTeam team .rollback
    else s.faultTeam team 0 0 exitPc 0 part pkind
  | _, _ => s

/-! ## CKPT and capture (R122 to R124, R233, R443, R444) -/

/-- The snapshot period in nanoseconds (R122, R141). -/
def Launch.period (l : Launch) : Nat :=
  let n := field l.record 0x36 1
  (if n = 0 then 5 else n) * 1000000

/-- A group as it stands after its CKPT, for its record: CKPT may open a clause with RGN (R57, R124). -/
def Group.afterCkpt (g : Group) : Group :=
  match g.clause with
  | none => g
  | some c =>
    let g := g.enterRegion c []
    if c.pos + 1 ≥ c.words.length then
      { g with pcv := rowOf fun l => if inMask c.active l then c.next else lane g.pcv l, tword := 0, tmask := c.active
               skidn := 0, wait := none }
    else { g with tword := c.pos + 2, tmask := c.active, tclause := c.addr, skidn := 0, wait := none }

/-- The kernel buffers of a team with the number of their first row in an image (R443). -/
def State.imageBufs (s : State) (team : Nat) (t : Team) (l : Launch) : List (Nat × Nat × Nat × Buf × Nat) :=
  ((s.bufsOf team t).filter fun x => decide (x.2.2.2.num < l.nbuf)).map fun x =>
    let before := sumBy (fun (p : Nat × Nat × BufClass) => p.1) (l.kbufs.take x.2.2.2.num)
    (x.1, x.2.1, x.2.2.1, x.2.2.2, (x.1 * l.bufBytes + before) / 1024)

/-- What an image keeps of a buffer (R124). -/
def Core.imageRows (k : Core) (now : Nat) (b : Buf) (first : Nat) : List SavedRow :=
  (List.range b.rows).map fun i =>
    let r := k.row (b.base + i)
    if r.st = .never then .never
    else if r.st = .void ∨ r.expired now (k.keepNs b) = true then .void
    else .copied 0 (first + i) r.poison

/-- Whether a row is dirty for image `j` (R233). -/
def SpRow.dirtyFor (r : SpRow) (j : Nat) : Bool := if j = 0 then r.dirty0 else r.dirty1

def SpRow.cleanFor (r : SpRow) (j : Nat) : SpRow := if j = 0 then { r with dirty0 := false } else { r with dirty1 := false }

/-- The rows of a buffer that a capture into image `j` writes. -/
def Core.dirtyRows (k : Core) (j : Nat) (b : Buf) (first : Nat) : List (Nat × List Marked) :=
  ((List.range b.rows).filter fun i => (k.row (b.base + i)).dirtyFor j).map fun i =>
    (first + i, (k.row (b.base + i)).marked)

/-- A team as its image keeps it: its RETIRING groups, which the image does not hold, have retired (R124, R337). -/
def State.imageTeam (s : State) (team : Nat) (t : Team) : Team :=
  ((s.groupsOf team).filter fun p => p.2.st == .retiring).foldl (fun (t : Team) p => t.retireFrom p.2) t

/-- Capture a team into its older image and mark that image current (R124, R443, R444). -/
def State.capture (s : State) (team : Nat) (t : Team) (l : Launch) : Got Unit :=
  let a := t.agent
  let c := s.ctx t.ctx
  let slot := c.snapBase + t.snapSlot
  (s.readCur a t true).bind fun cur s =>
    let j := if cur = 0 then 1 else 0
    let img := slot + 0x1000 + j * l.imgSize t.cores.length
    let gs : List (Nat × Group) := (s.membersOn t).map fun p => (p.1, p.2.2.afterCkpt)
    let leaders := gs.filter fun (p : Nat × Group) => ! p.2.shadow
    let bufs := s.imageBufs team t l
    let rows := bufs.flatMap fun x => (s.core x.2.1).dirtyRows j x.2.2.2.1 x.2.2.2.2
    let kept := bufs.map fun x =>
      (⟨x.1, x.2.2.1, x.2.2.2.1, (s.core x.2.1).imageRows s.time x.2.2.2.1 x.2.2.2.2, none⟩ : SavedBuf)
    let ms := (List.range t.members.length).map fun k =>
      match gs.find? fun (p : Nat × Group) => p.1 == k with
      | some p => if p.2.st = .retiring then Member.retired else .off p.2.rest
      | none => .retired
    (s.putPlain a img ((s.imageTeam team t).record (leaders.map (·.2)))).bind fun _ s =>
      (Got.each (fun (p : Nat × Group) (s : State) =>
        (s.putPlain a (img + 4160 + 16960 * p.2.num) p.2.saveRecord).of p.2.num)
        (leaders.filter fun p => p.2.st != .retiring) s).bind fun _ s =>
        (Got.each (fun (p : Nat × List Marked) (s : State) =>
          s.putMarked a (img + 4160 + 16960 * l.teamSize + 1024 * p.1) p.2) rows s).bind fun _ s =>
          (s.putPlain a (slot + 8 + 8 * j) (toBytes 8 s.time)).bind fun _ s =>
            (s.putPlain a slot (toBytes 8 j)).bind fun _ s =>
              let s := bufs.foldl (fun (s : State) (x : Nat × Nat × Nat × Buf × Nat) => s.modCore x.2.1 fun k =>
                { k with sp := k.sp.map fun (p : Nat × SpRow) =>
                    if x.2.2.2.1.base ≤ p.1 ∧ p.1 < x.2.2.2.1.base + x.2.2.2.1.rows then (p.1, p.2.cleanFor j) else p }) s
              .ok () (s.modTeam team fun t =>
                { t with safe := true, captured := s.time, images := t.images.put j ⟨ms, kept⟩ })

/-- The groups of a team wait at CKPT: all go on, the issuing one last (R123). -/
def State.passCkpt (s : State) (f : CXN) (others : List (Nat × Group)) : State :=
  others.foldl (fun (s : State) p =>
    match p.2.clause with
    | some c => s.finish p.1 (.ckpt f) {} c {} .none none
    | none => s) s

/-- CKPT (R123, R124). -/
def execCkpt (f : CXN) (s : State) : Host.Outcome State Fault Refusal :=
  issue (.ckpt f) {} (fun e s =>
    if ! e.launch.snap then .done {} s
    else if e.g.hmode then .trap (e.barx 3) s
    else
      let others := (s.groupsOf e.g.team).filter fun p => p.1 != e.gid && p.2.st != .retiring
      if ! others.all fun p => p.2.waitsFor .ckpt then .wait .ckpt 0 0 s
      else if s.time - e.team.captured < e.launch.period then .done {} (s.passCkpt f others)
      else if ! s.opsDone e.g.team then .wait .ckpt 0 0 s
      else
        match s.capture e.g.team e.team e.launch with
        | .ok _ s => .done {} (s.passCkpt f others)
        | .fail g c s => .wait .ckpt 0 0 (s.areaFault e.g.team g c)
        | .held => .wait .ckpt 0 0 s) s

end Sys2Proof.Machine
end

