-- ==== Sys2Proof/Machine/Place.lean ====
section
/-! DEFINITION. Where teams can stand (R147, R148, R158, R229, R253, R254), and whom a priority-0 team displaces (R136). -/

namespace Sys2Proof.Machine

open Sys2Proof

/-! ## What a team needs (R147) -/

/-- Gmax (R147). -/
def Launch.gmax (l : Launch) : Nat :=
  let lim := if l.redundant then 64 else 128
  if l.rmin = 0 then lim else min lim ((6144 - (l.rmax - l.rmin)) / l.rmin)

/-- c, the cores of a team (R147). -/
def Launch.coreCount (l : Launch) : Nat := ceilDiv l.teamSize l.gmax

/-- G, the groups on each core (R147). -/
def Launch.perCore (l : Launch) : Nat := ceilDiv l.teamSize l.coreCount

/-- NTEAMS (R141). -/
def Launch.nteams (l : Launch) : Nat := field l.record 0x30 4

/-- What a team needs on one of its cores: groups, buffers by their rows in the order of allocation, and rows of the register
pool. -/
structure Need where
  groups : Nat
  rows : List Nat
  regs : Nat
  deriving DecidableEq, Repr

/-- The needs of a new team, by team core (R147, R148). -/
def Launch.needs (l : Launch) : List Need :=
  (List.range l.coreCount).map fun j =>
    let n := min l.perCore (l.teamSize - l.perCore * j)
    ⟨n, l.kbufs.map fun p => p.1 / 1024, (if l.redundant then 2 * n else n) * l.rmin⟩

/-- The members of a team that come back, and its buffers: those of a save or of the image it rolls back to. -/
def Team.coming (t : Team) (cur : Nat) : List Member × List SavedBuf :=
  if t.st = .saved .rollback then
    let i := t.images.findD cur ⟨[], []⟩
    (i.members, i.bufs)
  else (t.members, t.bufs)

/-- The numbers of the members that come back. -/
def comingKeys (ms : List Member) : List Nat :=
  (List.range ms.length).filter fun k => match ms.getD k .retired with
    | .off _ => true
    | _ => false

/-- The needs of a saved team, whose members `rows` says to have so many rows (R111). -/
def Team.backNeeds (t : Team) (l : Launch) (cur : Nat) (rows : Tbl Nat) : List Need :=
  let (ms, bufs) := t.coming cur
  let keys := comingKeys ms
  let nums := (keys.map fun k => k % l.teamSize).eraseDups
  (List.range t.cores.length).map fun j =>
    ⟨(nums.filter fun n => n / t.per == j).length,
      (bufs.filter fun b => b.tcore == j && b.place.isNone).map fun b => b.buf.rows,
      sumBy (fun k => if k % l.teamSize / t.per = j then max l.rmin (rows.findD k 0) else 0) keys⟩

/-! ## One core (R19, R147, R158, R228, R229) -/

/-- Whether a core can take further buffers of the given sizes in order (R228, R229). -/
def Core.takes (c : Core) : List Nat → Bool
  | [] => true
  | n :: t =>
    match c.place n with
    | .at id base =>
      let b : Buf :=
        { base := base, rows := n, tag := 0, cls := .drop, team := 0, num := 0, gen := 0, circ := none, parked := false }
      Core.takes { c with bufs := c.bufs.put id b } t
    | _ => false

/-- Whether a core is out of use (R19, R437). -/
def State.coreGone (s : State) (core : Nat) : Bool := s.bankGone ⟨.core, core⟩

/-- The slots of a core that a leading group may take: free ones, under REDUNDANT those below 64 whose shadow's slot is
free too (R119, R147). -/
def State.openSlots (s : State) (keep : Nat → Bool) (l : Launch) (core : Nat) : List Nat :=
  let free := fun slot => match s.groups.find (128 * core + slot) with
    | some g => ! keep g.team
    | none => true
  if l.redundant then (List.range 64).filter fun k => free k && free (twinOf (128 * core + k) % 128)
  else (List.range 128).filter free

/-- Whether a core can take what a team needs there, counting the teams that `keep` keeps: slots, reservations with their
pool room, rows that are free now, and buffers (R111, R147, R158). -/
def State.fits (s : State) (keep : Nat → Bool) (avoid : List Nat) (l : Launch) (core : Nat) (n : Need) : Bool :=
  if avoid.contains core || s.coreGone core then false
  else if n.groups = 0 ∧ n.rows = [] then true
  else
    let m := if l.redundant then 2 * n.groups else n.groups
    let gs := (s.groupsOn core).filter fun p => keep p.2.team
    let held := sumBy (fun (p : Nat × Group) => s.rminOf p.2) gs
    let used := sumBy (fun (p : Nat × Group) => max (s.rminOf p.2) p.2.held) gs
    let d := gs.foldl (fun (d : Nat) (p : Nat × Group) => max d (s.rmaxOf p.2 - s.rminOf p.2)) (l.rmax - l.rmin)
    let c := s.core core
    decide (n.groups ≤ (s.openSlots keep l core).length) && decide (held + m * l.rmin + d ≤ 6144)
      && decide (used + n.regs ≤ 6144)
      && Core.takes { c with bufs := c.bufs.filter fun p => keep p.2.team } n.rows

/-! ## Sets of cores (R147, R254) -/

/-- The sublists of `k` elements, in lexicographic order. -/
def combos : List Nat → Nat → List (List Nat)
  | _, 0 => [[]]
  | [], _ + 1 => []
  | x :: t, k + 1 => (combos t k).map (x :: ·) ++ combos t (k + 1)

/-- Lexicographic order. -/
def lexLt : List Nat → List Nat → Bool
  | [], _ => false
  | _ :: _, [] => false
  | a :: x, b :: y => decide (a < b) || (a == b && lexLt x y)

/-- Insert a set into a list of sets in order, once. -/
def insertLex (x : List Nat) : List (List Nat) → List (List Nat)
  | [] => [x]
  | y :: t => if x = y then y :: t else if lexLt x y then x :: y :: t else y :: insertLex x t

/-- Adjacent clusters of a tower (R147). -/
def adjacent (a b : Nat) : Bool :=
  (b == a + 1 && a % 4 != 3) || (a == b + 1 && b % 4 != 3) || b == a + 4 || a == b + 4

/-- The cores of a cluster of a tower. -/
def clusterCores (tower a : Nat) : List Nat := (List.range 8).map fun k => 96 * tower + 8 * a + k

/-- The sets of `c` cores that a team may take, in the order of R147. -/
def coreSets (tower c : Nat) : List (List Nat) :=
  if c ≤ 8 then (List.range 12).flatMap fun a => combos (clusterCores tower a) c
  else if c > 16 then []
  else
    ((List.range 12).flatMap fun a => ((List.range 12).filter (adjacent a)).flatMap fun b =>
      (combos (clusterCores tower b) (c - 8)).map fun x =>
        if a < b then clusterCores tower a ++ x else x ++ clusterCores tower a).foldr insertLex []

/-- The layouts of a port launch, one for each cl0 that R254 allows: the cores of each team. -/
def Launch.portLayouts (l : Launch) : List (List (List Nat)) :=
  let c := l.coreCount
  let nt := l.nteams
  let across := bit l.portMask 6
  if ! (c == 1 || c == 2 || c == 4 || c == 8 || c == 16 || (nt == 1 && c ≤ 16)) || (across && nt % 2 == 1) then []
  else
    let per := if across then nt / 2 else nt
    let n := ceilDiv (per * c) 8
    if n > 12 then []
    else
      ((List.range 12).filter fun cl0 => if n ≤ 4 then decide (cl0 % 4 + n ≤ 4) else decide (cl0 % 4 = 0 ∧ cl0 + n ≤ 12)).map
        fun cl0 => (List.range nt).map fun t =>
          let tower := if t < per then l.tower else l.tower ^^^ 1
          (List.range c).map fun j =>
            let k := t % per * c + j
            96 * tower + 8 * (cl0 + k / 8) + k % 8

/-- What is to be placed: for a launch, the needs of its teams and the placements by shape, in order; an ordinary launch
places one team, a port launch all of its teams, by number. -/
structure Want where
  l : Launch
  needs : List (List Need)
  layouts : List (List (List Nat))

/-- Every placement of a launch by its shape, in order (R147, R254). -/
def Launch.layouts (l : Launch) : List (List (List Nat)) :=
  if l.portMask = 0 then (coreSets l.tower l.coreCount).map fun x => [x] else l.portLayouts

/-- A new team, or all teams of a port launch. -/
def Launch.want (l : Launch) : Want :=
  { l := l, needs := if l.portMask = 0 then [l.needs] else List.replicate l.nteams l.needs, layouts := l.layouts }

/-- Whether a placement holds the teams' needs. -/
def State.layoutFits (s : State) (keep : Nat → Bool) (avoid : List Nat) (w : Want) (lay : List (List Nat)) : Bool :=
  (lay.zip w.needs).all fun p => (p.1.zip p.2).all fun q => s.fits keep avoid w.l q.1 q.2

/-- The placements that hold the teams' needs, in order. -/
def State.placements (s : State) (keep : Nat → Bool) (avoid : List Nat) (w : Want) : List (List (List Nat)) :=
  w.layouts.filter (s.layoutFits keep avoid w)

def keepAll : Nat → Bool := fun _ => true
def keepNone : Nat → Bool := fun _ => false

/-! ## Room made by others (R136, R458) -/

/-- The priority of a team. -/
def State.prioOf (s : State) (team : Nat) : Nat := (((s.teams.find team).bind s.launchOf).map (·.prio)).getD 0

/-- Whether a team is off the cores in a PARKED context. -/
def State.reclaimable (s : State) (team : Nat) : Bool :=
  match s.teams.find team with
  | some t => ! t.onCores && (s.ctx t.ctx).st == .parked
  | none => false

/-- What stands in the way of a priority-0 placement: only priority-0 teams, besides fenced cores and the footprints of
others (R136). -/
def State.obstacle (s : State) (team : Nat) : Bool := s.prioOf team == 0

/-- Whether a team stands on the cores and is not on its way out. -/
def State.stays (s : State) (team : Nat) : Bool :=
  match s.teams.find team with
  | some t => t.st == .running || t.st == .prologue
  | none => false

/-- The teams of priorities 1 to 3 on some cores, in the order in which they are chosen as victims (R136). -/
def State.victimOrder (s : State) (cores : List Nat) : List Nat :=
  let ts := s.teams.filter fun p => s.stays p.1 && s.prioOf p.1 != 0 && p.2.cores.any cores.contains
  let key := fun (p : Nat × Team) => (3 - s.prioOf p.1) * 2 ^ 200 + (2 ^ 100 - 1 - p.2.placedAt) * 2 ^ 100 + (2 ^ 100 - 1 - p.2.order)
  (sortBy key ts).map (·.1)

/-- The teams that leave with a team (R256). -/
def State.together (s : State) (team : Nat) : List Nat :=
  match (s.teams.find team).bind fun t => (s.launchOf t).map fun l => (t.launch, l) with
  | none => [team]
  | some (n, l) => if l.portMask = 0 then [team] else ((s.teams.filter fun p => p.2.launch == n).map (·.1)).filter s.stays

/-- The teams that are still there once some have left. -/
def State.keepBut (s : State) (gone : List Nat) (team : Nat) : Bool := s.obstacle team || (s.stays team && ! gone.contains team)

/-- Whether a team stands on a core of a placement that does not fit yet. -/
def State.inTheWay (s : State) (w : Want) (avoid : List Nat) (lay : List (List Nat)) (gone : List Nat) (v : Nat) : Bool :=
  let cores := ((s.teams.find v).map (·.cores)).getD []
  (lay.zip w.needs).any fun p => (p.1.zip p.2).any fun q =>
    cores.contains q.1 && ! s.fits (s.keepBut gone) avoid w.l q.1 q.2

/-- The victims that make a placement fit, taken one at a time, each on a core that does not fit yet; none if it does not come
to fit (R136). -/
def State.victimsFrom (s : State) (w : Want) (avoid : List Nat) (lay : List (List Nat)) :
    List Nat → List Nat → Option (List Nat)
  | [], gone => if s.layoutFits (s.keepBut gone) avoid w lay then some gone else none
  | v :: t, gone =>
    if s.layoutFits (s.keepBut gone) avoid w lay then some gone
    else s.victimsFrom w avoid lay t
      (if gone.contains v ∨ ! s.inTheWay w avoid lay gone v then gone else gone ++ s.together v)

/-- Victims without those that need not leave: the last chosen is spared first (R136). -/
def State.spare (s : State) (w : Want) (avoid : List Nat) (lay : List (List Nat)) (gone : List Nat) : List Nat :=
  gone.reverse.foldl (fun (g : List Nat) v =>
    let less := g.filter fun x => ! (s.together v).contains x
    if s.layoutFits (s.keepBut less) avoid w lay then less else g) gone

/-- The bytes of SAVE buffers that teams hold on a core. -/
def State.saveBytes (s : State) (core : Nat) (teams : List Nat) : Nat :=
  sumBy (fun (p : Nat × Buf) => if p.2.cls = .save ∧ teams.contains p.2.team then 1024 * p.2.rows else 0) (s.core core).bufs

/-- The victims that make a placement fit, if they hold no more than 1 MiB of SAVE buffers on any of its cores (R136). -/
def State.victims (s : State) (w : Want) (avoid : List Nat) (lay : List (List Nat)) : Option (List Nat) :=
  match s.victimsFrom w avoid lay (s.victimOrder lay.flatten) [] with
  | none => none
  | some vs =>
    let vs := s.spare w avoid lay vs
    if lay.flatten.all fun c => decide (s.saveBytes c vs ≤ 1048576) then some vs else none

/-- The first placement of a priority-0 launch that such victims make possible (R136). -/
def State.choose (s : State) (avoid : List Nat) (w : Want) : Option (List (List Nat) × List Nat) :=
  (s.placements s.obstacle avoid w).findSome? fun lay => (s.victims w avoid lay).map fun vs => (lay, vs)

/-- The cores held for other priority-0 launches (R137). -/
def State.heldCores (s : State) (n : Nat) : List Nat :=
  (s.launches.filter fun p => p.1 != n).flatMap fun p => p.2.footprint

/-- Reclaim PARKED contexts with buffers on some cores, longest parked first, until a test holds (R458). -/
def State.reclaimOn (s : State) (cores : List Nat) (ok : State → Bool) : State :=
  let ts := cores.flatMap fun c =>
    ((s.core c).bufs.filter fun p => p.2.parked && s.reclaimable p.2.team).map fun p => p.2.team
  let cs := (ts.filterMap fun n => (s.teams.find n).map (·.ctx)).eraseDups
  (sortBy (fun c => (s.ctx c).parkedSince * 64 + c) cs).foldl (fun s c => if ok s then s else (s.evict c).getD s) s

/-- Reclaim the space of PARKED contexts until a placement fits; the cores it would take are those of the first placement
that ignores their buffers (R458). -/
def State.reclaim (s : State) (avoid : List Nat) (w : Want) : State :=
  match s.placements (fun t => ! s.reclaimable t) avoid w with
  | [] => s
  | lay :: _ => s.reclaimOn lay.flatten fun s => ! (s.placements keepAll avoid w).isEmpty

/-! ## Admission's questions about the tower (R133) -/

/-- Whether the tower as configured holds one team, or all teams of a port launch, with no other team there (R133 check
3). -/
def State.towerHolds (s : State) (l : Launch) : Bool := ! (s.placements keepNone [] l.want).isEmpty

/-- Whether lists of sets hold sets that are disjoint, one of each. -/
def disjointPick : List (List (List Nat)) → List Nat → Bool
  | [], _ => true
  | c :: t, used => c.any fun x => (! x.any used.contains) && disjointPick t (x ++ used)

/-- Whether the footprints of launches fit side by side on a tower (R133 check 4). -/
def State.sideBySide (s : State) (ls : List Launch) : Bool :=
  disjointPick (ls.map fun l => (s.placements keepNone [] l.want).map List.flatten) []

end Sys2Proof.Machine
end

