-- ==== Sys2Proof/Machine/Launches.lean ====
section
/-! DEFINITION. Queues and their records (R127 to R132), admission (R133, R142), and the states and ends of launches (R143
to R145, R149, R153). -/

namespace Sys2Proof.Machine

open Sys2Proof

/-! ## What a front end reads -/

/-- The agent of a front end for a launch. -/
def Launch.agent (l : Launch) (n : Nat) : Agent := { cl := 12 * l.tower, ctx := l.ctx, launch := n }

/-- The agent of a front end for a queue; `n` is the launch that its record makes, 2^64 while it makes none. -/
def Queue.agent (q : Queue) (n : Nat) : Agent := { cl := 12 * q.tower, ctx := q.ctx, launch := n }

/-- Read bytes of one line; what is not translated fails, a page whose home holds it is held. A peer answers the front end
at once (log entry 8). Bytes of poisoned sectors read zero and set CHKIV.POISON (R115, R117). -/
def State.frontPiece (s : State) (a : Agent) (va n : Nat) : Got (List Byte) :=
  if 2 ^ 52 ≤ va then .fail 0 0x10 s
  else
    match s.reach a.cl a.ctx (cfgPriv (s.ctx a.ctx).ctxcfg) .engineRead va n with
    | (.ok pa _, s) =>
      if spaceOf pa = .link then
        if admits (s.window pa) (.load n) then
          let bad := fun j => Config.peerMark (pa + j) s.tick
          .ok ((List.range n).map fun j => if bad j then 0 else Config.peerByte (pa + j) s.tick)
            (if (List.range n).any bad then s.setChkAt a.ctx a.launch chkPoison else s)
        else .fail 0 0x10 s
      else (match s.home 8 pa with
        | .here p =>
          let (bs, s) := s.homeRead p n
          let bad := fun j => s.poisoned (homeKey p + j)
          .ok ((List.range n).map fun j => if bad j then 0 else bs.getD j 0)
            (if (List.range n).any bad then s.setChkAt a.ctx a.launch chkPoison else s)
        | _ => .held)
    | (.held, _) => .held
    | (_, s) => .fail 0 0x10 s

/-- Read bytes of a context. -/
def State.frontGet (s : State) (a : Agent) (va n : Nat) : Got (List Byte) :=
  (Got.each (fun (p : Nat × Nat) (s : State) => s.frontPiece a p.1 p.2) (lineSpans (n / 128 + 2) va n) s).bind fun l s =>
    .ok l.flatten s

/-- Whether every page of a range is translated in a context. -/
def State.translated (s : State) (cl ctx : Nat) : Nat → Nat → Nat → Bool × State
  | 0, _, _ => (true, s)
  | fuel + 1, va, n =>
    if n = 0 then (true, s)
    else if 2 ^ 52 ≤ va then (false, s)
    else
      let m := min n (65536 - va % 65536)
      match s.reach cl ctx (cfgPriv (s.ctx ctx).ctxcfg) .engineRead va m with
      | (.ok _ _, s) => s.translated cl ctx fuel (va + m) (n - m)
      | (.held, s) => s.translated cl ctx fuel (va + m) (n - m)
      | (_, s) => (false, s)

/-! ## Requests about queues (R127 to R129, R457) -/

/-- A queue of the device that is not DESTROYED. -/
def Queue.live (q : Queue) : Bool := q.st != .destroyed

/-- Whether a context admits queues (R127). -/
def Context.admitsQueues (c : Context) : Bool :=
  match c.st with
  | .created | .resident | .parked | .evicted => true
  | _ => false

/-- Whether a launch read from a queue has not ended (R129). -/
def State.queueBusy (s : State) (n : Nat) : Bool := s.launches.any fun p => p.2.q == n && ! p.2.hasEnded

/-- The lowest number of no live queue. -/
def State.freeQueue (s : State) (n : Nat) : Nat :=
  ((List.range n).find? fun k => match s.queues.find k with
    | some q => ! q.live
    | none => true).getD n

/-- Create a queue whose descriptor has passed (R127, R128). -/
def State.makeQueue (s : State) (r : QueueReq) : State :=
  let n := s.freeQueue 1024
  let q : Queue := { ctx := r.ctx, ring := r.ring, logsz := r.logsz, prio := r.prio, tower := r.tower, qcb := r.qcb
                     st := .created, err := 0, head := 0, tail := 0 }
  let s := { s with queues := s.queues.put n q
                    launches := s.launches.map fun (p : Nat × Launch) => if p.2.q = n then (p.1, { p.2 with q := 1024 }) else p }
  let s := s.frontPut r.tower r.ctx (r.qcb + 0x50) (toBytes 8 r.ring ++ toBytes 8 r.logsz)
  (s.setQueue n .created 0).answer .ok (toBytes 4 n)

/-- QUEUE_CREATE (R127). -/
def execQueueCreate (s : State) : Host.Outcome State Fault Refusal :=
  request s fun s =>
    match s.arg.body with
    | .queue r =>
      if r.ctx ≥ 64 then s.answer .badReq
      else if ! (s.ctx r.ctx).admitsQueues then s.answer .badState
      else if (s.queues.filter fun p => p.2.live && p.2.ctx == r.ctx).length ≥ 16
          ∨ (s.queues.filter fun p => p.2.live).length ≥ 1024 then s.answer .tooMany
      else if r.logsz < 4 ∨ 16 < r.logsz ∨ 3 < r.prio ∨ 3 < r.tower ∨ r.ring % 64 ≠ 0 ∨ r.qcb % 128 ≠ 0 then s.answer .badQ
      else
        let n := 64 * 2 ^ r.logsz
        match s.translated (12 * r.tower) r.ctx (n / 65536 + 2) r.ring n with
        | (false, s) => s.answer .badQ
        | (true, s) =>
          match s.translated (12 * r.tower) r.ctx 2 r.qcb 128 with
          | (false, s) => s.answer .badQ
          | (true, s) => s.makeQueue r
    | _ => s

/-- A request about queue `n`: one that does not exist is BADREQ, one whose state lists no such event BADSTATE (R457). -/
def onQueue (s : State) (n : Nat) (f : Queue → State → Option State) : State :=
  match s.queues.find n with
  | none => s.answer .badReq
  | some q => (f q s).getD (s.answer .badState)

/-- A word of a queue control block: not yet while its page is not present (a fault of KIND 3) or held; zero where the
tables refuse the page (DESIGN CHOICE: log entry 88). -/
def State.qcbWord (s : State) (q : Queue) (off : Nat) : Option Nat × State :=
  match s.reach (12 * q.tower) q.ctx (cfgPriv (s.ctx q.ctx).ctxcfg) .engineRead (q.qcb + off) 8 with
  | (.absent pte l3 attr, s) => (none, s.reportFault q.ctx (q.qcb + off) 3 (96 * q.tower) pte l3 attr)
  | (_, s) =>
    match s.frontGet (q.agent (2 ^ 64)) (q.qcb + off) 8 with
    | .ok l s => (some (ofBytes l), s)
    | .fail _ _ s => (some 0, s)
    | .held => (none, s)

/-- QUEUE_ACTIVATE: a CREATED queue becomes ACTIVE; reading starts at HEAD as the driver set it (R128, R129). While HEAD
cannot be read the request has no answer yet, and is made again. -/
def execQueueActivate (s : State) : Host.Outcome State Fault Refusal :=
  request s fun s => onQueue s s.arg.a fun q s =>
    if q.st = .created then
      match s.qcbWord q 0x40 with
      | (none, s) => some s
      | (some h, s) =>
        let s := s.modQueue s.arg.a fun q => { q with head := h, tail := h }
        some ((s.setQueue s.arg.a .active 0).answer .ok)
    else none

/-- QUEUE_SUSPEND (R129). -/
def execQueueSuspend (s : State) : Host.Outcome State Fault Refusal :=
  request s fun s => onQueue s s.arg.a fun q s =>
    if q.st = .active then some ((s.setQueue s.arg.a .suspended q.err).answer .ok) else none

/-- QUEUE_RESUME: reading continues at HEAD once TAIL is observed again, and no record beyond the ring is read (R129,
R457). -/
def execQueueResume (s : State) : Host.Outcome State Fault Refusal :=
  request s fun s => onQueue s s.arg.a fun q s =>
    if q.st = .suspended ∧ (s.ctx q.ctx).st ≠ .faulted then
      some (((s.modQueue s.arg.a fun q => { q with tail := q.head }).setQueue s.arg.a .active 0).answer .ok)
    else none

/-- QUEUE_DESTROY: DRAINING while a launch read from the queue has not ended, DESTROYED otherwise (R129). -/
def execQueueDestroy (s : State) : Host.Outcome State Fault Refusal :=
  request s fun s => onQueue s s.arg.a fun q s =>
    match q.st with
    | .created | .active | .suspended =>
      some ((s.setQueue s.arg.a (if s.queueBusy s.arg.a then .draining else .destroyed) q.err).answer .ok)
    | _ => none

/-- TAIL_OBSERVE: the front end observes TAIL of queue a; OVERRUN and BADTAIL suspend the queue (R129, R131). -/
def execTailObserve (s : State) : Host.Outcome State Fault Refusal :=
  let n := s.arg.a
  match s.queues.find n with
  | none => .next s
  | some q =>
    if q.st ≠ .active then .next s
    else
      match s.frontGet (q.agent (2 ^ 64)) q.qcb 8 with
      | .ok l s =>
        let t := ofBytes l
        let s := s.modQueue n fun q => { q with tail := t }
        if t < q.head then .next ((s.setQueue n .suspended 2).interrupt (.queueError n))
        else if t - q.head > 2 ^ q.logsz then .next ((s.setQueue n .suspended 1).interrupt (.queueError n))
        else .next s
      | .fail _ _ s => .next s
      | .held => .next s

/-! ## The end sequence (R144) -/

/-- STATUS and the detail of a launch block (R143). -/
def Launch.status (l : Launch) : List Byte :=
  toBytes 8 (l.endv + l.reason * 16 + l.info.code % 256 * 256)
    ++ toBytes 4 l.info.team ++ toBytes 2 l.info.group ++ toBytes 1 l.info.lane ++ toBytes 1 l.info.stage
    ++ toBytes 4 l.info.pc.toNat ++ toBytes 2 l.info.part ++ toBytes 1 l.info.pkind ++ [0]
    ++ toBytes 8 l.chkiv.toNat ++ List.replicate 8 0

/-- The bit of SUMMARY for an END; none for COMPLETE (R144). -/
def endFlag (endv : Nat) : Option Nat := if endv = 3 then some 0 else if endv = 2 then some 1 else if endv = 4 then some 2 else none

/-- Where an access of an end sequence goes: a home, a peer, nowhere, or not yet. -/
inductive EndPlace where
  | here (pa : Nat) (e : TlbEntry) | peer (pa : Nat) | stop | wait
  deriving DecidableEq, Repr

/-- The place of `n` bytes of a block; a page that is not present is reported with KIND 3 and the first core of the tower
(R144). -/
def State.endPlace (s : State) (q : EndSeq) (va n : Nat) : EndPlace × State :=
  if 2 ^ 52 ≤ va then (.stop, s)
  else
    match s.reach (q.core / 8) q.ctx (cfgPriv (s.ctx q.ctx).ctxcfg) .engineWrite va n with
    | (.ok pa e, s) =>
      if spaceOf pa = .link then (if admits (s.window pa) .atomic then .peer pa else .stop, s)
      else if s.stackGone pa && spaceOf pa == .hbm then (.stop, s)
      else (match s.home 8 pa with
        | .here _ => .here pa e
        | _ => .wait, s)
    | (.absent pte l3 attr, s) => (.wait, s.reportFault q.ctx va 3 q.core pte l3 attr)
    | (.held, s) => (.wait, s)
    | (_, s) => (.stop, s)

/-- What a sequence gets of an access: a word, no answer yet, or the end of the sequence. -/
inductive EndGot where
  | got (v : Nat) | wait | stop
  deriving DecidableEq, Repr

/-- The sequence's request to the peer that a block lies at: sent once, and answered once its response is there; one that
faults or times out stops the sequence (R144, R416, R424; DEDUCED, log entry 79). -/
def State.endAsk (s : State) (q : EndSeq) (op : PeerOp) (pa n : Nat) : EndGot × State :=
  match s.peers.find? fun (p : Nat × PeerReq) => p.2.kind == .opRead && p.2.owner == q.id && p.2.pa == pa with
  | none => (.wait, (s.sendPeer .opRead op goneGid q.launch q.ctx pa n q.id).2)
  | some (_, r) =>
    if ! r.done then (.wait, s)
    else if r.cause ≠ 0 then (.stop, s)
    else (.got (ofBytes r.value), s.consume q.launch [r])

/-- An atomic on a word of a block: its new value. -/
def State.endAtomic (s : State) (q : EndSeq) (va op : Nat) (b : DWord) : EndGot × State :=
  match s.endPlace q va 8 with
  | (.here pa _, s) =>
    let (old, s) := s.atomHome q.launch pa 8 fun m => atomOp op 8 m b.toNat 0
    (.got (atomOp op 8 old b.toNat 0), s)
  | (.peer pa, s) =>
    (match s.endAsk q (.atomic op b 0) pa 8 with
    | (.got old, s) => (.got (atomOp op 8 old b.toNat 0), s)
    | (r, s) => (r, s))
  | (.stop, s) => (.stop, s)
  | (.wait, s) => (.wait, s)

/-- A block's PARENT. -/
def State.endParent (s : State) (q : EndSeq) : EndGot × State :=
  match s.endPlace q (q.block + 8) 8 with
  | (.here pa _, s) =>
    let (b, s) := s.homeWord q.launch pa
    (.got b, s)
  | (.peer pa, s) => s.endAsk q .read pa 8
  | (.stop, s) => (.stop, s)
  | (.wait, s) => (.wait, s)

/-- Write STATUS and the detail, 40 bytes of one line (R143, R144). -/
def State.putStatus (s : State) (q : EndSeq) (bs : List Byte) : EndGot × State :=
  match s.endPlace q (q.block + 0x18) bs.length with
  | (.here pa e, s) => (.got 0, (s.putHome pa bs).mirrorStore goneGid q.launch q.ctx pa e)
  | (.peer pa, s) => s.endAsk q (.write bs []) pa bs.length
  | (.stop, s) => (.stop, s)
  | (.wait, s) => (.wait, s)

/-- Whether a block can be worked on: all of it can be reached. -/
def State.endReady (s : State) (q : EndSeq) : EndPlace × State :=
  if q.block % 32 ≠ 0 then (.stop, s)
  else
    match s.endPlace q q.block 32 with
    | (.stop, s) => (.stop, s)
    | (.wait, s) => (.wait, s)
    | (p, s) =>
      if q.first then
        match s.endPlace q (q.block + 32) 32 with
        | (.stop, s) => (.stop, s)
        | (.wait, s) => (.wait, s)
        | (_, s) => (p, s)
      else (p, s)

/-- What a step of an end sequence leads to: the next step, the end of the chain, a wait or a stop. -/
inductive EndNext where
  | go (q : EndSeq) | done | wait | stop
  deriving DecidableEq, Repr

/-- What follows an access of an end sequence. -/
def EndGot.then (r : EndGot × State) (f : Nat → EndNext) : EndNext × State :=
  match r with
  | (.got v, s) => (f v, s)
  | (.wait, s) => (.wait, s)
  | (.stop, s) => (.stop, s)

/-- One step of an end sequence: STATUS or the flag of SUMMARY is written, SIG is decremented, PARENT is followed. Each step
begins once the one before it has been performed (R144). -/
def State.endStep (s : State) (q : EndSeq) (l : Launch) : EndNext × State :=
  match q.phase with
  | 0 =>
    (match s.endReady q with
    | (.stop, s) => (.stop, s)
    | (.wait, s) => (.wait, s)
    | (_, s) =>
      let next := fun (_ : Nat) => EndNext.go { q with phase := 1 }
      if q.first then EndGot.then (s.putStatus q l.status) next
      else match q.flag with
        | some b => EndGot.then (s.endAtomic q (q.block + 0x18) 0x0F (BitVec.ofNat 64 (2 ^ b))) next
        | none => (next 0, s))
  | 1 => EndGot.then (s.endAtomic q q.block 0x09 (BitVec.ofInt 64 (-1))) fun v => if v = 0 then .go { q with phase := 2 } else .done
  | _ => EndGot.then (s.endParent q) fun b => if b = 0 then .done else .go { q with block := b, first := false, phase := 0 }

/-- Run an end sequence from where it is; the number bounds the steps done at once. A block whose page is not present or held,
or whose peer has not answered, makes it wait; where it stops, the service cores log the block (R144). -/
def State.runEnd (s : State) (q : EndSeq) (l : Launch) : Nat → State
  | 0 => { s with ends := s.ends ++ [q] }
  | k + 1 =>
    match s.endStep q l with
    | (.stop, s) => { s.dropReads q.id with svcLog := .endBlock q.block :: s.svcLog }
    | (.wait, s) => { s with ends := s.ends ++ [q] }
    | (.done, s) => s.dropReads q.id
    | (.go q', s) => (if q'.block = q.block then s else s.dropReads q.id).runEnd q' l k

/-- The sequences that wait go on. -/
def State.rerunEnds (s : State) : State :=
  s.ends.foldl (fun (s : State) q =>
    match s.launches.find q.launch with
    | some l => s.runEnd q l 3072
    | none => s) { s with ends := [] }

/-! ## Ends of launches (R115, R129, R145) -/

/-- LBLK of a record (R141). -/
def Launch.lblk (l : Launch) : Nat := field l.record 0x10 8

/-- The state that an END names. -/
def endState (endv : Nat) : LaunchSt := if endv = 1 then .complete else if endv = 2 then .cancelled else if endv = 3 then .faulted else .refused

/-- A DRAINING queue whose last launch has ended becomes DESTROYED (R129). -/
def State.reapDraining (s : State) (n : Nat) : State :=
  match s.queues.find n with
  | some q => if q.st = .draining ∧ ! s.queueBusy n then s.setQueue n .destroyed q.err else s
  | none => s

/-- A launch ends: its CHKIV takes the context's accumulator, its end sequence runs, its queue may be drained (R115, R144,
R145). -/
def State.endLaunch (s : State) (n : Nat) : State :=
  match s.launches.find n with
  | none => s
  | some l =>
    let l := { l with st := endState l.endv, chkiv := l.chkiv ||| (s.ctx l.ctx).chkAcc, footprint := [] }
    let s := (s.modLaunch n fun _ => l).modCtx l.ctx fun c => { c with chkAcc := 0 }
    let s := if l.lblk = 0 then s else
      let (id, s) := s.gensym
      s.runEnd { ctx := l.ctx, core := 96 * l.tower, launch := n, block := l.lblk, first := true, flag := endFlag l.endv
                 id := id, phase := 0 } l 3072
    s.reapDraining l.q

/-- End a launch that was only submitted (R133, R145). -/
def State.endSubmitted (s : State) (n endv reason : Nat) : State :=
  (s.modLaunch n fun l => { l with endv := endv, reason := reason }).endLaunch n

/-- Whether a block or one above it is cancelled; the number bounds the blocks looked at (R145, R153). -/
def State.chainCancelled (s : State) (a : Agent) : Nat → Nat → Bool
  | 0, _ => false
  | k + 1, b =>
    if b = 0 ∨ b % 32 ≠ 0 then false
    else
      match s.frontGet a b 32 with
      | .ok l s => bit (field l 0x10 8) 0 || s.chainCancelled a k (field l 8 8)
      | _ => false

/-- Whether a launch is cancelled by its block or one above it. -/
def State.isCancelled (s : State) (n : Nat) (l : Launch) : Bool := s.chainCancelled (l.agent n) 1024 l.lblk

/-- No detail of a launch that did not fault. -/
def noDetail : FaultInfo := { noInfo with pc := 0 }

/-- A launch as its record is read (R132, R145). -/
def newLaunch (n : Nat) (q : Queue) (rec_ : List Byte) : Launch :=
  { q := n, ctx := q.ctx, tower := q.tower, prio := q.prio, record := rec_, desc := [], args := [], sq := [], st := .submitted
    endv := 0, reason := 0, info := noDetail, chkiv := 0, spoor := 0, order := 0, placed := [], ended := [], footprint := []
    grid := [], drainAt := 0 }

/-- RECORD_READ: the front end reads the next record of queue a, moves HEAD, and the launch is SUBMITTED; under a cancelled
block it ends at once (R132, R145, R153). -/
def execRecordRead (s : State) : Host.Outcome State Fault Refusal :=
  let n := s.arg.a
  match s.queues.find n with
  | none => .next s
  | some q =>
    if q.st ≠ .active ∨ q.tail ≤ q.head then .next s
    else
      let (id, s) := s.gensym
      match s.frontGet (q.agent id) (q.ring + 64 * (q.head % 2 ^ q.logsz)) 64 with
      | .held => .next s
      | r =>
        let (rec_, s) : List Byte × State := match r with
          | .ok l s => (l, s)
          | .fail _ _ s => (List.replicate 64 0, s)
          | .held => ([], s)
        let s := { s with launches := s.launches.put id (newLaunch n q rec_) }
        let s := (s.modQueue n fun q => { q with head := q.head + 1 }).frontPut q.tower q.ctx (q.qcb + 0x40) (toBytes 8 (q.head + 1))
        match s.launches.find id with
        | some l => .next (if s.isCancelled id l then s.endSubmitted id 2 0 else s)
        | none => .next s

/-! ## Well-formed records (R139 to R142) -/

/-- NBIND, NSTAGE, and the stage table (R139, R140). -/
def Launch.nbind (l : Launch) : Nat := field l.desc 0x14 1
def Launch.nstage (l : Launch) : Nat := field l.desc 0x13 1
def Launch.entry (l : Launch) (k : Nat) : Word := BitVec.ofNat 32 (field l.desc (0xA0 + 8 * k) 4)
def Launch.inq (l : Launch) (k : Nat) : Nat := field l.desc (0xA4 + 8 * k) 1
def Launch.outq (l : Launch) (k : Nat) : Nat := field l.desc (0xA5 + 8 * k) 1
def Launch.maxt (l : Launch) (k : Nat) : Nat := field l.desc (0xA6 + 8 * k) 2

/-- DEP0 and DEP1 (R141). -/
def Launch.deps (l : Launch) : List Nat := [field l.record 0x18 8, field l.record 0x20 8].filter (· ≠ 0)

/-- Whether bytes are all zero. -/
def zeroBytes (l : List Byte) (off n : Nat) : Bool := (sliceBytes l off n).all (· = 0)

/-- The record's own fields (R141, R142). -/
def recordOk (r : List Byte) : Bool :=
  field r 0x37 1 == 1 && field r 0 8 % 256 == 0 && field r 0x10 8 % 64 == 0 && field r 0x18 8 % 8 == 0 && field r 0x20 8 % 8 == 0
    && field r 0x28 8 % 8 == 0 && decide (1 ≤ field r 0x30 4 ∧ field r 0x30 4 ≤ 16777216) && decide (field r 0x34 2 < 8)
    && decide (field r 0x36 1 ≤ 100)

/-- An entry of the buffer table (R140). -/
def bufferOk (d : List Byte) (k : Nat) : Bool :=
  let o := 0x20 + 16 * k
  let n := field d o 4
  decide (1024 ≤ n ∧ n ≤ 2097152) && n % 1024 == 0 && decide (1 ≤ field d (o + 4) 4) && decide (field d (o + 8) 1 ≤ 2)
    && zeroBytes d (o + 9) 7

/-- An entry of the stage table (R140, R142). -/
def stageOk (d : List Byte) (k : Nat) : Bool :=
  let i := field d (0xA4 + 8 * k) 1
  let o := field d (0xA5 + 8 * k) 1
  decide (i < 8 ∨ i = 255) && decide (o < 8 ∨ o = 255) && ((k == 0) == (i == 255))

/-- The descriptor's fields (R139, R140, R142). -/
def descOk (d : List Byte) : Bool :=
  let b := fun o => field d o 1
  let nb := b 0x12
  let ns := b 0x13
  let nt := b 0x14
  let qs := fun o => ((List.range ns).map fun k => b (o + 8 * k)).filter (· ≠ 255)
  field d 0 4 == 1 && zeroBytes d 4 4 && decide (b 0xC ≤ b 0xD ∧ b 0xD ≤ 64) && decide (b 0xE ≤ 64) && bits (b 0xF) 6 3 == 0
    && decide (1 ≤ field d 0x10 2 ∧ field d 0x10 2 ≤ 2048) && decide (nb ≤ 8) && decide (1 ≤ ns ∧ ns ≤ 8) && decide (nt ≤ 8)
    && decide (b 0x15 < 128) && zeroBytes d 0x16 10
    && ((List.range nb).all (bufferOk d)) && zeroBytes d (0x20 + 16 * nb) (128 - 16 * nb)
    && decide (sumBy (fun k => field d (0x20 + 16 * k) 4) (List.range nb) ≤ 2097152)
    && ((List.range ns).all (stageOk d)) && zeroBytes d (0xA0 + 8 * ns) (64 - 8 * ns)
    && decide ((qs 0xA4).eraseDups.length = (qs 0xA4).length) && decide ((qs 0xA5).eraseDups.length = (qs 0xA5).length)
    && ((List.range nt).all fun k => decide (b (0xE0 + 4 * k) < nb) && b (0xE1 + 4 * k) == 0)
    && zeroBytes d (0xE0 + 4 * nt) (32 - 4 * nt) && (decide (ns = 1) || b 0x15 == 0)

/-- The stage queues that a descriptor names. -/
def namedQueues (d : List Byte) : List Nat :=
  (((List.range (field d 0x13 1)).flatMap fun k => [field d (0xA4 + 8 * k) 1, field d (0xA5 + 8 * k) 1]).filter (· ≠ 255)).eraseDups

/-- A stage-queue block as software leaves it (R149). -/
def blockOk (l : List Byte) : Bool :=
  decide (4 ≤ field l 0 1 ∧ field l 0 1 ≤ 20) && zeroBytes l 1 3 && decide (field l 4 4 < 2 ^ field l 0 1) && field l 8 8 % 8 == 0
    && zeroBytes l 0x10 112

/-- Reading a record's blocks: the descriptor, the arguments and the stage-queue blocks, or none if it is not well formed
(R142). -/
def State.readLaunch (s : State) (n : Nat) (l : Launch) : Got (Option (List Byte × List DWord × List Nat)) :=
  let a := l.agent n
  let r := l.record
  let bad := fun (x : Got (Option (List Byte × List DWord × List Nat))) => match x with
    | .fail _ _ s => Got.ok none s
    | x => x
  let sqtab := field r 0x28 8
  bad (if ! recordOk r then .ok none s
  else
    let touch := fun (va n : Nat) (s : State) => if va = 0 then Got.ok [] s else s.frontGet a va n
    (touch l.lblk 64 s).bind fun _ s => (Got.each (fun d s => touch d 8 s) l.deps s).bind fun _ s =>
      (s.frontGet a (field r 0 8) 256).bind fun d s =>
        if ! descOk d then .ok none s
        else
          let ns := field d 0xE 1
          let args := field r 8 8
          if ns ≠ 0 ∧ args % 8 ≠ 0 then .ok none s
          else
            (if ns = 0 then Got.ok [] s else s.frontGet a args (8 * ns)).bind fun av s =>
              (touch sqtab 64 s).bind fun tab s =>
                let sq := (List.range 8).map fun k => field tab (8 * k) 8
                let named := (namedQueues d).map fun k => sq.getD k 0
                if named.any fun va => decide (va = 0 ∨ va % 128 ≠ 0) then .ok none s
                else
                  (Got.each (fun va (s : State) => s.frontGet a va 128) named s).bind fun bs s =>
                    .ok (if bs.all blockOk then
                      some (d, (List.range ns).map fun k => BitVec.ofNat 64 (field av (8 * k) 8), sq) else none) s)

/-! ## Admission (R133, R137, R145) -/

/-- Save-area slots that a team needs (R110): its record, its members' and its row slots. -/
def Launch.slotsNeeded (l : Launch) : Nat :=
  1 + (if l.redundant then 2 else 1) * l.teamSize + l.coreCount * l.rowSlots

/-- Whether the tower and the areas of the context can hold a team (R133, R443). -/
def State.couldHold (s : State) (l : Launch) : Bool :=
  let c := s.ctx l.ctx
  decide (l.coreCount ≤ 16) && decide (l.slotsNeeded * (if l.portMask = 0 then 1 else l.nteams) ≤ c.saveSize / slotSize)
    && (! l.snap || decide (l.snapSize l.coreCount * (if l.portMask = 0 then 1 else l.nteams) ≤ c.snapSize)) && s.towerHolds l

/-- Admitted launches of priority 0 of a tower that have not ended; one that the paired tower serves does not count here,
though its placements may cross into this tower (DESIGN CHOICE: log entry 89). -/
def State.topLaunches (s : State) (tower : Nat) : List Launch :=
  (s.launches.filter fun p => p.2.tower == tower && p.2.prio == 0 && ! p.2.hasEnded && p.2.st != .submitted).map (·.2)

/-- The refusal reason of a well-formed record, 0 if it is admitted (R133). -/
def State.refusal (s : State) (n : Nat) (l : Launch) : Nat :=
  let prof := field l.desc 0xF 1
  if bit prof 7 && decide (prof % 8 ≠ (s.ctx l.ctx).profile) then 5
  else if ! s.couldHold l then 2
  else if l.prio ≠ 0 then 0
  else if ! s.sideBySide (l :: s.topLaunches l.tower) then 3
  else if (s.choose (s.heldCores n) l.want).isNone then 4
  else 0

/-- Whether the dependences of a launch are met (R145). -/
def State.depsMet (s : State) (n : Nat) (l : Launch) : Bool :=
  l.deps.all fun va =>
    match s.frontGet (l.agent n) va 8 with
    | .ok b _ => decide (signed 64 (ofBytes b) ≤ 0)
    | _ => false

/-- Whether INORDER lets a launch go on (R145). -/
def State.inTurn (s : State) (n : Nat) (l : Launch) : Bool :=
  ! l.inorder || ! s.launches.any fun p => p.1 != n && p.2.q == l.q && p.2.st == .admitted && decide (p.2.order < l.order)

/-- A launch enters DISPATCHING; one of priority 0 holds its footprint from now on (R137, R145), an empty one while no
placement exists (DESIGN CHOICE: log entry 89). The constant caches drop the lines of its context: its LDK reads nothing older than this (R146, R308). -/
def State.enterDispatch (s : State) (n : Nat) : State :=
  match s.launches.find n with
  | none => s
  | some l =>
    let s := s.dropConst l.ctx 0 (2 ^ 52)
    let fp := if l.prio = 0 then ((s.choose (s.heldCores n) l.want).map fun p => p.1.flatten).getD [] else []
    s.modLaunch n fun l => { l with st := .dispatching, footprint := fp }

/-- ADMISSION: the front end decides launch a (R133, R142, R145). -/
def execAdmission (s : State) : Host.Outcome State Fault Refusal :=
  let n := s.arg.a
  match s.launches.find n with
  | none => .next s
  | some l =>
    if l.st ≠ .submitted then .next s
    else if s.isCancelled n l then .next (s.endSubmitted n 2 0)
    else
      match s.readLaunch n l with
      | .held => .next s
      | .fail _ _ s => .next (s.endSubmitted n 4 1)
      | .ok none s => .next (s.endSubmitted n 4 1)
      | .ok (some (d, args, sq)) s =>
        let (o, s) := s.gensym
        let s := s.modLaunch n fun l => { l with desc := d, args := args, sq := sq, order := o }
        let l := { l with desc := d, args := args, sq := sq, order := o }
        let why := s.refusal n l
        if why ≠ 0 then .next (s.endSubmitted n 4 why)
        else
          let s := s.modLaunch n fun l => { l with st := .admitted }
          .next (if l.deps = [] ∧ ! l.inorder then s.enterDispatch n else s)

/-- DEPENDENCE_MET: the dependences of launch a are met, and it enters DISPATCHING (R145). -/
def execDependenceMet (s : State) : Host.Outcome State Fault Refusal :=
  let n := s.arg.a
  match s.launches.find n with
  | none => .next s
  | some l => .next (if l.st = .admitted ∧ s.depsMet n l = true ∧ s.inTurn n l = true then s.enterDispatch n else s)

/-! ## Cancellation and draining (R121, R145, R153) -/

/-- CANCELLATION_OBSERVED: a block at or above the launch block of launch a is cancelled (R145, R153). -/
def execCancellationObserved (s : State) : Host.Outcome State Fault Refusal :=
  let n := s.arg.a
  match s.launches.find n with
  | none => .next s
  | some l =>
    if l.hasEnded || ! s.isCancelled n l then .next s
    else if l.st = .submitted then .next (s.endSubmitted n 2 0)
    else .next (s.drainLaunch n 2 noDetail)

/-- Whether nothing of a launch is on its way any more, mirrored stores apart (R145). -/
def State.drained (s : State) (n : Nat) : Bool :=
  ! (s.teams.any fun p => p.2.launch == n) && ! (s.copies.any fun p => p.2.launch == n)
    && ! (s.cores.any fun p => p.2.log.any fun e => e.launch == n)
    && ! (s.peers.any fun p => p.2.launch == n && (p.2.kind == .posted || p.2.kind == .copyWrite || p.2.kind == .taskWrite))

/-- Every dirty byte of a context goes home (R145, R329). -/
def State.cleanCtx (s : State) (c : Nat) : State :=
  let s := s.l1Cores.foldl (fun (s : State) k => s.cleanL1 k false fun l => l.ctx == c) s
  s.rdcTowers.foldl (fun (s : State) t => s.cleanRdcOf t (some c) fun _ => true) s

/-- LAUNCH_DRAINED: launch a, DRAINING with nothing on its way, ends; mirrored stores that are not acknowledged hold it, and
their time starts now (R121, R145). -/
def execLaunchDrained (s : State) : Host.Outcome State Fault Refusal :=
  let n := s.arg.a
  match s.launches.find n with
  | none => .next s
  | some l =>
    if l.st ≠ .draining ∨ ! s.drained n then .next s
    else
      let s := s.cleanCtx l.ctx
      if s.mirrors.any fun p => p.2.launch == n then
        .next { s with mirrors := s.mirrors.map fun (p : Nat × MirrorReq) =>
          if p.2.launch = n ∧ p.2.since = none then (p.1, { p.2 with since := some s.time }) else p }
      else .next (s.endLaunch n)

/-! ## Stages (R149) -/

/-- The block of a stage queue of a launch with its LOWMARK, while its page can be reached: behind a link aperture, refused by
the tables, not present (a fault of KIND 3) or held it tells nothing, and the queue counts as full and as not closed (DESIGN
CHOICE: log entry 79). -/
def State.stageBlock (s : State) (n : Nat) (l : Launch) (k : Nat) : Option (SqBlock × Nat) × State :=
  let va := l.sq.getD k 0
  match s.reach (12 * l.tower) l.ctx (cfgPriv (s.ctx l.ctx).ctxcfg) .engineRead va 128 with
  | (.ok pa _, s) =>
    if spaceOf pa = .link then (none, s)
    else (match s.home 8 pa with
      | .here _ =>
        let (w, s) := s.homeWord n pa
        let (b, s) := s.sqBlock n pa
        (some (b, w / 2 ^ 32), s)
      | _ => (none, s))
  | (.absent pte l3 attr, s) => (none, s.reportFault l.ctx va 3 (96 * l.tower) pte l3 attr)
  | (_, s) => (none, s)

/-- Teams of a stage on the device. -/
def State.stageTeams (s : State) (n k : Nat) : Nat :=
  (s.teams.filter fun p => p.2.launch == n && p.2.stage == k && p.2.onCores).length

/-- Whether the output queue of a stage has room (R149). -/
def State.outRoom (s : State) (n : Nat) (l : Launch) (k : Nat) : Bool × State :=
  if l.outq k = 255 then (true, s)
  else
    match s.stageBlock n l (l.outq k) with
    | (some (b, _), s) => (decide (b.fill < b.cap), s)
    | (none, s) => (false, s)

/-- Whether stage `k` may have a new team, and the fill and capacity of its input (R149). -/
def State.stageEligible (s : State) (n : Nat) (l : Launch) (k : Nat) : Option (Nat × Nat) × State :=
  if l.ended.contains k ∨ (l.maxt k ≠ 0 ∧ l.maxt k ≤ s.stageTeams n k) then (none, s)
  else
    match s.outRoom n l k with
    | (false, s) => (none, s)
    | (true, s) =>
      if k = 0 then (if l.placed.findD 0 0 < l.nteams then some (0, 1) else none, s)
      else
        match s.stageBlock n l (l.inq k) with
        | (some (b, low), s) => (if b.fill > low ∨ (b.closed = true ∧ b.fill ≠ 0) then some (b.fill, b.cap) else none, s)
        | (none, s) => (none, s)

/-- The stage that has its next team placed: the fullest in proportion, ties to the lower index (R149). -/
def State.nextStage (s : State) (n : Nat) (l : Launch) : Option Nat × State :=
  let (r, s) : List (Nat × Nat × Nat) × State := (List.range l.nstage).foldl (fun (a : List (Nat × Nat × Nat) × State) k =>
    match a.2.stageEligible n l k with
    | (some (x, y), s) => (a.1 ++ [(k, x, y)], s)
    | (none, s) => (a.1, s)) ([], s)
  (r.foldl (fun (b : Option (Nat × Nat × Nat)) c => match b with
    | none => some c
    | some p => if p.2.1 * c.2.2 < c.2.1 * p.2.2 then some c else some p) none |>.map (·.1), s)

/-- Whether stage `k` ends: no team of it is left, and none can start (R149). -/
def State.stageDone (s : State) (n : Nat) (l : Launch) (k : Nat) : Bool × State :=
  if l.ended.contains k ∨ s.teams.any fun p => p.2.launch == n && p.2.stage == k then (false, s)
  else if k = 0 then (decide (l.placed.findD 0 0 = l.nteams), s)
  else
    match s.stageBlock n l (l.inq k) with
    | (some (b, _), s) => (b.closed && b.fill == 0, s)
    | (none, s) => (false, s)

/-- A stage ends: CLOSED of its output queue is set, as soon as its page can be written (R149; log entry 79). -/
def State.endStage (s : State) (n : Nat) (l : Launch) (k : Nat) : State :=
  let s := s.modLaunch n fun l => { l with ended := insertNat k l.ended }
  if l.outq k = 255 then s else s.frontPut l.tower l.ctx (l.sq.getD (l.outq k) 0 + 0x20) (toBytes 8 1)

/-- Stages of a launch end while they can; when all have ended the launch drains as COMPLETE (R145, R149). -/
def State.endStages (s : State) (n : Nat) : Nat → State
  | 0 => s
  | k + 1 =>
    match s.launches.find n with
    | none => s
    | some l =>
      if l.st ≠ .running then s
      else
        let (done, s) : List Nat × State := (List.range l.nstage).foldl (fun (a : List Nat × State) j =>
          match a.2.stageDone n l j with
          | (true, s) => (a.1 ++ [j], s)
          | (false, s) => (a.1, s)) ([], s)
        let s := done.foldl (fun (s : State) j => s.endStage n l j) s
        if (List.range l.nstage).all fun j => l.ended.contains j || done.contains j then s.drainLaunch n 1 noDetail
        else if done = [] then s else s.endStages n k

end Sys2Proof.Machine
end

