-- ==== Sys2Proof/Machine/Dispatcher.lean ====
section
/-! DEFINITION. The dispatcher: starting, pre-empting and restoring teams (R111, R134 to R137, R146 to R150, R256, R369,
R370), and held teams (R105). -/

namespace Sys2Proof.Machine

open Sys2Proof

/-! ## Seats -/

/-- Give the numbers of a team's groups slots: the lowest free one on the team core of each, numbers rising (R147). -/
def State.seats (s : State) (l : Launch) (cores : List Nat) (per : Nat) (nums : List Nat) : List (Nat × Nat) :=
  (nums.foldl (fun (a : List (Nat × Nat) × List Nat) n =>
    let core := cores.getD (n / per) 0
    let slot := ((s.openSlots keepAll l core).find? fun k => ! a.2.contains (128 * core + k)).getD 0
    (a.1 ++ [(n, 128 * core + slot)], (128 * core + slot) :: a.2)) ([], [])).1

/-- The seat of member `k`: its number's, or the shadow's beside it (R119). -/
def seatOf (l : Launch) (seats : List (Nat × Nat)) (k : Nat) : Nat :=
  let gid := ((seats.find? fun p => p.1 == k % l.teamSize).map (·.2)).getD 0
  if k < l.teamSize then gid else twinOf gid

/-! ## A new team (R110, R146, R148) -/

/-- The first free offset of `n` bytes in a snapshot area, in units of 4 KiB (R443). -/
def Context.freeSnap (c : Context) (n : Nat) : Option Nat :=
  ((List.range (c.snapSize / 4096)).map (4096 * ·)).find? fun o =>
    decide (o + n ≤ c.snapSize) && ! c.snapUsed.any fun p => overlaps o n p.1 p.2

/-- Allocate a team's kernel buffers on a core: their handles (R148, R229). -/
def State.giveBuffers (s : State) (team core : Nat) (bs : List (Nat × Nat × BufClass)) : List DWord × State :=
  (List.range bs.length).foldl (fun (a : List DWord × State) k =>
    let b := bs.getD k (0, 0, .drop)
    match (a.2.core core).place (b.1 / 1024) with
    | .at id base =>
      let (x, c) := (a.2.core core).alloc id base (b.1 / 1024) b.2.1 b.2.2 team k
      (a.1 ++ [x.handle id], a.2.setCore core c)
    | _ => a) ([], s)

/-- The scalars of a new group: the arguments, then the handles (R146). -/
def firstScalars (l : Launch) (hs : List DWord) : Tbl DWord :=
  (List.range l.args.length).map (fun k => (k, l.args.getD k 0)) ++ (List.range hs.length).map fun k => (l.nscal + k, hs.getD k 0)

/-- The bindings of a new team, by team core. -/
def Launch.allBinds (l : Launch) : List (Nat × Nat) :=
  (List.range l.coreCount).flatMap fun j => (List.range l.nbind).map fun b => (j, b)

/-- A team as it is placed. -/
def newTeam (n : Nat) (l : Launch) (stage num : Nat) (cores members slots : List Nat) (snap now tick : Nat) : Team :=
  { launch := n, ctx := l.ctx, stage := stage, num := num, st := if l.nbind = 0 then .running else .prologue, cores := cores
    per := l.perCore, members := members.map .on, bars := List.replicate 4 ⟨l.teamSize, 0, false⟩, bcs := []
    slotT := slots.headD 0, slotG := (slots.drop 1).take members.length, slotR := slots.drop (1 + members.length), extraR := []
    bufs := [], safe := true, snapSlot := snap, images := [], captured := now, placedAt := now, order := tick, stoppedAt := 0
    halting := false, fresh := [], dests := [], binds := l.allBinds }

/-! ## The prologue (R369, R370) -/

/-- The address of the chain record of binding `b` (R140, R141). -/
def Launch.chainVa (l : Launch) (b : Nat) : Nat := field l.record 0 8 + 64 * field l.desc (0xE2 + 4 * b) 2

/-- Half of a chain record, read at home for a core of a team: its bytes, the cause code that faults the team, or no answer
yet (R370). -/
def State.chainPart (s : State) (team : Nat) (t : Team) (core va : Nat) : Except (Option Nat) (List Byte) × State :=
  match s.check (clusterOfCore core) t.ctx (cfgPriv (s.ctx t.ctx).ctxcfg) .load va 64 with
  | (.ok pa _, s) =>
    if spaceOf pa = .link then
      if ! admits (s.window pa) (.load 64) then (.error (some 0x15), s)
      else match s.opRead goneGid t.launch t.ctx pa 64 team with
        | (none, s) => (.error none, s)
        | (some r, s) => if r.cause ≠ 0 then (.error (some (r.cause % 256)), s) else (.ok r.value, s.consume t.launch [r])
    else (match s.home 8 pa with
      | .here p =>
        let (bs, s) := s.homeRead p 64
        let bad := fun j => s.poisoned (homeKey p + j)
        (.ok ((List.range 64).map fun j => if bad j then 0 else bs.getD j 0),
          if (List.range 64).any bad then s.setChk t.launch chkPoison else s)
      | _ => (.error none, s))
  | (.trap code _, s) => (.error (some code), s)
  | (.absent pte l3 attr, s) => (.error none, s.reportFault t.ctx va 3 core pte l3 attr)
  | (_, s) => (.error none, s)

/-- A chain record of 128 bytes. -/
def State.bindChain (s : State) (team : Nat) (t : Team) (core va : Nat) : Except (Option Nat) (List Byte) × State :=
  match s.chainPart team t core va with
  | (.error c, s) => (.error c, s)
  | (.ok x, s) =>
    match s.chainPart team t core (va + 64) with
    | (.error c, s) => (.error c, s)
    | (.ok y, s) => (.ok (x ++ y), s)

/-- The operands of a prologue copy, or none if its binding is malformed (R369): source, handle, control word, chain,
pitch, exponents, and the high part of a frame number, which is taken modulo 2^64 (DEDUCED: log entry 90). -/
def Launch.bindOps (l : Launch) (ch : List Byte) (va t j : Nat) (h : DWord) : Option (List DWord) :=
  let step := t * field ch 0x48 8 + j * field ch 0x50 8
  let arg := fun o => ((l.args.getD (field ch o 1) 0)).toNat
  let inm := field ch 3 1
  let xbm := field ch 2 1 == 4
  let d := fun (n : Nat) => BitVec.ofNat 64 n
  if field ch 1 1 = 1 then
    let frame := (field ch 0x58 8 + step) % 2 ^ 64
    some [d (field ch 0x42 2 + frame % 2 ^ 32 * 2 ^ 32), h, 0, d va, 0, 0, d (frame / 2 ^ 32)]
  else if field ch 0x40 1 ≥ l.args.length ∨ (xbm = true ∧ (field ch 0x41 1 ≥ l.args.length ∨ inm = 0 ∨ step % (4 * inm) ≠ 0)) then none
  else some [d (arg 0x40 + step), h, 0, d va, d (field ch 0x44 4), if xbm then d (arg 0x41 + step / (4 * inm)) else 0]

/-- One binding on one team core, whose chain record is read: its copy enters the engine, or a cause faults the team. -/
def State.bindOne (s : State) (team : Nat) (l : Launch) (t : Team) (j b : Nat) (ch : List Byte) : State :=
  let core := t.cores.getD j 0
  let k := field l.desc (0xE0 + 4 * b) 1
  let h : DWord := match (s.core core).bufs.find? fun p => p.2.team == team && p.2.num == k with
    | some (id, x) => x.handle id
    | none => 0
  match l.bindOps ch (l.chainVa b) t.num j h with
  | none => s.faultTeam team 0 0 exitPc 0x11 0 0
  | some ops =>
    let v := xformOps ch ops (towerOfCore core)
    match s.checkXform (clusterOfCore core) t.ctx (cfgPriv (s.ctx t.ctx).ctxcfg) (ctlOf 0) v with
    | (.bad code _, s) => s.faultTeam team 0 0 exitPc code 0 0
    | (_, s) =>
      let c := newCopy goneGid team t.launch t.ctx core 0x32 0 ops ch v.outBytes 0 exitPc
      (s.enterCopy { c with prologue := true } [] [s.kernelEnd core team k 0]).2

/-- The prologue of a team goes on, binding by binding on each team core, as far as the chain records can be read; the number
bounds the bindings. A team that faults has none left (R369, R370). -/
def State.runPrologue (s : State) (team : Nat) : Nat → State
  | 0 => s
  | k + 1 =>
    match s.teams.find team, (s.teams.find team).bind s.launchOf with
    | some t, some l =>
      (match t.binds with
      | [] => s.prologueEnd team
      | (j, b) :: rest =>
        match s.bindChain team t (t.cores.getD j 0) (l.chainVa b) with
        | (.error none, s) => s
        | (.error (some code), s) => s.faultTeam team 0 0 exitPc code 0 0
        | (.ok ch, s) =>
          (((s.dropReads team).modTeam team fun t => { t with binds := rest }).bindOne team l t j b ch).runPrologue team k)
    | _, _ => s

/-- What waits on pages, on homes or on peers goes on: write-backs, writes of the front ends, end sequences, prologues (R144,
R281, R284, R369). -/
def State.goOn (s : State) : State :=
  let s := s.drainHeld.drainFronts.rerunEnds
  (s.teams.filter fun (p : Nat × Team) => p.2.binds != []).foldl
    (fun (s : State) (p : Nat × Team) => s.runPrologue p.1 (p.2.binds.length + 1)) s

/-! ## Starting a team (R146 to R148) -/

/-- The L1 lines of a context leave cores (R146). -/
def State.freshCores (s : State) (ctx : Nat) (cores : List Nat) : State :=
  cores.foldl (fun (s : State) c => s.flushL1 c false fun l => l.ctx == ctx) s

/-- A team's slots in the save and snapshot areas, if they are free (R110, R443). -/
def State.areaSlots (s : State) (l : Launch) : Option (List Nat × Nat) :=
  let c := s.ctx l.ctx
  if c.freeSlots.length < l.slotsNeeded then none
  else if l.snap then (c.freeSnap (l.snapSize l.coreCount)).map fun o => (c.freeSlots.take l.slotsNeeded, o)
  else some (c.freeSlots.take l.slotsNeeded, 2 ^ 64)

/-- The header of a new snapshot slot: no image is current (R443). -/
def State.blankSnap (s : State) (a : Agent) (l : Launch) (o : Nat) : Got (Option Nat) :=
  if ! l.snap then .ok none s
  else
    match s.putPlain a ((s.ctx a.ctx).snapBase + o) (toBytes 8 0xFF ++ List.replicate 4088 0) with
    | .ok _ s => .ok none s
    | .fail _ code s => .ok (some code) s
    | .held => .held

/-- Put a team's groups on its cores (R146, R147). -/
def State.seatGroups (s : State) (team : Nat) (l : Launch) (t : Team) (seats : List (Nat × Nat)) (hs : List (List DWord)) :
    State :=
  let cfg := (s.ctx l.ctx).ctxcfg
  { s with groups := (List.range t.members.length).foldl (fun (m : Tbl Group) k =>
      let num := k % l.teamSize
      let j := num / l.perCore
      let g := newGroup team num j (decide (k ≥ l.teamSize)) (l.entry t.stage) cfg (firstScalars l (hs.getD j [])) s.tick
      m.put (seatOf l seats k) { g with st := if l.nbind = 0 then .ready else .stopped }) s.groups }

/-- The launch of a team that starts: RUNNING, with its numbers of port rows by core (R145, R255). -/
def Launch.started (l : Launch) (stage : Nat) (cores : List Nat) : Launch :=
  { l with
    st := .running, footprint := [], placed := l.placed.put stage (l.placed.findD stage 0 + 1)
    grid := if l.portMask = 0 then l.grid else
      (List.range cores.length).foldl (fun (m : Tbl Nat) j =>
        m.put (cores.getD j 0) (min l.perCore (l.teamSize - l.perCore * j))) l.grid }

/-- Start a team on its cores; held while the home of a page that must be read or written holds it. -/
def State.startTeam (s : State) (n stage : Nat) (cores : List Nat) : Got Unit :=
  match s.launches.find n with
  | none => .held
  | some l =>
    match s.areaSlots l with
    | none => .held
    | some (slots, snap) =>
      let a : Agent := { (l.agent n) with cl := clusterOfCore (cores.headD 0) }
      (s.blankSnap a l snap).bind fun bad s =>
          let (team, s) := s.gensym
          let s := s.freshCores l.ctx cores
          let seats := s.seats l cores l.perCore (List.range l.teamSize)
          let members := (List.range ((if l.redundant then 2 else 1) * l.teamSize)).map (seatOf l seats)
          let (hs, s) : List (List DWord) × State := cores.foldl (fun (x : List (List DWord) × State) c =>
            let (h, s) := x.2.giveBuffers team c l.kbufs
            (x.1 ++ [h], s)) ([], s)
          let t := newTeam n l stage (l.placed.findD stage 0) cores members slots snap s.time s.tick
          let s := { s with teams := s.teams.put team t }
          let s := s.modCtx l.ctx fun c =>
            { c with saveUsed := slots.foldl (fun (u : List Nat) k => insertNat k u) c.saveUsed
                     snapUsed := if l.snap then (snap, l.snapSize l.coreCount) :: c.snapUsed else c.snapUsed }
          let s := s.seatGroups team l t seats hs
          let s := (s.modLaunch n fun l => l.started stage cores).refreshCtx l.ctx
          .ok () (match bad with
            | some code => s.areaFault team 0 code
            | none => if l.nbind = 0 then s else s.runPrologue team (t.binds.length + 1))

/-! ## Room (R135 to R137, R458) -/

/-- Whether a team still takes room when those on their way out are left aside. -/
def State.remains (s : State) (team : Nat) : Bool :=
  match s.teams.find team with
  | some t => ! t.onCores || s.stays team
  | none => false

/-- The placement that a priority-0 launch aims at, with its victims: its footprint while it holds one whose victims are
within 1 MiB, or one chosen now (R136, R137; DESIGN CHOICE: log entry 89). -/
def State.aim (s : State) (n : Nat) (w : Want) : Option (List (List Nat) × List Nat) :=
  let avoid := s.heldCores n
  let held := w.layouts.find? fun lay => w.l.footprint != [] && lay.flatten == w.l.footprint
  match held.bind fun lay => (s.victims w avoid lay).map fun vs => (lay, vs) with
  | some p => some p
  | none => s.choose avoid w

/-- Find room: the placement to use now, whether anything was set in motion, and the state. A priority-0 launch halts its
victims; PARKED contexts are reclaimed (R136, R137, R458). -/
def State.findRoom (s : State) (n : Nat) (w : Want) : Option (List (List Nat)) × Bool × State :=
  let avoid := s.heldCores n
  if w.l.prio ≠ 0 then
    match s.placements keepAll avoid w with
    | lay :: _ => (some lay, false, s)
    | [] =>
      let s := s.reclaim avoid w
      ((s.placements keepAll avoid w).head?, false, s)
  else
    match s.aim n w with
    | none => (none, false, s)
    | some (lay, vs) =>
      let s := vs.foldl (fun (s : State) v => s.stopWhole v .preempt) s
      let s := if w.l.st = .dispatching then s.modLaunch n fun l => { l with footprint := lay.flatten } else s
      let s := s.reclaimOn lay.flatten fun s => s.layoutFits s.remains avoid w lay
      (if s.layoutFits keepAll avoid w lay then some lay else none, ! vs.isEmpty, s)

/-! ## Restoring (R111, R125, R135, R256) -/

/-- A saved team that comes back, with the image it comes from. -/
structure Back where
  team : Nat
  t : Team
  cur : Nat
  /-- The rows of the members that come back, from their records (R111). -/
  rows : Tbl Nat

/-- The rows in VMAP of the members of a team that come back (R110, R111). -/
def State.backRows (s : State) (l : Launch) (t : Team) (cur : Nat) : Got (Tbl Nat) :=
  let src := t.source l (s.ctx t.ctx) (decide (t.st = .saved .rollback)) cur
  Got.each (fun (k : Nat) (s : State) =>
    (s.getPlain t.agent (src.member k + 0x1B0) 8).bind fun b s =>
      .ok (k, ((List.range 64).filter (bit (field b 0 8))).length) s) (comingKeys (t.coming cur).1) s

/-- Teams as they come back; one whose records cannot be read fails with its number. -/
def State.backs (s : State) (l : Launch) (ts : List (Nat × Team)) : Got (List Back) :=
  Got.each (fun (p : Nat × Team) (s : State) =>
    ((s.readCur p.2.agent p.2 (decide (p.2.st = .saved .rollback))).bind fun cur s =>
      (s.backRows l p.2 cur).bind fun rows s => .ok (⟨p.1, p.2, cur, rows⟩ : Back) s).of p.1) ts s

/-- What teams of a launch that come back together want: their own cores while one of them holds a PARK buffer there. -/
def backWant (l : Launch) (bs : List Back) : Want :=
  let parked := bs.any fun b => (b.t.coming b.cur).2.any fun x => x.place.isSome
  let own := fun (t : Nat) => bs.find? fun b => l.portMask == 0 || b.t.num == t
  let nums := List.range (if l.portMask = 0 then 1 else l.nteams)
  { l := l
    needs := nums.map fun t => ((own t).map fun b => b.t.backNeeds l b.cur b.rows).getD []
    layouts := if parked then [nums.map fun t => ((own t).map fun b => b.t.cores).getD []] else l.layouts }

/-- The seats of a team that comes back. -/
def State.landing (s : State) (l : Launch) (b : Back) (cores : List Nat) : Landing :=
  let keys := comingKeys (b.t.coming b.cur).1
  let seats := s.seats l cores b.t.per ((keys.map fun k => k % l.teamSize).eraseDups)
  { cores := cores, gids := keys.map fun k => (k, seatOf l seats k) }

/-- Restore teams on a placement; a failure carries the number of the team. -/
def State.landBacks (s : State) (n : Nat) (l : Launch) (bs : List Back) (lay : List (List Nat)) : Got Unit :=
  (Got.each (fun b (s : State) =>
    let cores := lay.getD (if l.portMask = 0 then 0 else b.t.num) []
    (s.restoreTeam b.team b.t l (s.landing l b cores)).of b.team) bs s).bind fun _ s =>
      let parked := bs.any fun b => (b.t.coming b.cur).2.any fun x => x.place.isSome
      .ok () (if l.portMask = 0 ∨ parked = true then s else s.modLaunch n fun l =>
        { l with grid := lay.foldl (fun (m : Tbl Nat) cores => (List.range cores.length).foldl (fun (m : Tbl Nat) j =>
            m.put (cores.getD j 0) (min l.perCore (l.teamSize - l.perCore * j))) m) [] })

/-- Bring teams back: whether anything came about. A record that cannot be read faults the context (R97). Where making room
has written out PARK buffers of the teams themselves, they are looked at again and may stand anywhere (R109, R458); the number
bounds the looks. -/
def State.bringBack (s : State) (n : Nat) (l : Launch) (ts : List (Nat × Team)) : Nat → Bool × State
  | 0 => (false, s)
  | k + 1 =>
    let fault := fun (team code : Nat) (s : State) => (true, s.faultCtx l.ctx (some (team, code)))
    match s.backs l ts with
    | .held => (false, s)
    | .fail team code s => fault team code s
    | .ok bs s =>
      let (r, moved, s) := s.findRoom n (backWant l bs)
      let now := ts.map fun p => (p.1, (s.teams.find p.1).getD p.2)
      if now ≠ ts then s.bringBack n l now k
      else match r with
        | none => (moved, s)
        | some lay =>
          match s.landBacks n l bs lay with
          | .ok _ s => (true, s)
          | .fail team code s => fault team code s
          | .held => (moved, s)

/-! ## The dispatcher (R135) -/

/-- The saved teams of a launch that wait to come back: a team held by HALT does not, and one that back-pressure stopped
only while its output queue has room (R105, R150). -/
def State.waitingBack (s : State) (n : Nat) (l : Launch) : List (Nat × Team) × State :=
  (sortBy (fun (p : Nat × Team) => p.2.num) (s.teams.filter fun p => p.2.launch == n)).foldl
    (fun (a : List (Nat × Team) × State) p =>
      match p.2.st with
      | .saved .held => a
      | .saved .backpressure =>
        let (room, s) := a.2.outRoom n l p.2.stage
        (if room then a.1 ++ [p] else a.1, s)
      | .saved _ => (a.1 ++ [p], a.2)
      | _ => a) ([], s)

/-- Whether a launch with no team yet must wait for an earlier one: of its queue, or of its tower at priority 0 (R135,
R137). -/
def State.behind (s : State) (n : Nat) (l : Launch) : Bool :=
  l.st == .dispatching && s.launches.any fun p =>
    p.1 != n && p.2.st == .dispatching && decide (p.2.order < l.order)
      && (p.2.q == l.q || (l.prio == 0 && p.2.prio == 0 && p.2.tower == l.tower))

/-- Place the next new team of a launch, or every team of a port launch. -/
def State.tryNew (s : State) (n : Nat) (l : Launch) : Bool × State :=
  if s.behind n l then (false, s)
  else
    match s.nextStage n l with
    | (none, s) => (false, s)
    | (some stage, s) =>
      if (s.areaSlots l).isNone then (false, s)
      else
        match s.findRoom n l.want with
        | (none, moved, s) => (moved, s)
        | (some lay, moved, s) =>
          match Got.each (fun (cores : List Nat) (s : State) => s.startTeam n stage cores) lay s with
          | .ok _ s => (true, s)
          | .fail _ _ s => (true, s)
          | .held => (moved, s)

/-- Whether a team of a launch is on its way out to come back (R135). -/
def State.leaving (s : State) (n : Nat) : Bool :=
  s.teams.any fun p => p.2.launch == n && (p.2.st == .stopping .preempt || p.2.st == .stopping .rollback)

/-- The turn of a launch: its pre-empted teams come back before a new one starts, those that have still to stop too
(R135). -/
def State.tryLaunch (s : State) (n : Nat) (l : Launch) : Bool × State :=
  let (ts, s) := s.waitingBack n l
  if ts.isEmpty then
    (if s.leaving n ∨ (l.portMask ≠ 0 ∧ l.placed.findD 0 0 ≠ 0) then (false, s) else s.tryNew n l)
  else if l.portMask ≠ 0 then
    (if ts.length = (s.teams.filter fun p => p.2.launch == n).length then s.bringBack n l ts 2 else (false, s))
  else
    ts.foldl (fun (a : Bool × State) p => if a.1 then a else a.2.bringBack n l [p] 2) (false, s)

/-- The launches of a queue that may have a team placed, in admission order. -/
def State.readyLaunches (s : State) (q : Nat) : List Nat :=
  (sortBy (fun (p : Nat × Launch) => p.2.order)
    (s.launches.filter fun p => p.2.q == q && (p.2.st == .dispatching || p.2.st == .running))).map (·.1)

/-- The turn of a queue: its earliest launch that has a placeable team. -/
def State.tryQueue (s : State) (q : Nat) : Bool × State :=
  (s.readyLaunches q).foldl (fun (a : Bool × State) n =>
    if a.1 then a
    else match a.2.launches.find n with
      | some l => a.2.tryLaunch n l
      | none => a) (false, s)

/-- The queues of a priority on a tower, from the one after the queue served last. -/
def State.rotation (s : State) (tower prio : Nat) : List Nat :=
  let qs := (s.queues.filter fun p => p.2.tower == tower && p.2.prio == prio).map (·.1)
  match (s.tower tower).lastQ.find prio with
  | some k => qs.filter (k < ·) ++ qs.filter (· ≤ k)
  | none => qs

/-- The turn of a priority. -/
def State.tryPrio (s : State) (tower prio : Nat) : Bool × State :=
  (s.rotation tower prio).foldl (fun (a : Bool × State) q =>
    if a.1 then a
    else
      let (done, s) := a.2.tryQueue q
      (done, if done then s.modTower tower fun w => { w with lastQ := w.lastQ.put prio q } else s)) (false, s)

/-- DISPATCH_TEAM: the dispatcher of tower a places the next team, new or saved, after ending the stages that have no work
left (R135, R149). -/
def execDispatchTeam (s : State) : Host.Outcome State Fault Refusal :=
  let tower := s.arg.a
  let s := (s.launches.filter fun p => p.2.tower == tower && p.2.st == .running).foldl
    (fun (s : State) (p : Nat × Launch) => s.endStages p.1 8) s
  .next ((List.range 4).foldl (fun (a : Bool × State) prio => if a.1 then a else a.2.tryPrio tower prio) (false, s)).2

/-! ## Back-pressure and HALT (R105, R150) -/

/-- The stage that reads a queue. -/
def Launch.reader (l : Launch) (q : Nat) : Option Nat := (List.range l.nstage).find? fun k => l.inq k == q

/-- Whether a group has waited 100 µs in SQADD on the stage queue at an address (R150). -/
def Group.addStuck (now va : Nat) (g : Group) : Bool :=
  g.waitsFor .stageQueue && (match g.wait, g.atInstr with
    | some w, some (.sqadd _) => decide (now ≥ w.since + 100000 ∧ w.lim = va)
    | _, _ => false)

/-- BACKPRESSURE_TIMEOUT: team a has waited 100 µs in SQADD on its output queue while the stage that reads its queue has no team on the device
and no room for one; it is pre-empted (R150). -/
def execBackpressureTimeout (s : State) : Host.Outcome State Fault Refusal :=
  let team := s.arg.a
  match s.teams.find team, (s.teams.find team).bind s.launchOf with
  | some t, some l =>
    match if l.outq t.stage = 255 then none else l.reader (l.outq t.stage) with
    | none => .next s
    | some k =>
      let stuck := t.st == .running && (s.groupsOf team).any fun p => p.2.addStuck s.time (l.sq.getD (l.outq t.stage) 0)
      if stuck && s.stageTeams t.launch k == 0 && (s.placements keepAll (s.heldCores t.launch) l.want).isEmpty then
        .next (s.stopTeam team .backpressure)
      else .next s
  | _, _ => .next s

/-- HALT_RESUME: a service request resumes held team a, with a port launch all its teams; it comes back under R135 (R105,
R111, R256). -/
def execHaltResume (s : State) : Host.Outcome State Fault Refusal :=
  request s fun s =>
    match s.teams.find s.arg.a, (s.teams.find s.arg.a).bind s.launchOf with
    | some t, some l =>
      if t.st ≠ .saved .held then s.answer .badState
      else
        let s := { s with teams := s.teams.map fun (p : Nat × Team) =>
          if (p.1 = s.arg.a ∨ (l.portMask ≠ 0 ∧ p.2.launch = t.launch)) ∧ p.2.st = TeamSt.saved .held then
            (p.1, { p.2 with st := .saved .preempt }) else p }
        s.answer .ok
    | _, _ => s.answer .badReq

/-- HELD_TEAM_CANCEL: a service request cancels held team a; its launch ends CANCELLED (R105, R145). -/
def execHeldTeamCancel (s : State) : Host.Outcome State Fault Refusal :=
  request s fun s =>
    match s.teams.find s.arg.a with
    | some t => if t.st ≠ .saved .held then s.answer .badState else (s.drainLaunch t.launch 2 noDetail).answer .ok
    | none => s.answer .badReq

end Sys2Proof.Machine
end

