-- ==== Sys2Proof/Machine/Groups.lean ====
section
/-! DEFINITION. What happens to groups beside their instructions: the fetch of a clause (R53 to R58, R74, R75), rows of the
pool (R158, R159, R161), completion of counted operations (R79, R168), retirement (R155, R337), shadows (R120), and what the
core and its partner report (R121, R161, R224). -/

namespace Sys2Proof.Machine

open Sys2Proof

/-! ## Fetching a clause (R53) -/

/-- How the fetch of words ends. -/
inductive Fetched where
  | ok (ws : List Word)
  | trap (code sub : Nat)
  | absent (va pte : Nat) (level3 attr : Bool)
  | held
  deriving DecidableEq, Repr

/-- Fetch one word at a byte address, after its check. -/
def State.fetchWord (s : State) (launch va : Nat) (g : Group) (cl ctx : Nat) : Fetched × State :=
  if 2 ^ 52 ≤ va then (.trap 0x10 1, s)
  else
    match s.reach cl ctx (cfgPriv g.ctxcfg) .fetch va 4 with
    | (.trap code sub, s) => (.trap code sub, s)
    | (.absent pte l3 attr, s) => if g.failed va then (.trap 0x10 1, s) else (.absent va pte l3 attr, s)
    | (.held, s) | (.logged _, s) => (.held, s)
    | (.ok pa _, s) =>
      match s.home 8 pa with
      | .here p =>
        let (bs, s) := s.homeRead p 4
        let bad := (List.range 4).any fun j => s.poisoned (homeKey p + j)
        (.ok [BitVec.ofNat 32 (if bad then 0 else ofBytes bs)], if bad then s.setChk launch chkPoison else s)
      | _ => (.held, s)

/-- Fetch words one after another; the first that faults decides. -/
def State.fetchWords (s : State) (launch : Nat) (g : Group) (cl ctx base : Nat) : List Nat → Fetched × State
  | [] => (.ok [], s)
  | w :: t =>
    match s.fetchWord launch (base + 4 * (w % 2 ^ 32)) g cl ctx with
    | (.ok a, s) =>
      (match s.fetchWords launch g cl ctx base t with
       | (.ok b, s) => (.ok (a ++ b), s)
       | r => r)
    | r => r

/-- A cause of a whole clause: the active lanes share it, and the counter still holds the clause address (R75). -/
def clauseTrap (s : State) (gid : Nat) (g : Group) (code sub : Nat) : State :=
  takeTrap s gid { code := code, sub := sub, imm := 0, lanes := g.active } g.active (minPc g.pcv) 0

/-- What a fetch that did not deliver its words does: a trap, a wait for the page with a fault record, or a wait for its
home (R53, R281, R282). -/
def fetchStops (s : State) (gid ctx : Nat) (g : Group) (r : Fetched) : State :=
  match r with
  | .trap code sub => clauseTrap s gid g code sub
  | .absent va pte l3 attr => (s.reportFault ctx va 2 (coreOf gid) pte l3 attr).waitFor gid (.page va 2) 0 0
  | .held => s.waitFor gid .held 0 0
  | .ok _ => s

/-- A clause that has been fetched and checked stands before its group, at word `hword` if the group resumes inside it
(R101, R111). -/
def Group.takeClause (h : Word) (ws : List Word) (g : Group) : Group :=
  { g with
    st := .ready, wait := none, hword := 0
    clause := some { addr := minPc g.pcv, header := h, words := ws, pos := g.hword - 1, begun := decide (g.hword ≠ 0), active := g.active } }

/-- Whether a group fetches: it is at a clause and READY, or it waits for the home of its code. -/
def Group.fetches (g : Group) : Bool :=
  g.clause.isNone && ! g.stepDue && (g.st == .ready || g.waitsFor .held || g.waitsFor .counters)

/-- CLAUSE_FETCH: group a fetches the clause at its issue address: the header, its check, the words, and the check of the
clause (R53, R54, R74, R75). -/
def execClauseFetch (s : State) : Host.Outcome State Fault Refusal :=
  let gid := s.arg.a
  match s.groups.find gid, (s.groups.find gid).bind fun g => s.teams.find g.team with
  | some g, some t =>
    if ! g.fetches then .next s
    else if minPc g.pcv = exitPc then .next (s.modGroup gid Group.retireIfDone)
    else
      let base := (s.ctx t.ctx).codeBase
      let h := (minPc g.pcv).toNat
      let get := fun (s : State) (ws : List Nat) => s.fetchWords t.launch g (clusterOf gid) t.ctx base ws
      match get s [h] with
      | (.ok [w], s) =>
        let hd := headerOf w
        if hd.defective then .next (clauseTrap s gid g 0x01 0)
        else
          (match get s ((List.range hd.n).map fun k => h + 1 + k) with
           | (.ok ws, s) =>
             (match checkClause hd (cfgPriv g.ctxcfg) ws with
              | some code => .next (clauseTrap s gid g code 0)
              | none => .next (s.modGroup gid (Group.takeClause w ws)))
           | (r, s) => .next (fetchStops s gid t.ctx g r))
      | (r, s) => .next (fetchStops s gid t.ctx g r)
  | _, _ => .next s

/-! ## Rows of the pool (R158, R159, R161) -/

/-- Pool rows that a group in WAIT_ALLOC waits for: to reload its spilled names, and for its next instruction unless they are
granted already (R158, R159). -/
def Group.poolWant (rmin : Nat) (g : Group) : Nat :=
  let k := g.spilled.length + if g.granted then 0 else g.wanted
  max (g.held + k) rmin - max g.held rmin

/-- A waiter is served: its spilled names are reloaded, and its rows granted (R155, R158). -/
def Group.served (tick : Nat) (g : Group) : Group :=
  { g with spilled := [], granted := g.granted || decide (g.wanted > 0), st := .ready, age := tick }

/-- ROW_GRANT: the oldest group in WAIT_ALLOC on core a receives its rows once the pool holds them (R158). -/
def execRowGrant (s : State) : Host.Outcome State Fault Refusal :=
  let core := s.arg.a
  match (s.core core).allocWait with
  | [] => .next s
  | (gid, _) :: _ =>
    match s.groups.find gid with
    | none => .next s
    | some g =>
      if g.st = .waitAlloc ∧ g.poolWant (s.rminOf g) ≤ s.poolFree core then
        .next ((s.modGroup gid (Group.served s.tick)).leaveAlloc gid)
      else .next s

/-- Whether a group may give up rows: it holds more than RMIN and waits in an instruction of a clause that it has begun, or in
WAIT_ALLOC behind the oldest waiter (R159). -/
def Group.mayYieldRows (rmin : Nat) (oldest : Bool) (g : Group) : Bool :=
  decide (g.held > rmin) && decide (g.spilled.length < g.rows.length)
    && ((g.st == .waitAlloc && ! oldest)
      || (g.st == .waiting && (g.clause.map (·.begun)).getD false && ! g.waitsFor .counters && ! g.waitsFor .dcFull))

/-- The victim among those not `tried`: the most recently placed, among equals the highest slot (R159). -/
def State.rowVictim (s : State) (core oldest : Nat) (tried : List Nat) : Option Nat :=
  let vs := (s.groupsOn core).filter fun p => ! tried.contains p.1 && p.2.mayYieldRows (s.rminOf p.2) (p.1 == oldest)
  let key := fun (p : Nat × Group) => ((s.teams.find p.2.team).map (·.placedAt)).getD 0 * 128 + p.1 % 128
  (minBy (fun (p : Nat × Group) => 2 ^ 128 - key p) vs).map (·.1)

/-- The save-record slot of a group of a team (R110). -/
def Team.recordSlot (t : Team) (gid : Nat) : Nat := t.slotG.getD (t.members.findIdx (· == .on gid)) 0

/-- Write out a victim's highest names until it holds RMIN rows (R159). -/
def State.spillGroup (s : State) (gid : Nat) (g : Group) (t : Team) : Got Unit :=
  let names := (g.rows.keys.filter fun v => ! g.spilled.contains v).reverse.take (g.held - s.rminOf g)
  let base := (s.ctx t.ctx).slotVa (t.recordSlot gid) + recordHead
  (Got.each (fun v (s : State) => s.putPlain t.agent (base + 128 * v) (rowBytes (g.vreg v))) names s).bind fun _ s =>
    .ok () ((s.modGroup gid fun g => { g with spilled := names.foldl (fun l v => insertNat v l) g.spilled
                                              drowsy := g.drowsy.filter fun v => ! names.contains v }).modCore
      (coreOf gid) fun c => { c with freedAt := s.time })

/-- Spill victims until a waiter can be served or no victim remains; a spill that cannot be written faults the victim's
team, one whose page is held is left for a later attempt, and further victims follow (R97, R159). -/
def State.spillFor (s : State) (core waiter want : Nat) (tried : List Nat) : Nat → State
  | 0 => s
  | k + 1 =>
    if want ≤ s.poolFree core then s
    else
      match s.rowVictim core waiter tried with
      | none => s
      | some gid =>
        match s.groups.find gid, (s.groups.find gid).bind fun g => s.teams.find g.team with
        | some g, some t =>
          (match s.spillGroup gid g t with
           | .ok _ s => s.spillFor core waiter want (gid :: tried) k
           | .fail _ code s => (s.areaFault g.team g.num code).spillFor core waiter want (gid :: tried) k
           | .held => s.spillFor core waiter want (gid :: tried) k)
        | _, _ => s

/-- ROW_SPILL: the oldest waiter of core a has waited 10 µs in which no pool row was freed; rows of victims are written
out (R159). -/
def execRowSpill (s : State) : Host.Outcome State Fault Refusal :=
  let core := s.arg.a
  match (s.core core).allocWait with
  | [] => .next s
  | (gid, since) :: _ =>
    match s.groups.find gid with
    | none => .next s
    | some g =>
      if s.time ≥ since + 10000 ∧ s.time ≥ (s.core core).freedAt + 10000 then
        .next (s.spillFor core gid (g.poolWant (s.rminOf g)) [] 128)
      else .next s

/-- ROW_DROWSY: row b of group a becomes drowsy until it is next accessed (R161). -/
def execRowDrowsy (s : State) : Host.Outcome State Fault Refusal :=
  .next (s.modGroup s.arg.a fun g =>
    if (g.rows.find s.arg.b).isSome && ! g.spilled.contains s.arg.b then { g with drowsy := insertNat s.arg.b g.drowsy } else g)

/-- DEBUG_REGISTER_READ: a service request reads lane c of vector register b of group a; a name without a row reads as zero
with status UNALLOC (R161). -/
def execDebugRegisterRead (s : State) : Host.Outcome State Fault Refusal :=
  request s fun s =>
    match s.groups.find s.arg.a with
    | none => s.answer .badReq
    | some g =>
      if s.arg.b ≥ 64 ∨ s.arg.c ≥ 32 then s.answer .badReq
      else if (g.rows.find s.arg.b).isNone then s.answer .unalloc (toBytes 4 0)
      else s.answer .ok (toBytes 4 (lane ((g.view s.tick).vreg s.arg.b) s.arg.c).toNat)

/-! ## Retirement (R155, R336, R337, R340) -/

/-- Whether a RETIRING group may leave: nothing it issued is incomplete, and a leader stays until its shadow retires. -/
def State.mayRelease (s : State) (gid : Nat) (g : Group) : Bool :=
  g.st == .retiring && g.ops.isEmpty && ((List.range 6).all fun k => g.dc k == 0) && (s.copiesOf gid).isEmpty
    && (g.shadow || (match s.groups.find (twinOf gid) with
      | some h => ! (h.shadow && h.team == g.team) || h.st == .retiring
      | none => true))

/-- A team ends once none of its groups is left; stages of its launch may end with it (R148, R149, R155). -/
def State.endIfEmpty (s : State) (team : Nat) : State :=
  match s.teams.find team with
  | none => s
  | some t =>
    if (s.groupsOf team).isEmpty && t.members.all (· == .retired) then (s.removeTeam team).endStages t.launch 8 else s.settle team

/-- GROUP_RELEASE: group a, RETIRING with its counters zero, leaves its slot, rows and reservation (R155). -/
def execGroupRelease (s : State) : Host.Outcome State Fault Refusal :=
  let gid := s.arg.a
  match s.groups.find gid with
  | none => .next s
  | some g =>
    if ! s.mayRelease gid g then .next s
    else
      let s := s.modTeam g.team fun t =>
        { t.retireFrom g with members := t.members.map fun m => if m = .on gid then .retired else m }
      let s := (s.renameGid gid goneGid).leaveAlloc gid
      let s := { s with groups := s.groups.del gid }
      let s := s.modCore (coreOf gid) fun c => { c with freedAt := s.time }
      .next ((s.noteHalting g.team).endIfEmpty g.team)

/-! ## Completion of counted operations (R79, R168) -/

/-- The operations of a group that issued before one. -/
def Group.before (g : Group) (id : Nat) : List Op := g.ops.takeWhile fun o => o.id != id

/-- The place of a signal or lid in memory, when it can be reached. -/
def State.wordAt (s : State) (gid : Nat) (g : Group) (ctx va : Nat) (k : AccKind) : Option Nat × State :=
  match s.reach (clusterOf gid) ctx (cfgPriv g.ctxcfg) k va 8 with
  | (.ok pa _, s) => (if spaceOf pa = .link then some pa else match s.home 8 pa with
      | .here _ => some pa
      | _ => none, s)
  | (.absent pte l3 attr, s) => (none, s.reportFault ctx va 0 (coreOf gid) pte l3 attr)
  | (_, s) => (none, s)

/-- Whether an operation is a SIGWAIT under a counter. -/
def Op.isSigwait (o : Op) : Bool :=
  match o.act with
  | .sigwait _ _ _ _ => true
  | _ => false

/-- Fill entry `k` of the SIGWAIT entries of a leader's queue that have no value yet (R119). -/
def fillEntry (sw : List (Nat × DWord)) : Nat → List OutVals → List OutVals
  | _, [] => []
  | k, ⟨v, x, false⟩ :: t => ⟨v, x, false⟩ :: fillEntry sw k t
  | 0, ⟨v, _, true⟩ :: t => ⟨v, sw, false⟩ :: t
  | k + 1, e :: t => e :: fillEntry sw k t

/-- The value of a leader's SIGWAIT reaches its shadow: the entry that waits for it in the queue, or the SIGWAIT that the
shadow has issued itself, in the order of issue (R119). -/
def State.shadowSigwait (s : State) (gid : Nat) (g : Group) (o : Op) (m : DWord) (sw : List (Nat × DWord)) : State :=
  match s.groups.find (twinOf gid) with
  | none => s
  | some h =>
    if g.shadow || ! h.shadow || h.team != g.team then s
    else
      let mine := g.ops.filter Op.isSigwait
      let k := mine.findIdx fun p => p.id == o.id
      let out := mine.length - (g.shq.filter (·.due)).length
      if out ≤ k then s.modGroup gid fun g => { g with shq := fillEntry sw (k - out) g.shq }
      else match (h.ops.filter Op.isSigwait)[k]? with
        | none => s
        | some p => s.opDone (twinOf gid) p { sw := match p.act with
            | .sigwait _ _ _ d => if d < 128 then [(d, m)] else p.sres
            | _ => p.sres }

/-- What a counted SIGWAIT sees of its signal: at home, or by a request to its target, which is asked anew after each look
(R345, R416; log entry 87). -/
def State.signalLook (s : State) (gid : Nat) (t : Team) (id pa : Nat) : Option Nat × State :=
  if spaceOf pa = .link then
    match s.opRead gid t.launch t.ctx pa 8 id with
    | (none, s) => (none, s)
    | (some r, s) =>
      (if r.cause = 0 then some (ofBytes r.value) else none, (if r.cause = 0 then s.consume t.launch [r] else s).dropReads id)
  else
    let (m, s) := s.homeWord t.launch pa
    (some m, s)

/-- SIGWAIT under a counter completes when its condition holds; a shadow's completes with its leader's (R119, R345). -/
def State.endSigwait (s : State) (gid : Nat) (g : Group) (t : Team) (o : Op) (va : Nat) (c : DWord) (cond dreg : Nat) : State :=
  if g.shadow then s
  else match s.wordAt gid g t.ctx va .load with
  | (none, s) => s
  | (some pa, s) =>
    match s.signalLook gid t o.id pa with
    | (none, s) => s
    | (some m, s) =>
      if signalHolds cond m c.toNat && s.fenceReady gid 5 (g.before o.id) then
        let sw := if dreg < 128 then [(dreg, BitVec.ofNat 64 m)] else o.sres
        ((s.shadowSigwait gid g o (BitVec.ofNat 64 m) sw).fence (coreOf gid) t.ctx 5).opDone gid o { sw := sw }
      else s

/-- TTQ under a counter completes when its record has been appended (R391). -/
def State.endTtq (s : State) (gid : Nat) (g : Group) (t : Team) (o : Op) (rec_ : State → Option (List Byte) × State) : State :=
  if ! s.ttqReady gid (g.before o.id) then s
  else
    match rec_ (s.fence (coreOf gid) t.ctx 4) with
    | (none, s) => s
    | (some l, s) =>
      match s.appendTask (clusterOf gid) t.ctx g.team t.launch l with
      | (some s, _) => (s.dropReads o.id).opDone gid o {}
      | (none, s) => s

/-- SIGADD under a counter makes its addition, which a link aperture performs by a request that it waits for (R345, R416). -/
def State.endSigadd (s : State) (gid : Nat) (t : Team) (o : Op) (pa : Nat) (v : DWord) : State :=
  let core := coreOf gid
  let id := s.fresh
  let s := (s.fence core t.ctx 5).signalAdd gid core t.ctx t.launch pa v
  if spaceOf pa = .link ∧ (s.peers.find id).isSome then
    s.modGroup gid fun g => { g with ops := g.ops.map fun p => if p.id = o.id then { p with act := .posted id } else p }
  else s.opDone gid o { vw := o.vres, sw := o.sres }

/-- Whether a bus over which a buffer is reached makes its accesses wait (R435). -/
def State.padWaits (s : State) (core buf gen : Nat) (rmw : Bool) : Bool :=
  match (s.core core).bufs.find buf with
  | some b => b.gen == gen && (List.range (min b.rows 16)).any fun r => (s.bus (padBus core ((b.base + r) % 16))).waits rmw
  | none => false

/-- What an operation still has to do, and its end, if it can end now. -/
def State.completeOp (s : State) (gid : Nat) (g : Group) (t : Team) (l : Launch) (o : Op) : State :=
  let core := coreOf gid
  let done := fun (s : State) => s.opDone gid o { vw := o.vres, sw := o.sres }
  match o.act with
  | .none => done s
  | .spad b gen | .spadStore b gen _ => if s.padWaits core b gen (decide (9 ≤ o.opc ∧ o.opc ≤ 0x14)) then s else done s
  | .fence scope => if s.fenceReady gid scope (g.before o.id) then done (s.fence core t.ctx scope) else s
  | .rel lid excl =>
    if ! s.relReady gid o.id then s
    else (match s.wordAt gid g t.ctx lid .store with
      | (some pa, s) => done (s.release gid t.ctx t.launch lid pa excl)
      | (none, s) => s)
  | .cwait n => if s.batchDone gid n then done (s.cwaited gid g.team n) else s
  | .sigadd va v =>
    if ! s.fenceReady gid 5 (g.before o.id) then s
    else (match s.wordAt gid g t.ctx va .atomic with
      | (some pa, s) => s.endSigadd gid t o pa v
      | (none, s) => s)
  | .posted id => if (s.peers.find id).isSome then s else done s
  | .sigwait va c cond dreg => s.endSigwait gid g t o va c cond dreg
  | .ttq r => s.endTtq gid g t o fun s => (some r, s)
  | .ttqMem va => s.endTtq gid g t o fun s => s.ttqRead core t.ctx t.launch va (cfgPriv g.ctxcfg)
  | .copy _ => s
  | .entry e => s.tryEntry gid o.id g t l e

/-- A request with its response: the bytes and the marks that the target returns for a read or an atomic, none for a write
(R416, R420; log entry 8). -/
def PeerReq.answered (tick : Nat) (r : PeerReq) : PeerReq :=
  match r.op with
  | .write _ _ => { r with done := true }
  | _ => { r with done := true
                  data := (List.range r.size).map fun j => Config.peerByte (r.pa + j) tick
                  marks := (List.range r.size).map fun j => Config.peerMark (r.pa + j) tick }

/-- A peer answers a request: its response is there for whoever waits for it, and one that nobody waits for, or only for its
acceptance, is over (R416). A trunk without an UP port holds the request, and a response that comes after the timeout is
dropped (R424, R427). -/
def State.peerDone (s : State) (id : Nat) : State :=
  match s.peers.find id with
  | none => s
  | some r =>
    if r.done ∨ r.port = none ∨ s.time > r.when + 200000 then s
    else match r.kind with
    | .load | .copyRead | .taskRead => { s with peers := s.peers.put id (r.answered s.tick) }
    | .opRead =>
      let s : State := { s with peers := s.peers.put id (r.answered s.tick) }
      if r.gid = goneGid then s.goOn else s
    | .posted | .copyWrite | .taskWrite => { s with peers := s.peers.del id }

/-- COUNTED_OP_COMPLETE: operation b of group a completes if its condition holds: its results are written and its counter
falls; or b is a request to a peer, which is answered (R79, R168, R416). -/
def execCountedOpComplete (s : State) : Host.Outcome State Fault Refusal :=
  let gid := s.arg.a
  let id := s.arg.b
  match s.groups.find gid, (s.groups.find gid).bind fun g => s.teams.find g.team with
  | some g, some t =>
    (match g.ops.find? fun o => o.id == id, s.launchOf t with
     | some o, some l => .next ((s.completeOp gid g t l o).settle g.team)
     | _, _ => .next (s.peerDone id))
  | _, _ => .next (s.peerDone id)

/-! ## Shadows (R119, R120) -/

/-- SHADOW in one group: the held operation is discarded, and the frame leads to the region entry, whose live-ins keep their
rows (R120, R187; log entry 37). -/
def State.shadowTrap (s : State) (gid : Nat) : State :=
  match s.groups.find gid with
  | none => s
  | some g =>
    if g.st = .retiring ∨ g.st = .stopped then s
    else
      let act := (g.clause.map (·.active)).getD g.active
      let c : Cause := { code := 0x40, sub := 0, imm := 0, lanes := act }
      let s := s.modGroup gid fun g =>
        let to_ := rowOf fun l => if lane g.pcv l = exitPc then exitPc else lane g.rev l
        { Group.record c.word act 0 0 0 g with spcv := to_, tclause := minPc to_, heldOp := none, matched := false, shq := [],
                                               pendFree := [], pidx := 0, hazards := [] }
      ((s.leaveAlloc gid).broadcastHalt g.team gid).afterRecord gid g.hmode

/-- SHADOW in a leader and its shadow. -/
def State.shadowBoth (s : State) (gid : Nat) : State := (s.shadowTrap gid).shadowTrap (twinOf gid)

/-- Whether a shadow stands at an operation that its leader did not produce. -/
def State.mismatched (s : State) (gid : Nat) : Bool :=
  match s.groups.find (twinOf gid) with
  | some h => h.shadow && h.waitsFor .shadow && (h.wait.map (·.phase)) == some 2
  | none => false

/-- SHADOW_MISMATCH: the shadow of leader a produced another operation (R120). -/
def execShadowMismatch (s : State) : Host.Outcome State Fault Refusal :=
  .next (if s.mismatched s.arg.a then s.shadowBoth s.arg.a else s)

/-- SHADOW_LAG_TIMEOUT: leader a has held an operation for more than 4 µs (R120). -/
def execShadowLagTimeout (s : State) : Host.Outcome State Fault Refusal :=
  match s.groups.find s.arg.a with
  | none => .next s
  | some g =>
    .next (if g.heldOp.isSome && ! g.matched && ! g.shadow && decide (s.time > g.heldAt + 4000) then s.shadowBoth s.arg.a else s)

/-! ## Retention and mirrors (R121, R224) -/

/-- RETN_PUBLISH: RETN of core a is published with b µs at c °C, within the rules of R224. -/
def execRetnPublish (s : State) : Host.Outcome State Fault Refusal :=
  let us := s.arg.b
  let tj := s.arg.c
  let old := (s.core s.arg.a).retnUs
  if us < 100 ∨ 2 ^ 20 ≤ us ∨ 256 ≤ tj ∨ (tj ≤ 95 ∧ us < 200) ∨ us + old / 8 < old then .next s
  else .next (s.modCore s.arg.a fun c => { c with retnUs := us, retnTj := tj })

/-- MIRROR_ACKNOWLEDGEMENT: mirrored store a is acknowledged (R121). -/
def execMirrorAcknowledgement (s : State) : Host.Outcome State Fault Refusal :=
  .next { s with mirrors := s.mirrors.del s.arg.a }

/-- MIRROR_ACK_TIMEOUT: mirrored store a was not acknowledged within 30 µs of the REL or the launch's end that waits for it;
CHKIV.MIRROR is set and nothing waits for it any more (R121). -/
def execMirrorAckTimeout (s : State) : Host.Outcome State Fault Refusal :=
  match s.mirrors.find s.arg.a with
  | some ⟨_, launch, _, _, some since⟩ =>
    .next (if s.time ≥ since + 30000 then { s with mirrors := s.mirrors.del s.arg.a }.setChk launch chkMirror else s)
  | _ => .next s

end Sys2Proof.Machine
end

