-- ==== Sys2Proof/Machine/Device.lean ====
section
/-! DEFINITION. The device from power to ready, service actions, firmware and attestation (R16 to R26), profiles (R49 to
R51), contexts as the driver makes and ends them (R86 to R89, R457), tensors and decode sessions (R368, R371). -/

namespace Sys2Proof.Machine

open Sys2Proof

/-! ## DEVSTAT (R16) -/

/-- The code of DEVSTAT.STEP: 0 in OFF (R16). -/
def Device.stepField (d : Device) : Nat :=
  match d.st with
  | .off => 0
  | _ => d.step

/-- DEVSTAT (R16). SERVICE is 1 while a service action is asked for and has not completed (R22). -/
def Device.devstat (d : Device) : Nat :=
  bitNat (d.st == .ready) + 2 * bitNat (d.st == .failed) + 4 * bitNat d.degraded + 8 * bitNat (! d.actions.isEmpty)
    + 16 * d.stepField + 256 * d.failStep + 4096 * d.failCode + 65536 * d.chLive + 2 ^ 32 * (d.epoch % 2 ^ 32)

/-! ## Reset and bring-up (R17 to R19, R23) -/

/-- The device as reset asserts: everything at its reset value; the retirement fuses, the images and the count of resets
stay (R17, R23). -/
def State.restart (s : State) : State :=
  { State.reset with
    tick := s.tick, turns := s.turns, time := s.time, fresh := s.fresh
    dev := { Device.reset with boot := s.dev.boot + 1, fuses := s.dev.fuses, images := s.dev.images, stepAt := s.time } }

/-- POWER_GOOD (R17). -/
def execPowerGood (s : State) : Host.Outcome State Fault Refusal :=
  .next (match s.dev.st with
    | .off => s.restart
    | _ => s)

/-- RESET (R17): from any state. -/
def execReset (s : State) : Host.Outcome State Fault Refusal := .next s.restart

/-- The slice that entry `e` of a tower's map names (R277). -/
def Tower.entry (w : Tower) (e : Nat) : Nat := w.sliceMap.findD e (e % 48)

/-- The number of entries that name each slice. -/
def Tower.entries (w : Tower) : List Nat :=
  (List.range 768).foldl (fun l e => listSet l (w.entry e) (l.getD (w.entry e) 0 + 1)) (List.replicate 48 0)

/-- The slices that take entries: ACTIVE ones. -/
def Tower.activeSlices (w : Tower) : List Nat := (List.range 48).filter fun k => w.slices.findD k .active == .active

/-- Reassign every entry that names slice `k`, in ascending order, to the remaining slice with the fewest entries, ties to
the lowest number (R280). -/
def Tower.reassign (w : Tower) (k : Nat) : Tbl Nat :=
  let rest := w.activeSlices.filter (· != k)
  ((List.range 768).foldl (fun (a : Tbl Nat × List Nat) e =>
    if w.entry e = k then
      let new := (minBy (fun x => a.2.getD x 0) rest).getD k
      (a.1.put e new, listSet a.2 new (a.2.getD new 0 + 1))
    else a) (w.sliceMap, w.entries)).1

/-- What mapping a part out during bring-up leaves (R18, R19): a slice's entries are reassigned (R280), a port is RETIRED. -/
def State.mapOutAt (s : State) (p : PartRef) : State :=
  let s := s.mapOut p
  match p.kind with
  | .l2Slice => s.modTower (p.idx / 48) fun w =>
      { w with sliceMap := w.reassign (p.idx % 48), slices := w.slices.put (p.idx % 48) .off }
  | .linkPort => s.modLink p.idx fun l => { l with st := .retired }
  | _ => s

/-- Whether a step of bring-up tests parts of a kind (R19). L2 slices have no step of their own and may fail in any. -/
def testedAt (step : Nat) (k : PartKind) : Bool :=
  match k with
  | .linkPort => step == 3
  | .channelDie => step == 5
  | .hbmStack => step == 6
  | .tsBank => step == 7
  | .core => step == 8
  | .l2Slice => true
  | _ => false

/-- The parts of a kind that a device has (R13). -/
def partCount (k : PartKind) : Nat :=
  match k with
  | .core => 384
  | .channelDie => 32
  | .l2Slice => 192
  | .hbmStack => 16
  | .linkPort => 64
  | .tsBank => 256
  | .bus => 7936
  | .spadLayer => 4
  | .spadBank => 6144
  | .firmware => 16

/-- The tower of a part (R13). -/
def partTower (p : PartRef) : Nat := p.idx / (partCount p.kind / 4)

/-- The parts of a kind of a tower that are not mapped out. -/
def State.soundParts (s : State) (k : PartKind) (t : Nat) : Nat :=
  partCount k / 4 - (s.dev.mapped.filter fun p => p.kind == k && (partTower p) == t).length

/-- The floors of R18, lanes apart. -/
def State.floorsMet (s : State) : Bool :=
  (List.range 4).all fun t =>
    decide (s.soundParts .channelDie t ≥ 7) && decide (s.soundParts .l2Slice t ≥ 40) && decide (s.soundParts .hbmStack t ≥ 3)
      && decide (s.soundParts .core t ≥ 88)

/-- Typical times of the steps in milliseconds (R18). -/
def stepMs (n : Nat) : Nat := [5, 60, 150, 80, 120, 1795, 150, 40].getD (n - 1) 0

/-- Whether the current step has taken more than four times its typical time (R17). -/
def State.stepLate (s : State) : Bool := decide (s.time - s.dev.stepAt > 4000000 * stepMs s.dev.step)

/-- Bring-up fails with a code (R17). -/
def State.failBringup (s : State) (code : Nat) : State :=
  s.modDev fun d => { d with st := .failed, failStep := d.step, failCode := code }

/-- The failing lanes of a bus in a report. -/
def reportLanes (r : StepReport) (bus : Nat) : List Nat := ((r.lanes.filter fun p => p.1 == bus).map (·.2)).eraseDups

/-- The failing case of a step of its own, if any (R19). -/
def reportFails (r : StepReport) (step : Nat) : Option Nat :=
  if step = 1 ∧ ! r.fuseOk then some 5
  else if step = 2 then
    match r.image with
    | some (_, false) => some 1
    | some (v, true) => if v < Config.rollbackCounter then some 2 else none
    | none => none
  else if step = 3 ∧ ! r.homeChannelsLock then some 4
  else if step = 4 ∧ r.lanes.any fun p => (reportLanes r p.1).length > 4 then some 4
  else none

/-- The descriptor of a profile from its moduli, NINFO, W and dies (R49). -/
def descriptor (mods : List Nat) (ninfo w : Nat) (dies : List Nat) : BitVec 128 :=
  BitVec.ofNat 128 (sumBy (fun c => (mods.getD c 1 - 1) * 2 ^ (8 * c) + dies.getD c 0 * 2 ^ (80 + 3 * c)) (List.range 8)
    + ninfo * 2 ^ 64 + w * 2 ^ 72 + 2 ^ 127)

/-- The descriptors on entry to READY (R51). -/
def readyProfiles : Tbl (BitVec 128) :=
  [(0, descriptor [241, 239, 233, 229, 227, 223, 251, 256] 6 16 [0, 1, 2, 3, 4, 5, 6, 7]),
   (1, descriptor [241, 239, 233, 229, 251, 256] 4 0 [0, 1, 2, 3, 6, 7]),
   (7, descriptor [5, 7, 9, 11, 13] 3 0 [0, 1, 2, 3, 4])]

/-- Step 3 locks the resonators of every port that is not mapped out: it starts training (R426). -/
def State.startPorts (s : State) : State :=
  (List.range 64).foldl (fun (s : State) p =>
    if (s.link p).st = .down then s.modLink p fun l => { l with st := .training, since := s.time } else s) s

/-- The time of entry to READY, from which TIME counts (R163): times that bring-up took down count from it too. -/
def State.zeroTime (s : State) : State :=
  { s with time := 0, links := s.links.map fun (p : Nat × LinkPort) => (p.1, { p.2 with since := 0 }) }

/-- A step has ended well: its parts are mapped out and the next begins, or the device is READY (R17, R19, R51). -/
def State.passStep (s : State) : State :=
  if s.dev.step < 8 then s.modDev fun d => { d with step := d.step + 1, stepAt := s.time }
  else
    let live := s.chLiveNow
    let deg := s.degradedNow
    (s.modDev fun d =>
      { d with st := .ready, step := 9, epoch := 1, chLive := live, degraded := deg, profiles := readyProfiles }).zeroTime

/-- Failing lanes are replaced by spares, the lowest number first (R431). -/
def State.swapLanes (s : State) (r : StepReport) : State :=
  r.lanes.eraseDups.foldl (fun (s : State) p => s.modBus p.1 fun b => { b with swapped := b.swapped ++ [p.2] }) s

/-- BRINGUP_STEP_END: the current step ends as its report says (R17 to R19, R23). -/
def execBringupStepEnd (s : State) : Host.Outcome State Fault Refusal :=
  match s.dev.st, s.arg.body with
  | .bringup, .step r =>
    let n := s.dev.step
    let out := (if n = 1 then s.dev.fuses else []) ++ r.failed.filter fun p => testedAt n p.kind && decide (p.idx < partCount p.kind)
    let s1 := out.foldl (fun (s : State) p => s.mapOutAt p) s
    let s1 := s1.modDev fun d => { d with degraded := d.degraded || ! out.isEmpty || (n == 4 && ! r.lanes.isEmpty) }
    if s.stepLate then .next (s.failBringup 3)
    else
      match reportFails r n with
      | some code => .next (s.failBringup code)
      | none =>
        if ! s1.floorsMet then .next (s.failBringup 4)
        else
          let s1 := if n = 3 then s1.startPorts else s1
          let s1 := if n = 4 then s1.swapLanes r else s1
          .next s1.passStep
  | _, _ => .next s

/-- BRINGUP_STEP_TIMEOUT (R17). -/
def execBringupStepTimeout (s : State) : Host.Outcome State Fault Refusal :=
  .next (match s.dev.st with
    | .bringup => if s.stepLate then s.failBringup 3 else s
    | _ => s)

/-- Whether a context has a life that a context-level fault or a destroy request ends (R87). -/
def CtxSt.alive (st : CtxSt) : Bool := st != .free && st != .destroyed

/-- CONTROL_DIE_ERROR: the device fails; every context enters FAULTED; nothing runs any more (R17, R20, R97). -/
def execControlDieError (s : State) : Host.Outcome State Fault Refusal :=
  .next (match s.dev.st with
    | .ready =>
      let s := (s.ctxs.filter fun p => p.2.st.alive && p.2.st != .faulted).foldl (fun (s : State) p => s.faultCtx p.1 none) s
      let s := { (s.teams.foldl (fun (s : State) p => s.removeTeam p.1) s) with copies := [] }
      s.modDev fun d => { d with st := .failed, failCode := 6, actions := [] }
    | _ => s)

/-! ## Service actions (R21, R22) -/

/-- Whether an action may be asked for: an HBM4 stack's retirement excludes every other in its tower (R22; log entry 26). -/
def State.excluded (s : State) (p : PartRef) : Bool :=
  s.stackRetiring (partTower p) || (p.kind == .hbmStack && s.dev.actions.any fun a => (partTower a.part) == (partTower p))

/-- The first action asked for on a part. -/
def State.firstAction (s : State) (p : PartRef) : Option Action := (s.dev.actions.find? fun a => a.part == p).map (·.act)

/-- A part is fenced (R16). -/
def State.fencePart (s : State) (p : PartRef) : State :=
  s.modDev fun d => { d with fenced := if d.fenced.contains p then d.fenced else p :: d.fenced }

/-- Ask for an action: it is refused with BUSY while a stack's retirement excludes it, and otherwise takes its place in the
order of its part (R22). -/
def State.askAction (s : State) (p : PartRef) (a : Action) : State :=
  if s.excluded p then s.answer .busy
  else (s.modDev fun d => { d with actions := d.actions ++ [⟨p, a⟩] }).answer .ok

/-- TS_BANK_FENCE: bank a (R21). -/
def execTsBankFence (s : State) : Host.Outcome State Fault Refusal :=
  request s fun s =>
    let p : PartRef := ⟨.tsBank, s.arg.a⟩
    if s.arg.a ≥ 256 then s.answer .badReq
    else if s.bankGone p then s.answer .badState
    else s.askAction p .fence

/-- TS_BANK_RETIRE: bank a (R21). -/
def execTsBankRetire (s : State) : Host.Outcome State Fault Refusal :=
  request s fun s =>
    let p : PartRef := ⟨.tsBank, s.arg.a⟩
    if s.arg.a ≥ 256 then s.answer .badReq
    else if s.dev.mapped.contains p then s.answer .badState
    else s.askAction p .retire

/-- HBM_STACK_RETIRE: stack a, whose pages are then migrated (R21, R22). -/
def execHbmStackRetire (s : State) : Host.Outcome State Fault Refusal :=
  request s fun s =>
    let p : PartRef := ⟨.hbmStack, s.arg.a⟩
    if s.arg.a ≥ 16 then s.answer .badReq
    else if s.dev.mapped.contains p then s.answer .badState
    else s.askAction p .retire

/-- Install an image on its service core (R24, R25). -/
def Device.install (d : Device) (i : FirmwareImage) : Device :=
  { d with images := i :: d.images.filter fun x => x.core != i.core || x.kind != i.kind }

/-- Whether a part's update is the one in progress: one service core at a time (R21). -/
def State.updating (s : State) (p : PartRef) : Bool :=
  ((s.dev.actions.find? fun a => a.part.kind == .firmware).map (·.part)) == some p

/-- Whether an address lies in an HBM4 stack (R276). -/
def inStack (k pa : Nat) : Bool := spaceOf pa == .hbm && bits pa 39 36 == k

/-- The entries of a page table that hold anything, where home serves it. -/
def State.tableEntries (s : State) (table n : Nat) : List Nat :=
  match s.home 8 table with
  | .here p =>
    (((s.mem.filter fun c => decide (p ≤ c.1 ∧ c.1 < p + 8 * n)).map fun c => (c.1 - p) / 8).eraseDups).map fun i =>
      ofBytes (s.homeBytes (p + 8 * i) 8)
  | _ => []

/-- Whether a page table, or one below it, names a page or a table in an HBM4 stack; the number counts the levels below (R269
to R271). -/
def State.treeNames (s : State) (k : Nat) : Nat → Nat → Bool
  | 0, table => (s.tableEntries table 32).any fun pte => bit pte 0 && inStack k (bits pte 47 16 * 65536)
  | n + 1, table =>
    (s.tableEntries table (if n = 2 then 8192 else 512)).any fun pte =>
      bit pte 0 && (if bit pte 1 then inStack k (bits pte 47 16 * 65536)
        else inStack k (bits pte 47 8 * 256) || s.treeNames k n (bits pte 47 8 * 256))

/-- Whether an HBM4 stack still holds what is not migrated: pages and tables of a context, frames that others forward to,
line maps, chunks with data, fault rings (R21, R298; DEDUCED: log entry 26). -/
def State.stackUsed (s : State) (k : Nat) : Bool :=
  (s.ctxs.any fun c => c.2.st.alive && (inStack k c.2.ptRoot || s.treeNames k 3 c.2.ptRoot
      || (c.2.ring.map fun r => inStack k r.addr).getD false))
    || s.towers.any fun t => (t.2.frames.any fun f => (f.2.st == .forward || f.2.st == .compressed) && inStack k f.2.ptr)
      || t.2.chunks.any fun c => decide (c.2.live > 0) && inStack k c.1

/-- SERVICE_ACTION_COMPLETE: the action in progress on a part completes: what it does to the part comes with the step of EPOCH
(R25). The retirement of a stack completes after its pages are migrated (R21). The actions that events of their own complete
are not this one's (R22). -/
def execServiceActionComplete (s : State) : Host.Outcome State Fault Refusal :=
  match s.arg.body with
  | .part p =>
    (match p.kind, s.firstAction p with
     | .tsBank, some .fence => .next ((s.fencePart p).actionDone p .fence)
     | .tsBank, some .retire => .next ((s.mapOut p).actionDone p .retire)
     | .hbmStack, some .retire =>
       .next (if s.stackUsed p.idx then s else ((s.mapOut p).fuse p).actionDone p .retire)
     | .firmware, some (.update i) =>
       .next (if s.updating p then (s.modDev fun d => d.install i).actionDone p (.update i) else s)
     | .bus, some .recalibrate =>
       .next ((s.modBus p.idx fun b => { b with trained := s.time }).actionDone p .recalibrate)
     | _, _ => .next s)
  | _ => .next s

/-! ## Firmware and attestation (R24, R25, R421) -/

/-- FIRMWARE_UPDATE: an image that fails its check is rejected (R24). -/
def execFirmwareUpdate (s : State) : Host.Outcome State Fault Refusal :=
  request s fun s =>
    match s.arg.body with
    | .image i =>
      if i.core ≥ 16 ∨ i.kind ≥ 4 then s.answer .badReq
      else if ! Config.sigVerifies i.digest i.signature then s.answer .sigFail
      else if i.version < Config.rollbackCounter then s.answer .rollback
      else s.askAction ⟨.firmware, i.core⟩ (.update i)
    | _ => s

/-- The digest of the image of a kind that runs (R25). -/
def Device.digestOf (d : Device) (kind : Nat) : BitVec 256 :=
  ((d.images.find? fun i => i.kind == kind).map (·.digest)).getD (Config.imageDigest kind)

/-- The retired-part map (R25). -/
def Device.partMap (d : Device) : Nat :=
  let at_ := fun (k : PartKind) (o : Nat) =>
    sumBy (fun i => if d.mapped.contains ⟨k, i⟩ then 2 ^ (o + i) else 0) (List.range (partCount k))
  at_ .channelDie 0 + at_ .l2Slice 32 + at_ .linkPort 224 + at_ .hbmStack 288 + at_ .tsBank 304

/-- The fuses that are written, as numbers in rising order: channel dies, L2 slices from 32, HBM4 stacks from 288 (R23). -/
def Device.fuseList (d : Device) : List Nat :=
  d.fuses.foldl (fun (l : List Nat) p => insertNat (p.idx + match p.kind with
    | .channelDie => 0
    | .l2Slice => 32
    | .hbmStack => 288
    | _ => 1024) l) []

/-- The bytes of the report that are signed (R25). The first field holds the version 1 in its first four bytes and the length
384 in the other four (DESIGN CHOICE: log entry 10). BOOTID shows from the reset on what bring-up step 2 draws, also before that
step (DESIGN CHOICE: log entry 10). -/
def Device.signed (d : Device) (nonce : BitVec 256) : List Byte :=
  toBytes 4 1 ++ toBytes 4 384 ++ toBytes 32 nonce.toNat ++ toBytes 16 Config.serial.toNat ++ toBytes 32 (Config.fuseDigest d.fuseList).toNat
    ++ ((List.range 4).flatMap fun k => toBytes 32 (d.digestOf k).toNat) ++ toBytes 88 d.partMap
    ++ toBytes 8 (Config.bootid d.boot).toNat ++ toBytes 8 (d.epoch % 2 ^ 32)

/-- The attestation report (R25). -/
def Device.attest (d : Device) (nonce : BitVec 256) : List Byte :=
  d.signed nonce ++ toBytes 64 (Config.sign (d.signed nonce)).toNat

/-- ATTESTATION_REQUEST: served in every state but OFF (R20, R25). -/
def execAttestationRequest (s : State) : Host.Outcome State Fault Refusal :=
  .next (match s.dev.st, s.arg.body with
    | .off, _ => s
    | _, .nonce n =>
      let r := s.dev.attest n
      (s.modDev fun d => { d with report := r }).answer .ok r
    | _, _ => s)

/-- The 8 bytes at an offset of the management window; none gives a fault response (R421). -/
def Device.window (d : Device) (off : Nat) : Option (List Byte) :=
  if off = 0 then some (toBytes 8 d.devstat)
  else if off = 8 then some (toBytes 8 (d.devNum + 65536 * bitNat d.bridge))
  else if 0x40 ≤ off ∧ off < 0x1C0 ∧ off % 8 = 0 then some (sliceBytes d.report (off - 0x40) 8)
  else none

/-- MANAGEMENT_WINDOW_READ: offset a, in every state but OFF (R20, R421). -/
def execManagementWindowRead (s : State) : Host.Outcome State Fault Refusal :=
  .next (match s.dev.st with
    | .off => s
    | _ => match s.dev.window s.arg.a with
      | some l => s.answer .ok l
      | none => s.answer .faultResponse)

/-- DEVICE_NUMBER_ASSIGN: number a and the bridge flag, before READY (R415, R422). -/
def execDeviceNumberAssign (s : State) : Host.Outcome State Fault Refusal :=
  .next (match s.dev.st with
    | .off => s
    | .failed => s.answer .notReady
    | .ready => s.answer .badState
    | .bringup =>
      if s.arg.a ≥ 1024 then s.answer .badReq
      else (s.modDev fun d => { d with devNum := s.arg.a, bridge := s.arg.flag }).answer .ok)

/-- CORE_CLOCK_THROTTLE: the core clock of tower a is throttled or released (R224). Timing apart, nothing changes. -/
def execCoreClockThrottle (s : State) : Host.Outcome State Fault Refusal :=
  .next (if s.arg.a ≥ 4 then s else s.modTower s.arg.a fun w => { w with throttled := s.arg.flag })

/-! ## Profiles (R49, R50) -/

/-- Whether two moduli share a factor. -/
def share (a b : Nat) : Bool := decide (Nat.gcd a b > 1)

/-- Whether some pair of a list is related. -/
def anyPair (r : Nat → Nat → Bool) : List Nat → Bool
  | [] => false
  | a :: t => t.any (r a) || anyPair r t

/-- Whether a descriptor with VALID = 1 is refused (R50). -/
def badProfile (d : BitVec 128) : Bool :=
  let v := d.toNat
  let r := descRun d
  let n := r.ninfo
  decide (n < 1 ∨ 6 < n) || bits v 71 67 != 0 || bits v 79 78 != 0 || bits v 126 104 != 0
    || r.mods.any (fun m => decide (m < 3)) || (List.range 8).any (fun c => decide (c ≥ n + 2) && bits v (8 * c + 7) (8 * c) != 0)
    || anyPair share r.mods || (r.mods.drop n).any (fun k => (r.mods.take n).any fun i => decide (k ≤ i))
    || anyPair (· == ·) r.dies

/-- PROFILE_WRITE: descriptor a (R50). -/
def execProfileWrite (s : State) : Host.Outcome State Fault Refusal :=
  request s fun s =>
    match s.arg.body with
    | .profile d =>
      if s.arg.a ≥ 8 then s.answer .badReq
      else if d.getLsbD 127 && badProfile d then s.answer .badProf
      else if s.ctxs.any fun p => p.2.st.alive && p.2.profile == s.arg.a then s.answer .inUse
      else (s.modDev fun v => { v with profiles := v.profiles.put s.arg.a d }).answer .ok
    | _ => s

/-! ## Contexts (R86 to R89, R457) -/

/-- Whether a must-be-zero field of CTXCFG is set (R88). -/
def cfgBad (c : DWord) : Bool := bits c.toNat 23 20 != 0 || bits c.toNat 63 30 != 0

/-- CTXCFG of a new context: PRIV, SBCHK and FPT of the request, SSTEP 0, PORTTO 1,000 and the context's number in CTXID (R86,
R88; log entry 36). -/
def newCfg (c : DWord) (n : Nat) : DWord := BitVec.ofNat 64 (bits c.toNat 6 0 + 1000 * 2 ^ 8 + n * 2 ^ 24)

/-- CONTEXT_CREATE (R87, R457). -/
def execContextCreate (s : State) : Host.Outcome State Fault Refusal :=
  request s fun s =>
    match s.arg.body with
    | .create r =>
      if r.ctx ≥ 64 then s.answer .badReq
      else if (s.ctx r.ctx).st ≠ .free then s.answer .busy
      else if r.ptRoot % 65536 ≠ 0 ∨ spaceOf r.ptRoot ≠ .hbm ∨ cfgBad r.ctxcfg ∨ r.profile ≥ 8
          ∨ r.saveBase + r.saveSize > 2 ^ 52 ∨ r.snapBase + r.snapSize > 2 ^ 52 then s.answer .badReq
      else if ! (s.dev.profiles.findD r.profile 0).getLsbD 127 then s.answer .badProf
      else
        (s.modCtx r.ctx fun c =>
          { freshCtx with
            st := .created, ptRoot := r.ptRoot, profile := r.profile, ctxcfg := newCfg r.ctxcfg r.ctx, codeBase := r.codeBase
            saveBase := r.saveBase, saveSize := r.saveSize, snapBase := r.snapBase, snapSize := r.snapSize
            tensorGen := c.tensorGen }).answer .ok
    | _ => s

/-- CTXCFG_SET: the value of context a, for groups created afterwards (R89). CTXID stays. -/
def execCtxcfgSet (s : State) : Host.Outcome State Fault Refusal :=
  request s fun s =>
    match s.arg.body with
    | .dword v =>
      if s.arg.a ≥ 64 ∨ cfgBad v then s.answer .badReq
      else if ! (s.ctx s.arg.a).st.alive then s.answer .badState
      else (s.modCtx s.arg.a fun c => { c with ctxcfg := BitVec.ofNat 64 (bits v.toNat 19 0 + s.arg.a * 2 ^ 24) }).answer .ok
    | _ => s

/-- A launch of a context that is destroyed is cancelled (R87, R145). -/
def State.cancelLaunch (s : State) (n : Nat) : State :=
  match s.launches.find n with
  | none => s
  | some l =>
    match l.st with
    | .submitted => s.endSubmitted n 2 0
    | _ => s.drainLaunch n 2 noDetail

/-- CONTEXT_DESTROY: launches are cancelled, queues and task queues destroyed, lids unbound (R87, R129, R378). Buffers are
freed as the teams go. -/
def execContextDestroy (s : State) : Host.Outcome State Fault Refusal :=
  request s fun s =>
    let c := s.arg.a
    if c ≥ 64 then s.answer .badReq
    else if ! (s.ctx c).st.alive then s.answer .badState
    else
      let s := s.modCtx c fun x => { x with st := .destroyed, lids := [] }
      let s := (s.launches.filter fun p => p.2.ctx == c).foldl (fun (s : State) p => s.cancelLaunch p.1) s
      let s := (s.queues.filter fun p => p.2.ctx == c && p.2.live).foldl (fun (s : State) p =>
        s.setQueue p.1 .destroyed p.2.err) s
      let s := s.cancelTasks c
      let s := s.clusters.foldl (fun (s : State) p => p.2.queues.foldl (fun (s : State) q =>
        if q.2.ctx = c then (s.modTq p.1 q.1 fun q => { q with destroying := true }).reapQueue p.1 q.1 else s) s) s
      s.answer .ok

/-- Whether nothing of a context is left (R87). -/
def State.released (s : State) (c : Nat) : Bool :=
  (s.teams.all fun p => p.2.ctx != c) && (s.launches.all fun p => p.2.ctx != c || p.2.hasEnded)
    && (s.queues.all fun p => p.2.ctx != c || ! p.2.live) && (s.clusters.all fun p => p.2.queues.all fun q => q.2.ctx != c)
    && (s.copies.all fun p => p.2.ctx != c) && s.ends.all fun q => q.ctx != c

/-- Translations and cached lines of a context leave the clusters (R273, R274). -/
def State.forgetCtx (s : State) (c : Nat) : State :=
  let s := s.clusters.foldl (fun (s : State) p =>
    (p.2.tlb.filter fun e => e.ctx == c).foldl (fun (s : State) e => s.dropTlb p.1 e) s) s
  let s := s.cores.foldl (fun (s : State) p => s.flushL1 p.1 false fun l => l.ctx == c) s
  { s with clusters := s.clusters.map fun (p : Nat × Cluster) => (p.1, { p.2 with const := p.2.const.filter fun l => l.ctx != c }) }

/-- CONTEXT_RELEASED: a DESTROYED context a of which nothing is left becomes FREE; its tensors, its sessions and the writes of
front ends that still wait on its pages go (R87). -/
def execContextReleased (s : State) : Host.Outcome State Fault Refusal :=
  let c := s.arg.a
  if (s.ctx c).st ≠ .destroyed ∨ ! s.released c then .next s
  else
    let s := s.forgetCtx c
    let s := { s with towers := s.towers.map fun (p : Nat × Tower) =>
      (p.1, { p.2 with sessions := p.2.sessions.filter fun x => x.2.ctx != c }) }
    let s := { s with fronts := s.fronts.filter fun w => w.ctx != c }
    .next (s.modCtx c fun x => { freshCtx with tensorGen := x.tensorGen })

/-- PARK_TIMEOUT: context a has been PARKED for 100 ms (R87). -/
def execParkTimeout (s : State) : Host.Outcome State Fault Refusal :=
  let c := s.ctx s.arg.a
  if c.st = .parked ∧ s.time ≥ c.parkedSince + 100000000 then .next ((s.evict s.arg.a).getD s) else .next s

/-- PARK_RENEWAL: the context manager renews the rows of context a's PARK buffers off the cores (R109, R234). -/
def execParkRenewal (s : State) : Host.Outcome State Fault Refusal :=
  let mine := fun (b : Nat × Buf) => b.2.parked && ((s.teams.find b.2.team).map (·.ctx)) == some s.arg.a
  .next { s with cores := s.cores.map fun (p : Nat × Core) =>
    (p.1, (p.2.bufs.filter mine).foldl (fun (c : Core) b => c.renewBuf s.time b.2) p.2) }

/-! ## Tensors (R371 to R373) -/

/-- Whether a tensor request is malformed (R371). -/
def tensorBad (r : TensorReq) : Bool :=
  decide (r.ctx ≥ 64) || ! [1, 2, 4, 8].contains r.esz || decide (r.ndim < 1 ∨ 5 < r.ndim) || r.dims.length != 5
    || r.dims.any (fun d => decide (d < 1 ∨ 65535 < d)) || (r.dims.drop r.ndim).any (· != 1) || decide (r.layout > 1)
    || decide (r.tower > 3)

/-- A tensor as a request describes it. -/
def tensorFor (r : TensorReq) (gen start : Nat) : Tensor :=
  let t : Tensor := { gen := gen, esz := r.esz, ndim := r.ndim, dims := r.dims, layout := r.layout, tower := r.tower
                      start := start, size := 0, destroying := false }
  { t with size := t.offset (r.dims.map (· - 1)) + r.esz }

/-- The length of the range that a tensor occupies (R372). -/
def Tensor.span (t : Tensor) : Nat := ceilDiv t.size 262144 * 262144

/-- The ranges in use of a tower's tensor store, by start. -/
def State.tsUsed (s : State) (tower : Nat) : List (Nat × Nat) :=
  sortBy (·.1) (s.ctxs.flatMap fun c => (c.2.tensors.filter fun t => t.2.tower == tower).map fun t => (t.2.start, t.2.span))

/-- The lowest free range of `n` bytes above `a`, among ranges in rising order. -/
def firstGap (n : Nat) : Nat → List (Nat × Nat) → Nat
  | a, [] => a
  | a, (b, m) :: t => if a + n ≤ b then a else firstGap n (max a (b + m)) t

/-- TENSOR_CREATE: it takes the lowest free range, which reads as zero, and the lowest free entry of its context's table
(R371 to R373). -/
def execTensorCreate (s : State) : Host.Outcome State Fault Refusal :=
  request s fun s =>
    match s.arg.body with
    | .tensor r =>
      if tensorBad r then s.answer .badReq
      else if ! (s.ctx r.ctx).st.alive then s.answer .badState
      else
        let c := s.ctx r.ctx
        let k := c.tensors.firstFree 1024 0
        let n := (tensorFor r 0 0).span
        let a := firstGap n 0 (s.tsUsed r.tower)
        if k ≥ 1024 ∨ a + n > 2 ^ 36 then s.answer .noSpace
        else
          let gen := nextGen (c.tensorGen.findD k 0)
          let s := s.modCtx r.ctx fun c =>
            { c with tensors := c.tensors.put k (tensorFor r gen a), tensorGen := c.tensorGen.put k gen }
          let s := s.modTower r.tower fun w =>
            { w with ts := w.ts.filter fun p => ! decide (a ≤ p.1 ∧ p.1 < a + n)
                     tsPoison := w.tsPoison.filter fun p => ! decide (a ≤ 32 * p ∧ 32 * p < a + n) }
          s.answer .ok (toBytes 4 (k + gen * 2 ^ 24))
    | _ => s

/-- TENSOR_DESTROY: tensor b of context a; it is gone, and the request answered, once no copy names it (R371). -/
def execTensorDestroy (s : State) : Host.Outcome State Fault Refusal :=
  request s fun s =>
    match (s.ctx s.arg.a).tensors.find s.arg.b with
    | none => s.answer .badReq
    | some t =>
      if t.destroying then s.answer .badState
      else
        (s.modCtx s.arg.a fun c => { c with tensors := c.tensors.put s.arg.b { t with destroying := true } }).reapTensors s.arg.a

/-! ## Decode sessions (R368) -/

/-- DECODE_SESSION_OPEN: the lowest free number (R368). -/
def execDecodeSessionOpen (s : State) : Host.Outcome State Fault Refusal :=
  request s fun s =>
    match s.arg.body with
    | .session r =>
      if r.tower ≥ 4 ∨ r.ctx ≥ 64 ∨ r.w < 1 ∨ 8192 < r.w ∨ r.h < 1 ∨ 8192 < r.h ∨ r.len = 0 ∨ r.va + r.len > 2 ^ 52 then s.answer .badReq
      else if ! (s.ctx r.ctx).st.alive then s.answer .badState
      else
        let n := (s.tower r.tower).sessions.firstFree 64 0
        if n ≥ 64 then s.answer .tooMany
        else
          let v : Session := { ctx := r.ctx, hevc := r.hevc, tenBit := r.tenBit, va := r.va, len := r.len, w := r.w, h := r.h }
          (s.modTower r.tower fun w => { w with sessions := w.sessions.put n v }).answer .ok (toBytes 1 n)
    | _ => s

/-- DECODE_SESSION_CLOSE: session b of tower a (R368). -/
def execDecodeSessionClose (s : State) : Host.Outcome State Fault Refusal :=
  request s fun s =>
    if ((s.tower s.arg.a).sessions.find s.arg.b).isNone then s.answer .badReq
    else (s.modTower s.arg.a fun w => { w with sessions := w.sessions.del s.arg.b }).answer .ok

end Sys2Proof.Machine
end

