-- ==== Sys2Proof/Machine/Pages.lean ====
section
/-! DEFINITION. What the driver does about pages: fault rings and RESOLVE (R283, R284), the home frame table, RECODE, MIGRATE
and RELEASE (R281, R297 to R299), chunks (R292 to R294), and the retirement of L2 slices (R280). -/

namespace Sys2Proof.Machine

open Sys2Proof

/-! ## Fault rings (R283) -/

/-- FAULT_RING_SET: the ring of context a lies at b and holds 2^c records (R283). Its address is physical: log entry 12. -/
def execFaultRingSet (s : State) : Host.Outcome State Fault Refusal :=
  request s fun s =>
    let c := s.arg.a
    let k := s.arg.c
    if c ≥ 64 ∨ k < 6 ∨ 16 < k ∨ s.arg.b % 32 ≠ 0 ∨ spaceOf s.arg.b ≠ .hbm ∨ spaceOf (s.arg.b + 32 * 2 ^ k - 1) ≠ .hbm then
      s.answer .badReq
    else if ! (s.ctx c).st.alive then s.answer .badState
    else ((s.modCtx c fun x => { x with ring := some { addr := s.arg.b, k := k, head := 0, tail := 0 } }).drainFaults c).answer .ok

/-- FAULT_RING_HEAD_ADVANCE: HEAD of context a's ring becomes b, and records that waited for room are written (R283). -/
def execFaultRingHeadAdvance (s : State) : Host.Outcome State Fault Refusal :=
  match (s.ctx s.arg.a).ring with
  | none => .next s
  | some r =>
    if r.head ≤ s.arg.b ∧ s.arg.b ≤ r.tail then
      .next ((s.modCtx s.arg.a fun x => { x with ring := some { r with head := s.arg.b } }).drainFaults s.arg.a)
    else .next s

/-! ## The store side log (R284 to R286, R294) -/

/-- How the replay of a logged entry ends. -/
inductive Replay where
  | done (s : State)
  | again (reserve : Bool) (s : State)
  | fault (code : Nat) (s : State)
  | held

/-- Perform a masked line as a store does (R306). -/
def State.storeMasked (s : State) (core ctx vline pa : Nat) (e : TlbEntry) (l : Line) : State :=
  if cacheable e pa then
    let (x, s) := s.fillL1 core ctx (vline * 128) pa e
    s.putL1 core { x with line := l.over x.line }
  else
    match s.home 8 pa with
    | .here p => s.homeMerge p l.data l.dirty
    | _ => s

/-- The runs of dirty bytes of a line: where each begins, and its bytes. -/
def Line.runs (l : Line) : List (Nat × List Byte) :=
  ((List.range 128).foldl (fun (a : List (Nat × List Byte)) j =>
    if ! l.dirty.getLsbD j then a
    else match a with
      | (o, bs) :: t => if o + bs.length = j then (o, bs ++ [lineByte l.data j]) :: t else (j, [lineByte l.data j]) :: a
      | [] => [(j, [lineByte l.data j])]) []).reverse

/-- A logged store to a MIRROR page is mirrored as it is performed; it was issued when it was logged (R121). -/
def State.mirrorLogged (s : State) (x : LogEntry) (pa : Nat) (e : TlbEntry) : State :=
  if e.mirror then
    { s with mirrors := s.mirrors.put x.seq { gid := x.gid, launch := x.launch, ctx := x.ctx, pa := pa, since := none } }
  else s

/-- Perform a logged entry at its place. -/
def State.performLogged (s : State) (core : Nat) (x : LogEntry) (pa : Nat) (e : TlbEntry) : State :=
  match x.red with
  | none =>
    if spaceOf pa = .link then
      x.line.runs.foldl (fun (s : State) p => s.post (.write p.2 []) x.gid x.launch x.ctx (pa + p.1) p.2.length) s
    else (s.storeMasked core x.ctx x.vline pa e x.line).mirrorLogged x pa e
  | some (op, wide, off, v) =>
    let n := if wide then 8 else 4
    if spaceOf pa = .link then s.post (.atomic op v 0) x.gid x.launch x.ctx (pa + off) n
    else ((s.expel core (pa + off)).atomHome x.launch (pa + off) n fun m => atomOp op n m v.toNat 0).2

/-- The first byte that an entry accesses (R283). -/
def LogEntry.firstByte (x : LogEntry) : Nat :=
  x.vline * 128 + match x.red with
    | some (_, _, off, _) => off
    | none => ((List.range 128).find? fun j => x.line.dirty.getLsbD j).getD 0

/-- Replay one entry: its page is walked again (R284, R294). -/
def State.replayOne (s : State) (core : Nat) (x : LogEntry) : Replay :=
  let k : AccKind := if x.red.isSome then .atomic else .store
  match s.reach (clusterOfCore core) x.ctx (cfgPriv (s.ctx x.ctx).ctxcfg) k (x.vline * 128) 128 with
  | (.ok pa e, s) =>
    if spaceOf pa ≠ .link ∧ s.reserveHolds pa then .again true (s.reportFault x.ctx x.firstByte 5 core 0 false false)
    else .done (s.performLogged core x pa e)
  | (.absent pte l3 attr, s) => .again false (s.reportFault x.ctx x.firstByte 1 core pte l3 attr)
  | (.trap code _, s) => .fault code s
  | _ => .held

/-- The detail of a fault that a logged entry raises (R284). -/
def LogEntry.detail (x : LogEntry) (code : Nat) : FaultInfo :=
  { team := x.tnum, group := x.gnum, lane := 0, stage := x.stage, pc := x.clause, code := code, part := 0, pkind := 0 }

/-- An entry leaves its core's log. -/
def State.dropLogged (s : State) (core : Nat) (x : LogEntry) : State :=
  s.modCore core fun c => { c with log := c.log.filter fun y => y.seq != x.seq }

/-- Replay entries in issue order; none if a home holds one of them. -/
def State.replayAll (s : State) (core : Nat) : List LogEntry → Option State
  | [] => some s
  | x :: t =>
    match s.replayOne core x with
    | .done s => (s.dropLogged core x).replayAll core t
    | .again r s =>
      (s.modCore core fun c => { c with log := c.log.map fun y => if y.seq = x.seq then { y with reserve := r } else y }).replayAll
        core t
    | .fault code s => ((s.dropLogged core x).faultLaunch x.launch (x.detail code)).replayAll core t
    | .held => none

/-- The entries of a core's log that satisfy a test, in issue order. -/
def Core.logged (c : Core) (p : LogEntry → Bool) : List LogEntry := sortBy (·.seq) (c.log.filter p)

/-- Replay the entries of every core that satisfy a test. -/
def State.replayWhere (s : State) (p : LogEntry → Bool) : Option State :=
  s.cores.foldl (fun (o : Option State) c => o.bind fun s => s.replayAll c.1 ((s.core c.1).logged p)) (some s)

/-! ## RESOLVE (R284, R144, R358, R389) -/

/-- Whether the page at a unit of 64 KiB is one of 2 MiB: it is translated by a level-2 leaf, or its walk ends above level 3
(R268, R284; DEDUCED: log entry 91). -/
def State.bigPage (s : State) (ctx page : Nat) : Bool :=
  match s.walkFrom ctx (page * 65536) 3 (s.ctx ctx).ptRoot with
  | .ok e => e.big
  | .absent _ level3 => ! level3
  | _ => false

/-- The units of 64 KiB of the page that RESOLVE names. -/
def State.pageUnits (s : State) (ctx page : Nat) : List Nat :=
  if s.bigPage ctx page then (List.range 32).map fun k => page / 32 * 32 + k else [page]

/-- Whether a logged entry waits on a page of a context. -/
def LogEntry.onPage (x : LogEntry) (ctx : Nat) (ps : List Nat) : Bool :=
  x.ctx == ctx && ps.contains (x.vline / 512) && ! x.reserve

/-- The faults of a page are no longer unresolved, those of the chunk reserve apart (R284, R294). -/
def State.forgetFault (s : State) (ctx : Nat) (ps : List Nat) : State :=
  s.modCtx ctx fun c => { c with faults := c.faults.filter fun f => ! ps.contains f.page || f.kind == 5 }

/-- Whether a group of a context waits on a page: the first of those it needs, or any of them. -/
def State.waitsOnPage (s : State) (ctx : Nat) (on : Nat → Bool) (g : Group) : Bool :=
  g.st == .waiting && ((s.teams.find g.team).map (·.ctx)) == some ctx && (match g.wait with
    | some ⟨.page va _, _, _, _, _⟩ => on (va / 65536)
    | _ => false)

/-- Groups that wait on a page try again. After FAIL all that wait on pages of the context do, told which page failed: one may
need it beside the page that it waits on (R284). -/
def State.wakePage (s : State) (ctx : Nat) (ps : List Nat) (failed : Bool) : State :=
  { s with groups := s.groups.map fun (p : Nat × Group) =>
      if s.waitsOnPage ctx (fun n => failed || ps.contains n) p.2 then
        (p.1, { p.2 with st := .ready, age := s.tick
                         wait := if failed then p.2.wait.map fun w =>
                           { w with lim := ps.headD 0, phase := if ps.length = 1 then 1 else 2 } else none })
      else p }

/-- Change every task of a context on every cluster. -/
def State.modTasks (s : State) (ctx : Nat) (f : Nat → TaskQueue → Task → Task) : State :=
  { s with clusters := s.clusters.map fun (p : Nat × Cluster) =>
      let one := fun (q : Nat × TaskQueue) =>
        if q.2.ctx = ctx then (q.1, { q.2 with tasks := q.2.tasks.map (f p.1 q.2) }) else q
      (p.1, { p.2 with queues := p.2.queues.map one }) }

/-- RESOLVE OK: logged entries are replayed, then what waits tries again (R284). -/
def State.resolveOk (s : State) (ctx page : Nat) : Option State :=
  let ps := s.pageUnits ctx page
  ((s.forgetFault ctx ps).replayWhere fun x => x.onPage ctx ps).map fun s =>
    let s := s.wakePage ctx ps false
    (s.modTasks ctx fun _ _ t => { t with hold := false }).goOn

/-- Copies that need a page complete without it, and their teams fault (R358, R370). -/
def State.failCopies (s : State) (ctx : Nat) (ps : List Nat) : State :=
  s.copies.foldl (fun (s : State) p =>
    let lost := (s.copyPages p.2).filter fun x => x.1 == ctx && ps.contains x.2 && s.pageAway (clusterOfCore p.2.core) x.1 x.2
    if p.2.full || lost.isEmpty then s
    else
      let num := ((s.groups.find p.2.gid).map (·.num)).getD 0
      (s.modCopy p.1 fun c => { c with failed := lost.map (·.2) ++ c.failed }).faultTeam p.2.team num 0
        (if p.2.prologue then exitPc else p.2.clause) 0x10 0 0) s

/-- A team whose prologue waits for its chain record on a page faults (R370). -/
def State.failPrologues (s : State) (ctx : Nat) (ps : List Nat) : State :=
  s.teams.foldl (fun (s : State) p =>
    match p.2.binds, s.launchOf p.2 with
    | (j, b) :: _, some l =>
      if p.2.ctx = ctx ∧ ([0, 64].any fun o =>
          let u := (l.chainVa b + o) / 65536
          ps.contains u && s.pageAway (clusterOfCore (p.2.cores.getD j 0)) ctx u) then
        s.faultTeam p.1 0 0 exitPc 0x10 0 0
      else s
    | _, _ => s) s

/-- A team that owns logged entries of a page faults; the entries go (R284). -/
def State.failLogged (s : State) (ctx : Nat) (ps : List Nat) : State :=
  s.cores.foldl (fun (s : State) c =>
    ((s.core c.1).logged fun x => x.onPage ctx ps).foldl (fun (s : State) x =>
      (s.dropLogged c.1 x).faultLaunch x.launch (x.detail 0x10)) s) s

/-- The addresses in memory on which an operation under a counter may wait. -/
def opWaitsAt : OpAct → List Nat
  | .rel lid _ => [lid]
  | .sigadd va _ => [va]
  | .sigwait va _ _ _ => [va]
  | .ttqMem va => [va]
  | .entry l => if copyKind (field l 1 1) (field l 3 1) = .xform then [(entryOp l 3).toNat, (entryOp l 3).toNat + 64] else []
  | _ => []

/-- An operation under a counter that waits on a page cannot trap precisely: it is dropped and its team faults (log entry
33). -/
def State.failOps (s : State) (ctx : Nat) (ps : List Nat) : State :=
  s.groups.foldl (fun (s : State) p =>
    if ((s.teams.find p.2.team).map (·.ctx)) == some ctx then
      (p.2.ops.filter fun o => (opWaitsAt o.act).any fun va =>
          ps.contains (va / 65536) && s.pageAway (clusterOf p.1) ctx (va / 65536)).foldl
        (fun (s : State) o => ((s.dropReads o.id).opDone p.1 o {}).faultTeam p.2.team p.2.num 0 o.clause 0x10 0 0) s
    else s) s

/-- The pages that a task needs before it can go on (R385, R389): of its signals, of its operands, and at its end of its SIG
and its slot. -/
def Task.pagesAhead (q : TaskQueue) (t : Task) : List Nat :=
  let f := t.fields
  let unit := fun (va : Nat) => if va = 0 then [] else [va / 65536]
  if t.worked || t.st == .ended then unit f.sig ++ [(q.slotVa t.n + 0x38) / 65536]
  else match t.st with
    | .queued | .waiting => unit f.dsig ++ unit f.sig
    | _ => f.ranges.1.flatMap fun r => (List.range ((r.1 % 65536 + r.2 + 65535) / 65536)).map fun k => r.1 / 65536 + k

/-- A task without pages that it waited for: it ends FAULT; at its end it is reported without the place that the page held, and
OK becomes FAULT (R388, R389). -/
def Task.lacks (lost : List Nat) (t : Task) : Task :=
  if t.worked || t.st == .ended then
    let n := t.status.toNat
    { t with failed := lost ++ t.failed
             status := if n % 16 = endOk then BitVec.ofNat 64 (n - endOk + endFault + 0x10 * 2 ^ 16 + 2 ^ 24) else t.status }
  else t.fault 0x10 1

/-- Tasks that wait on a page end with a fault (R389). -/
def State.failTasks (s : State) (ctx : Nat) (ps : List Nat) : State :=
  s.modTasks ctx fun cl q t =>
    let lost := (t.pagesAhead q).filter fun p => ps.contains p && s.pageAway cl ctx p
    if lost.isEmpty then t else t.lacks lost

/-- End sequences that wait on a page stop, and the service cores log the block (R144). -/
def State.failEnds (s : State) (ctx : Nat) (ps : List Nat) : State :=
  let (out, rest) := s.ends.partition fun q => q.ctx == ctx && ps.contains (q.block / 65536)
  let s : State := { s with ends := rest, svcLog := out.map (fun q => SvcLog.endBlock q.block) ++ s.svcLog }
  out.foldl (fun (s : State) q => s.dropReads q.id) s

/-- Writes of front ends that wait on a page are dropped (log entry 79). -/
def State.failFronts (s : State) (ctx : Nat) (ps : List Nat) : State :=
  { s with fronts := s.fronts.filter fun w =>
      ! (w.ctx == ctx && ps.contains (w.va / 65536) && s.pageAway (12 * w.tower) ctx (w.va / 65536)) }

/-- RESOLVE FAIL (R284). -/
def State.resolveFail (s : State) (ctx page : Nat) : State :=
  let ps := s.pageUnits ctx page
  let s := (s.forgetFault ctx ps).wakePage ctx ps true
  let s := ((s.failCopies ctx ps).failPrologues ctx ps).failLogged ctx ps
  (((s.failOps ctx ps).failTasks ctx ps).failEnds ctx ps).failFronts ctx ps

/-- RESOLVE: the driver's answer for the page of address b of context a (R284). It waits while the home of a logged entry
holds it. -/
def execResolve (s : State) : Host.Outcome State Fault Refusal :=
  request s fun s =>
    let page := s.arg.b / 65536
    if s.arg.a ≥ 64 ∨ 2 ^ 52 ≤ s.arg.b then s.answer .badReq
    else if s.arg.flag then
      (match s.resolveOk s.arg.a page with
       | some s => s.answer .ok
       | none => s)
    else (s.resolveFail s.arg.a page).answer .ok

/-! ## Chunks and the reserve (R293, R294) -/

/-- FREECNT or RESERVE of a tower changed: the driver is interrupted once when FREECNT comes down to RESERVE (R294). -/
def State.noteReserve (s : State) (t : Nat) : State :=
  let w := s.tower t
  let low := decide (w.freeList.length ≤ w.reserve)
  let s := s.modTower t fun w => { w with reserveTold := low }
  if low && ! w.reserveTold then s.interrupt (.reserve t) else s

/-- The chunks of a fill. -/
def chunksFrom (base n : Nat) : List Nat := (List.range n).map fun k => base + 2048 * k

/-- Whether a chunk may be put on a tower's free list (R19, R294): in the tower's HBM, in a stack that is in use and a NORMAL
frame, not there already. -/
def State.fillable (s : State) (t c : Nat) : Bool :=
  let w := s.tower t
  spaceOf c == .hbm && ! s.stackGone c && homeTower c == t && c % 2048 == 0 && (s.frame c).st == .normal && ! w.freeList.contains c
    && (w.chunks.find c).isNone

/-- CHUNK_LIST_FILL: tower a takes c chunks from address b on (R294). -/
def execChunkListFill (s : State) : Host.Outcome State Fault Refusal :=
  request s fun s =>
    let cs := chunksFrom s.arg.b s.arg.c
    if s.arg.a ≥ 4 ∨ ! cs.all (s.fillable s.arg.a) then s.answer .badReq
    else ((s.modTower s.arg.a fun w => { w with freeList := w.freeList ++ cs }).noteReserve s.arg.a).answer .ok

/-- CHUNK_LIST_DRAIN: tower a gives up to b chunks back, the first of its list; the answer names them (R294). -/
def execChunkListDrain (s : State) : Host.Outcome State Fault Refusal :=
  request s fun s =>
    if s.arg.a ≥ 4 then s.answer .badReq
    else
      let cs := (s.tower s.arg.a).freeList.take s.arg.b
      ((s.modTower s.arg.a fun w => { w with freeList := w.freeList.drop s.arg.b }).noteReserve s.arg.a).answer .ok
        (cs.flatMap (toBytes 8))

/-- Whether a window frame of a tower is COMPRESSED (R294). -/
def Tower.compresses (w : Tower) : Bool := w.frames.any fun p => p.2.st == .compressed

/-- RESERVE_SET: RESERVE of tower a becomes b (R294). -/
def execReserveSet (s : State) : Host.Outcome State Fault Refusal :=
  request s fun s =>
    if s.arg.a ≥ 4 then s.answer .badReq
    else if (s.tower s.arg.a).compresses && decide (s.arg.b < 49152) then s.answer .badRes
    else ((s.modTower s.arg.a fun w => { w with reserve := s.arg.b }).noteReserve s.arg.a).answer .ok

/-- A window frame of a tower becomes COMPRESSED: a smaller RESERVE is raised to 49,152, and the driver is interrupted
(R294). -/
def State.raiseReserve (s : State) (t : Nat) : State :=
  if (s.tower t).reserve < 49152 then
    (s.modTower t fun w => { w with reserve := 49152, reserveTold := decide (w.freeList.length ≤ 49152) }).interrupt (.reserve t)
  else s

/-- The tower that is home to a page of a context, as the tables stand. -/
def State.pageTower (s : State) (ctx page : Nat) : Option Nat :=
  match s.walkFrom ctx (page * 65536) 3 (s.ctx ctx).ptRoot with
  | .ok e => some (homeTower (homeKey e.pa))
  | _ => none

/-- The faults of the chunk reserve of a tower are over (R294). -/
def State.forgetReserve (s : State) (t : Nat) : State :=
  { s with ctxs := s.ctxs.map fun (p : Nat × Context) =>
      (p.1, { p.2 with faults := p.2.faults.filter fun f => f.kind != 5 ||
        (match s.pageTower p.1 f.page with
         | some u => u != t
         | none => false) }) }

/-- CHUNK_RESERVE_REPLAY: FREECNT of tower a exceeds RESERVE + 1,024; what its reserve held is replayed (R294). -/
def execChunkReserveReplay (s : State) : Host.Outcome State Fault Refusal :=
  let t := s.arg.a
  if (s.tower t).freeList.length ≤ (s.tower t).reserve + 1024 then .next s
  else
    match (s.forgetReserve t).replayWhere fun x => x.reserve && s.pageTower x.ctx (x.vline / 512) == some t with
    | none => .next s
    | some s =>
      .next { s with groups := s.groups.map fun (p : Nat × Group) =>
        match p.2.wait with
        | some w =>
          if p.2.st = .waiting ∧ w.kind = .reserve ∧ w.lim = t then
            (p.1, { p.2 with st := .ready, age := s.tick, wait := some { w with phase := 1 } }) else p
        | none => p }

/-- HOTIDLE_SET: HOTIDLE of tower a becomes b µs (R293). -/
def execHotidleSet (s : State) : Host.Outcome State Fault Refusal :=
  request s fun s =>
    if s.arg.a ≥ 4 ∨ s.arg.b < 1 ∨ 1023 < s.arg.b then s.answer .badReq
    else (s.modTower s.arg.a fun w => { w with hotIdle := s.arg.b }).answer .ok

/-- L2_EVICTION_WRITEBACK: home line a (a line number) is written back if it is dirty, and leaves its slice (R292). -/
def execL2EvictionWriteback (s : State) : Host.Outcome State Fault Refusal :=
  let key := s.arg.a * 128
  match s.l2 key with
  | none => .next s
  | some _ =>
    let s := s.writeBackHome key
    match s.l2 key with
    | some l => .next (if l.dirty then s else s.dropHome key)
    | none => .next s

/-! ## The home frame table (R281) -/

/-- The lines of a frame, by address. -/
def frameLines (pa : Nat) : List Nat := (List.range 512).map fun k => pa / 65536 * 65536 + 128 * k

/-- The lines of a frame that a home slice holds. -/
def State.frameTags (s : State) (pa : Nat) : List Nat := (frameLines pa).filter fun a => (s.l2 a).isSome

/-- Write back and drop the lines of a frame that a home slice holds. -/
def State.clearFrame (s : State) (pa : Nat) : State :=
  (s.frameTags pa).foldl (fun (s : State) a => (s.writeBackHome a).dropHome a) s

/-- Tasks that were held try again. -/
def State.freeTasks (s : State) : State :=
  (List.range 64).foldl (fun (s : State) c => s.modTasks c fun _ _ t => { t with hold := false }) s

/-- Whether an address is that of a frame in HBM, of a stack that is in use (R19), or in the compressed window. -/
def State.isFrame (s : State) (pa : Nat) : Bool :=
  pa % 65536 == 0 && ((spaceOf pa == .hbm && ! s.stackGone pa) || spaceOf pa == .window)

/-- Whether an address can be that of a line map of a tower (R19, R281, R288). -/
def State.mapPlace (s : State) (t pa : Nat) : Bool :=
  pa % 4096 == 0 && spaceOf pa == .hbm && ! s.stackGone pa && homeTower pa == t

/-- The state and pointer of an entry, if they are ones that R281 admits for a frame. -/
def State.frameEntry (s : State) (pa state ptr : Nat) : Option FrameSt :=
  match state with
  | 0 => if ptr = 0 then some .normal else none
  | 1 => if spaceOf pa = .window ∧ s.mapPlace (homeTower pa) ptr then some .compressed else none
  | 2 => if s.isFrame ptr then some .forward else none
  | 3 => if ptr = 0 then some .held else none
  | _ => none

/-- FRAME_TABLE_SET: the table of a tower is placed in its HBM before the first context is created, or an entry is set
(R281). -/
def execFrameTableSet (s : State) : Host.Outcome State Fault Refusal :=
  request s fun s =>
    match s.arg.body with
    | .frame (.place t base) =>
      if t ≥ 4 ∨ spaceOf base ≠ .hbm ∨ homeTower base ≠ t ∨ homeTower (base + 2 ^ 27 - 1) ≠ t ∨ spaceOf (base + 2 ^ 27 - 1) ≠ .hbm
          ∨ base % 16 ≠ 0 ∨ s.stackGone base then s.answer .badReq
      else if s.ctxs.any fun c => c.2.st != .free then s.answer .badState
      else (s.modTower t fun w => { w with frameBase := some base }).answer .ok
    | .frame (.setEntry pa state ptr) =>
      if ! s.isFrame pa then s.answer .badReq
      else
        (match s.frameEntry pa state ptr with
         | none => s.answer .badReq
         | some st =>
           let s := s.clearFrame pa
           let f := s.frame pa
           let s := if st = .compressed ∧ f.st ≠ .compressed then s.raiseReserve (homeTower pa) else s
           (s.setFrame pa { f with st := st, ptr := ptr, since := if st = .held then s.time else f.since }).freeTasks.goOn.answer .ok)
    | _ => s

/-! ## RECODE, MIGRATE and RELEASE (R294, R297 to R299) -/

/-- A line to be stored in chunks: its encoding, payload, marks and HOT bit. -/
structure Packed where
  code : Nat
  pay : List Byte
  marks : List Bool
  hot : Bool

/-- The sectors of a payload. -/
def Packed.sectors (p : Packed) : Nat := (codeSectors p.code).getD 4

/-- A line of plain bytes as R290 and R292 encode it: RAW if a sector is marked. -/
def packLine (data : List Byte) (marks : List Bool) : Packed :=
  let code := if marks.any id then 15 else bestCode data codeOrder
  { code := code, pay := (encodeAs code data).getD data, marks := marks, hot := false }

/-- Where lines go: chunks fill in order and no payload spans two (R288, R292). For each line its chunk, counted from 0, and
first sector; the last component is the number of chunks begun and the next free sector. -/
def packPlan (ls : List Packed) : List (Nat × Nat) × Nat × Nat :=
  ls.foldl (fun (a : List (Nat × Nat) × Nat × Nat) p =>
    let n := p.sectors
    let (ps, chunks, next) := a
    if n = 0 then (ps ++ [(0, 0)], chunks, next)
    else if chunks = 0 ∨ next + n > 64 then (ps ++ [(chunks, 0)], chunks + 1, n)
    else (ps ++ [(chunks - 1, next)], chunks, next + n)) ([], 0, 0)

/-- Take `n` chunks of a tower. -/
def State.takeChunks (s : State) (t : Nat) : Nat → Option (List Nat × State)
  | 0 => some ([], s)
  | n + 1 => (s.takeChunk t).bind fun p => (p.2.takeChunks t n).map fun q => (p.1 :: q.1, q.2)

/-- Write a line and its line map entry. -/
def State.putPacked (s : State) (map k chunk soff : Nat) (p : Packed) : State :=
  let n := p.sectors
  let pa := chunk + 32 * soff
  let s := { s with mem := Mem.setBytes s.mem pa (sliceBytes p.pay 0 (32 * n)) }
  let s := (List.range n).foldl (fun (s : State) j =>
    if p.marks.getD j false && p.code = 15 then s.addPoison (sectorOf pa + j) else s.clearPoison (sectorOf pa + j)) s
  let v := p.code + n * 16 + (if p.hot then 128 else 0) + (if n = 0 then 0 else soff * 256 + chunk / 2048 * 65536)
  { s with mem := Mem.setBytes s.mem (map + 8 * k) (toBytes 8 v) }

/-- Store the lines of a window frame in chunks of its tower, which are closed at the end (R294): none if the tower has too
few. -/
def State.packFrame (s : State) (dst map : Nat) (ls : List Packed) : Option State :=
  let t := homeTower dst
  let (plan, n, _) := packPlan ls
  (s.takeChunks t n).map fun p =>
    let cs := p.1
    let s := (List.range ls.length).foldl (fun (s : State) k =>
      let l := ls.getD k ⟨0, [], [], false⟩
      let at_ := plan.getD k (0, 0)
      let c := cs.getD at_.1 0
      let s := s.putPacked map k c at_.2 l
      if l.sectors = 0 then s else s.modTower t fun w =>
        { w with chunks := w.chunks.modify c fun x => { x with live := x.live + l.sectors } }) p.2
    let s := cs.foldl (fun (s : State) c =>
      (s.modTower t fun w => { w with chunks := w.chunks.modify c fun x => { x with closed := true } }).recycle t c) s
    let s := s.raiseReserve t
    s.setFrame dst { s.frame dst with st := .compressed, ptr := map }

/-- The sectors of a compressed frame are released (R292). -/
def State.releaseFrame (s : State) (src : Nat) : State :=
  (frameLines src).foldl (fun (s : State) a =>
    let m := s.lineMap a
    if m.ok then s.countChunk (homeTower src) m.chunk 0 m.sect else s) s

/-- A line at home with its marks, brought into its slice if need be (R292). -/
def State.lineAtHome (s : State) (a : Nat) : (List Byte × List Bool) × State :=
  let (bs, s) := s.homeRead a 128
  ((bs, (List.range 4).map fun j => s.poisoned (a + 32 * j)), s)

/-- Write a plain line at a frame in HBM with its marks. -/
def State.putPlainLine (s : State) (a : Nat) (x : List Byte × List Bool) : State :=
  let s := s.homeMerge a (lineOf x.1) (byteMask 0 128)
  (List.range 4).foldl (fun (s : State) j => if x.2.getD j false then s.addPoison (sectorOf a + j) else s) s

/-- Copy a frame's lines into a plain frame. -/
def State.unpackFrame (s : State) (src dst : Nat) : State :=
  (List.range 512).foldl (fun (s : State) k =>
    let (x, s) := s.lineAtHome (src + 128 * k)
    s.putPlainLine (dst + 128 * k) x) s

/-- The lines of a frame as they are to be encoded. -/
def State.linesOf (s : State) (src : Nat) : List Packed × State :=
  (List.range 512).foldl (fun (a : List Packed × State) k =>
    let (x, s) := a.2.lineAtHome (src + 128 * k)
    (a.1 ++ [packLine x.1 x.2], s)) ([], s)

/-- A compressed line as its line map entry and payload; one with a metadata error as four poisoned sectors (R291, R298). -/
def State.packedAt (s : State) (a : Nat) : Packed :=
  let m := s.lineMap a
  let pa := m.chunk + 32 * m.soff
  if m.ok then
    { code := m.code, pay := Mem.getBytes s.mem pa (32 * m.sect), hot := m.hot
      marks := (List.range 4).map fun j => decide (j < m.sect) && s.poisoned (pa + 32 * j) }
  else { code := 15, pay := List.replicate 128 0, marks := List.replicate 4 true, hot := m.hot }

/-- RECODE: the frame at a is copied into the frame at b, decoded or encoded; c is the line map of a frame that becomes
COMPRESSED (R294, R297). -/
def execRecode (s : State) : Host.Outcome State Fault Refusal :=
  request s fun s =>
    let src := s.arg.a
    let dst := s.arg.b
    if ! s.isFrame src ∨ ! s.isFrame dst ∨ spaceOf src = spaceOf dst then s.answer .badReq
    else if (s.frame dst).st ≠ .normal then s.answer .badState
    else if spaceOf src = .window then
      if (s.frame src).st ≠ .compressed then s.answer .badState
      else
        let s := (s.unpackFrame src dst).clearFrame src
        let s := s.releaseFrame src
        (s.setFrame src { s.frame src with st := .normal, ptr := 0 }).goOn.answer .ok
    else if (s.frame src).st ≠ .normal then s.answer .badState
    else if ! s.mapPlace (homeTower dst) s.arg.c then s.answer .badReq
    else
      match s.linesOf src with
      | (ls, s') =>
        match s'.packFrame dst s.arg.c ls with
        | some s => s.goOn.answer .ok
        | none => s.answer .noSpace

/-- Copy the bytes and marks of one HBM frame to another through its home slice; its lines leave the slice (R298). -/
def State.copyFrame (s : State) (src dst : Nat) : State :=
  let s := s.unpackFrame src dst
  (s.frameTags src).foldl (fun (s : State) a => s.dropHome a) s

/-- MIGRATE: the frame at a moves to the free frame at b and forwards to it; c is the line map of a compressed one (R298).
Nothing intervenes in one step, so that the first attempt succeeds. -/
def execMigrate (s : State) : Host.Outcome State Fault Refusal :=
  request s fun s =>
    let src := s.arg.a
    let dst := s.arg.b
    let away := fun (s : State) => (s.setFrame src { s.frame src with st := .forward, ptr := dst }).goOn
    if ! s.isFrame src ∨ ! s.isFrame dst ∨ spaceOf src ≠ spaceOf dst ∨ src = dst then s.answer .badReq
    else if (s.frame dst).st ≠ .normal then s.answer .badState
    else if spaceOf src = .hbm then
      if (s.frame src).st ≠ .normal then s.answer .badState else (away (s.copyFrame src dst)).answer .ok
    else if (s.frame src).st ≠ .compressed then s.answer .badState
    else if ! s.mapPlace (homeTower dst) s.arg.c then s.answer .badReq
    else
      let s' := s.clearFrame src
      match s'.packFrame dst s.arg.c ((frameLines src).map s'.packedAt) with
      | some s => (away (s.releaseFrame src)).answer .ok
      | none => s.answer .noSpace

/-- RELEASE: the lines of the forwarded frame at a leave every RDC, and the frame is NORMAL again (R299). -/
def execRelease (s : State) : Host.Outcome State Fault Refusal :=
  request s fun s =>
    let src := s.arg.a
    if ! s.isFrame src then s.answer .badReq
    else if (s.frame src).st ≠ .forward then s.answer .badState
    else
      let s := (List.range 4).foldl (fun (s : State) t => s.flushRdc t fun r => r.pline / 512 == src / 65536) s
      (s.setFrame src { s.frame src with st := .normal, ptr := 0 }).goOn.answer .ok

/-! ## The retirement of an L2 slice (R280) -/

/-- The answer to a retire request for a slice. -/
def State.sliceAnswer (s : State) (slice : Nat) : Status :=
  let w := s.tower (slice / 48)
  if slice ≥ 192 then .badReq
  else if s.excluded ⟨.l2Slice, slice⟩ then .busy
  else if w.slices.findD (slice % 48) .active ≠ .active then .badState
  else if w.slices.any fun p => p.2 == .stub then .busy
  else if w.activeSlices.length < 41 then .floor
  else .ok

/-- Ask for the retirement of a slice: it enters STUB, its entries are reassigned and VER advances (R280). -/
def State.retireSlice (s : State) (slice : Nat) : Status × State :=
  match s.sliceAnswer slice with
  | .ok =>
    let s := s.modTower (slice / 48) fun w =>
      { w with sliceOld := w.sliceMap, sliceMap := w.reassign (slice % 48), ver := (w.ver + 1) % 4
               slices := w.slices.put (slice % 48) .stub }
    (.ok, s.modDev fun d => { d with actions := d.actions ++ [⟨⟨.l2Slice, slice⟩, .retire⟩] })
  | x => (x, s)

/-- SLICE_RETIRE: slice a (R280). -/
def execSliceRetire (s : State) : Host.Outcome State Fault Refusal :=
  request s fun s => let (st, s) := s.retireSlice s.arg.a; s.answer st

/-- Whether slice `k` of a tower is in STUB and named by the map of the version before for a line (R280). -/
def State.stubOwned (s : State) (t k pa : Nat) : Bool :=
  let w := s.tower t
  (w.slices.findD k .active) == .stub && homeTower pa == t && w.sliceOld.findD (sliceIdx pa) (sliceIdx pa % 48) == k

/-- A line that slice `k` of its tower still holds goes, with its dirty bytes and marks, to its slice under the new map. -/
def State.handOver (s : State) (k pa : Nat) : State :=
  match s.l2 pa with
  | some l => if l.slice = k then s.setL2 pa { l with slice := s.sliceFor pa } else s
  | none => s

/-- SLICE_FORWARD: a request for line b that was hashed under the old map reaches slice a in STUB; it is served by the line's
new slice, which misses on the line if slice a still holds it (R280). -/
def execSliceForward (s : State) : Host.Outcome State Fault Refusal :=
  let pa := s.arg.b * 128
  .next (if s.stubOwned (s.arg.a / 48) (s.arg.a % 48) pa then s.handOver (s.arg.a % 48) pa else s)

/-- SLICE_HANDOVER: the new owner of line b misses on it; slice a hands it over or answers ABSENT, and the owner reads memory
(R280). -/
def execSliceHandover (s : State) : Host.Outcome State Fault Refusal :=
  let pa := s.arg.b * 128
  .next (if s.stubOwned (s.arg.a / 48) (s.arg.a % 48) pa then (s.handOver (s.arg.a % 48) pa).touchHome pa else s)

/-- SLICE_OFF: slice a in STUB holds no line; it is powered off, its fuse is written and EPOCH advances (R22, R23, R280). -/
def execSliceOff (s : State) : Host.Outcome State Fault Refusal :=
  let t := s.arg.a / 48
  let k := s.arg.a % 48
  let w := s.tower t
  if s.dev.st ≠ .ready ∨ w.slices.findD k .active ≠ .stub ∨ w.l2.any fun l => l.2.slice == k then .next s
  else
    let p : PartRef := ⟨.l2Slice, s.arg.a⟩
    let s := (s.closeChunk t k).modTower t fun w => { w with slices := w.slices.put k .off, sliceOld := [] }
    .next (((s.mapOut p).fuse p).actionDone p .retire)

end Sys2Proof.Machine
end

