-- ==== Sys2Proof/Machine/Links.lean ====
section
/-! DEFINITION. The links (R413 to R427): the window and inbound tables, requests of peers, faults and timeouts of requests
to peers, and the states of ports. -/

namespace Sys2Proof.Machine

open Sys2Proof

/-! ## Tables (R417, R419) -/

/-- Whether a window entry is refused (R417). -/
def badWindow (v : DWord) : Bool := bits v.toNat 7 4 != 0 || bits v.toNat 35 18 != 0 || decide (bits v.toNat 3 1 > 3)

/-- WINDOW_TABLE_WRITE: entry a (R417). -/
def execWindowTableWrite (s : State) : Host.Outcome State Fault Refusal :=
  request s fun s =>
    match s.arg.body with
    | .dword v =>
      if s.arg.a ≥ 2048 then s.answer .badReq
      else if badWindow v then s.answer .badWin
      else (s.modDev fun d => { d with windows := d.windows.put s.arg.a v }).answer .ok
    | _ => s

/-- INBOUND_TABLE_WRITE: entry a (R419). -/
def execInboundTableWrite (s : State) : Host.Outcome State Fault Refusal :=
  request s fun s =>
    match s.arg.body with
    | .inboundEntry e =>
      if s.arg.a ≥ 256 then s.answer .badReq
      else (s.modDev fun d => { d with inbound := d.inbound.put s.arg.a e }).answer .ok
    | _ => s

/-! ## Requests of peers (R415, R419, R420) -/

/-- Whether an inbound entry covers a range. -/
def covers (e : InboundEntry) (a n : Nat) : Bool := decide (e.base * 65536 ≤ a ∧ a + n ≤ (e.base + e.len) * 65536)

/-- Whether a request writes. -/
def inboundWrites (r : InboundReq) : Bool :=
  match r.op with
  | .read => false
  | _ => true

/-- The least power of two that is not below `n`, up to 256. -/
def upPow2 (n : Nat) : Nat := ([1, 2, 4, 8, 16, 32, 64, 128].find? fun k => n ≤ k).getD 256

/-- Whether a request has a form that the device supports (R415). -/
def inboundForm (r : InboundReq) : Bool :=
  match r.op with
  | .read => decide (1 ≤ r.size ∧ r.size ≤ 256 ∧ r.addr % upPow2 r.size + r.size ≤ upPow2 r.size)
  | .write bs _ => decide (1 ≤ r.size ∧ r.size ≤ 256 ∧ r.addr % upPow2 r.size + r.size ≤ upPow2 r.size ∧ bs.length = r.size)
  | .atomic op w _ _ => decide (0x09 ≤ op ∧ op ≤ 0x12 ∧ r.size = (if w then 8 else 4) ∧ r.addr % r.size = 0)

/-- The frame in which an address is served, wherever FORWARD leads (R281). -/
def State.lastFrame (s : State) : Nat → Nat → Frame
  | 0, pa => s.frame (homeKey pa)
  | n + 1, pa =>
    let f := s.frame (homeKey pa)
    if f.st = .forward then s.lastFrame n (f.ptr + pa % 65536) else f

/-- The SUB of the fault that a request receives, if it is refused (R419, R424). The spec names no SUB for a frame that is HELD
too long or not present through the plain aperture: 3 (log entry 92). -/
def State.inboundFault (s : State) (r : InboundReq) : Option Nat :=
  let es := (s.dev.inbound.map (·.2)).filter fun e => covers e r.addr r.size
  if s.dev.st ≠ .ready then some 5
  else if spaceOf r.addr = .window then some 3
  else if es = [] ∨ (spaceOf r.addr ≠ .hbm ∧ spaceOf r.addr ≠ .plain) then some 1
  else if inboundWrites r ∧ ! es.any (·.w) then some 2
  else if ! inboundForm r then some 2
  else if spaceOf r.addr = .hbm ∧ s.stackGone r.addr then some 3
  else match s.home 8 r.addr with
    | .absent => some 3
    | .attrStale => some 3
    | .held => if s.time > (s.lastFrame 8 r.addr).since + 200000 then some 3 else none
    | .here _ => none

/-- A fault response, which the service cores log (R424). -/
def State.faultResponse (s : State) (r : InboundReq) (sub : Nat) : State :=
  { s with svcLog := .peer r.dev s.dev.devNum r.addr sub :: s.svcLog }.answer .faultResponse [BitVec.ofNat 8 sub]

/-- The pieces of a range by line: address and length. -/
def linesIn (a n : Nat) : List (Nat × Nat) := lineSpans 4 a n

/-- A read of a peer: the value at home with its marks (R420). -/
def State.inboundRead (s : State) (a n : Nat) : List Marked × State :=
  (linesIn a n).foldl (fun (x : List Marked × State) p =>
    match x.2.home 8 p.1 with
    | .here pa =>
      let (bs, s) := x.2.homeRead pa p.2
      (x.1 ++ (List.range p.2).map fun j => (bs.getD j 0, s.poisoned (homeKey pa + j)), s)
    | _ => x) ([], s)

/-- A write of a peer, merged with its mask and the marks of its bytes at home (R117, R420). -/
def State.inboundWrite (s : State) (a : Nat) (l : List Marked) : State :=
  s.mergeBytes ((List.range l.length).filterMap fun j =>
    match s.home 8 (a + j) with
    | .here p => some (p, l.getD j (0, false))
    | _ => none)

/-- Perform an admitted request (R420, R331). -/
def State.inboundDo (s : State) (r : InboundReq) : State :=
  match r.op with
  | .read =>
    let (l, s) := s.inboundRead r.addr r.size
    { s with responses := ⟨.ok, plain l, l.map (·.2)⟩ :: s.responses }
  | .write bs ms => (s.inboundWrite r.addr ((List.range bs.length).map fun j => (bs.getD j 0, ms.getD j false))).answer .ok
  | .atomic op _ a b =>
    let m := 2 ^ (8 * r.size)
    let (old, s) := s.atomHome (2 ^ 64) r.addr r.size fun x => atomOp op r.size x (a.toNat % m) (b.toNat % m)
    s.answer .ok (toBytes r.size old)

/-- Whether a request waits at home: its frame is HELD, or the chunk reserve holds a write (R281, R294). -/
def State.inboundWaits (s : State) (r : InboundReq) : Bool :=
  (match s.home 8 r.addr with
   | .held => true
   | _ => false) || (inboundWrites r && (linesIn r.addr r.size).any fun p => s.reserveHolds p.1)

/-- INBOUND_REQUEST: a peer's request is performed at home or receives a fault response (R419, R420, R424). -/
def execInboundRequest (s : State) : Host.Outcome State Fault Refusal :=
  match s.dev.st, s.arg.body with
  | .off, _ => .next s
  | _, .inbound r =>
    (match s.inboundFault r with
     | some sub => .next (s.faultResponse r sub)
     | none => .next (if s.inboundWaits r then s else s.inboundDo r))
  | _, _ => .next s

/-- INBOUND_MESSAGE_REQUEST: a message request of device a receives an unsupported-request completion and is logged (R415). -/
def execInboundMessageRequest (s : State) : Host.Outcome State Fault Refusal :=
  .next (match s.dev.st with
    | .off => s
    | _ => { s with svcLog := .message s.arg.a :: s.svcLog }.answer .unsupported)

/-! ## Requests to peers that fail (R416, R424) -/

/-- The target address of a request (R417). -/
def State.targetOf (s : State) (r : PeerReq) : Nat := bits (s.window r.pa).toNat 63 36 * 2 ^ 36 + r.pa % 2 ^ 36

/-- What a request does that is answered with a fault or not at all: whoever waits for its data finds the cause, PEERF or PEERT,
in its place; the block that a copy reads delivers zero and poison; anything else sets CHKIV.PEERPOST; the service cores log
it (R358, R424). -/
def State.peerFails (s : State) (id : Nat) (r : PeerReq) (code sub : Nat) : State :=
  let s : State := { s with svcLog := .peer s.dev.devNum r.dev (s.targetOf r) sub :: s.svcLog }
  let failed : State := { s with peers := s.peers.put id { r with done := true, cause := code + 256 * sub } }
  match r.kind with
  | .load | .taskRead => failed
  | .opRead => if r.gid = goneGid then failed.goOn else failed
  | .copyRead => { (s.modCopy r.owner fun c => { c with linkBad := r.pa / 256 :: c.linkBad }) with peers := s.peers.del id }
  | .posted | .copyWrite | .taskWrite => { (s.setChkAt r.ctx r.launch chkPeerPost) with peers := s.peers.del id }

/-- PEER_FAULT_RESPONSE: request a receives a fault response with SUB b; one of a request that a trunk without an UP port holds
does not come, and one that comes after the timeout is dropped (R424, R427). -/
def execPeerFaultResponse (s : State) : Host.Outcome State Fault Refusal :=
  match s.peers.find s.arg.a with
  | none => .next s
  | some r =>
    if r.port = none ∨ r.done ∨ s.time > r.when + 200000 ∨ s.arg.b < 1 ∨ 5 < s.arg.b ∨ s.arg.b = 4 then .next s
    else .next (s.peerFails s.arg.a r 0x15 s.arg.b)

/-- PEER_TIMEOUT: request a has no response 200 µs after it left (R424). -/
def execPeerTimeout (s : State) : Host.Outcome State Fault Refusal :=
  match s.peers.find s.arg.a with
  | none => .next s
  | some r => if r.done ∨ s.time < r.when + 200000 then .next s else .next (s.peerFails s.arg.a r 0x16 1)

/-! ## Ports (R21, R22, R426, R427) -/

/-- A port left its trunk: its requests are replayed on another UP port, in their order; a trunk without one holds them
(R427). -/
def State.replayFlits (s : State) (port : Nat) : State :=
  { s with peers := s.peers.map fun (p : Nat × PeerReq) =>
      if p.2.port = some port ∧ ! p.2.done then (p.1, { p.2 with port := s.portFor p.2.dev p.2.pa }) else p }

/-- A port joined its trunk: requests that the trunk held leave (R427). -/
def State.sendHeld (s : State) : State :=
  { s with peers := s.peers.map fun (p : Nat × PeerReq) =>
      if p.2.port = none ∧ ! p.2.done then (p.1, { p.2 with port := s.portFor p.2.dev p.2.pa }) else p }

/-- A port enters a state. -/
def State.setPort (s : State) (port : Nat) (st : PortSt) : State :=
  s.modLink port fun l => { l with st := st, since := s.time }

/-- What happens at a port, of a device that has failed nothing (R17, R20). -/
def atPort (s : State) (f : Nat → LinkPort → State) : Host.Outcome State Fault Refusal :=
  let p := s.arg.a
  if p ≥ 64 ∨ s.dev.st = .failed then .next s else .next (f p (s.link p))

/-- The part of a port. -/
def portPart (port : Nat) : PartRef := ⟨.linkPort, port⟩

/-- A port is fenced: it leaves its trunk, and a return under way ends (R426). -/
def State.fencePort (s : State) (port : Nat) : State :=
  let p := portPart port
  let s := (s.setPort port .fenced).modLink port fun l => { l with returning := false, fails := 0 }
  let s := s.modDev fun d =>
    { d with fenced := if d.fenced.contains p then d.fenced else p :: d.fenced, actions := d.actions.erase ⟨p, .restore⟩ }
  s.replayFlits port

/-- PORT_TRAINED: port a aligns all lanes and joins its trunk; EPOCH advances if it was returned (R22, R426). -/
def execPortTrained (s : State) : Host.Outcome State Fault Refusal :=
  atPort s fun p l =>
    if l.st ≠ .training then s
    else
      let t := ((s.setPort p .up).modLink p fun l => { l with fails := 0, returning := false }).sendHeld
      if l.returning then
        (t.modDev fun d => { d with fenced := d.fenced.filter (· != portPart p) }).actionDone (portPart p) .restore
      else t

/-- TRAINING_TIMEOUT: port a has not trained within 10 ms; the third failure in a row fences it (R426). -/
def execTrainingTimeout (s : State) : Host.Outcome State Fault Refusal :=
  atPort s fun p l =>
    if l.st ≠ .training ∨ s.time < l.since + 10000000 then s
    else if l.fails + 1 < 3 then s.modLink p fun l => { l with fails := l.fails + 1, since := s.time }
    else ((s.fencePort p).interrupt (.linkFenced p)).partChanged

/-- LINK_ERROR_RETRAIN: UP port a leaves its trunk and retrains (R426, R427). -/
def execLinkErrorRetrain (s : State) : Host.Outcome State Fault Refusal :=
  atPort s fun p l => if l.st ≠ .up then s else (s.setPort p .retrain).replayFlits p

/-- RETRAIN_DONE: port a rejoins its trunk within 1 ms (R426). -/
def execRetrainDone (s : State) : Host.Outcome State Fault Refusal :=
  atPort s fun p l => if l.st ≠ .retrain ∨ s.time > l.since + 1000000 then s else (s.setPort p .up).sendHeld

/-- RETRAIN_TIMEOUT: port a has not retrained within 1 ms (R426). -/
def execRetrainTimeout (s : State) : Host.Outcome State Fault Refusal :=
  atPort s fun p l =>
    if l.st ≠ .retrain ∨ s.time < l.since + 1000000 then s
    else (s.setPort p .training).modLink p fun l => { l with fails := 0 }

/-- A request about a port: one that does not exist is BADREQ; a stack's retirement in the tower excludes it; a state without
such an event is BADSTATE (R22, R426; log entries 25 and 26). -/
def onPort (s : State) (f : LinkPort → State → Option State) : State :=
  let p := s.arg.a
  if p ≥ 64 then s.answer .badReq
  else if s.excluded (portPart p) then s.answer .busy
  else (f (s.link p) s).getD (s.answer .badState)

/-- LINK_FENCE: port a (R426). -/
def execLinkFence (s : State) : Host.Outcome State Fault Refusal :=
  request s fun s => onPort s fun l s =>
    match l.st with
    | .up | .retrain | .training => some ((s.fencePort s.arg.a).partChanged.answer .ok)
    | _ => none

/-- LINK_RETURN: port a; the return is under way until the port is UP (R22, R426). -/
def execLinkReturn (s : State) : Host.Outcome State Fault Refusal :=
  request s fun s => onPort s fun l s =>
    match l.st with
    | .fenced =>
      let s := (s.setPort s.arg.a .training).modLink s.arg.a fun l => { l with fails := 0, returning := true }
      some ((s.modDev fun d => { d with actions := d.actions ++ [⟨portPart s.arg.a, .restore⟩] }).answer .ok)
    | _ => none

/-- LINK_RETIRE: port a, whose fuse is not written (R22, R426). -/
def execLinkRetire (s : State) : Host.Outcome State Fault Refusal :=
  request s fun s => onPort s fun l s =>
    match l.st with
    | .fenced => some (((s.setPort s.arg.a .retired).mapOut (portPart s.arg.a)).partChanged.answer .ok)
    | _ => none

end Sys2Proof.Machine
end

