-- ==== Sys2Proof/Machine/Stack.lean ====
section
/-! DEFINITION. The stack (R428 to R442): training, retries, repair and loss of vertical buses, the patrol, light paths; and
the loss of parts in READY (R17, R125, R437). -/

namespace Sys2Proof.Machine

open Sys2Proof

/-! ## Logs (R439) -/

/-- The bus `b` of the device writes an entry of the transfer log (R439). -/
def State.logXfer (s : State) (b kind lane dir count : Nat) : State :=
  { s with xferLog := ⟨s.time, b / 1984, kind, b % 1984, lane, dir, count⟩ :: s.xferLog }

/-! ## The loss of parts (R17, R125, R437) -/

/-- A saved team loses PARK buffers that stood on a lost core: it returns to its image if it can roll back, and faults
otherwise (R125). -/
def State.loseParked (s : State) (team part pkind : Nat) : State :=
  let s := s.loseUnder team part pkind
  match s.teams.find team with
  | some t =>
    if t.onCores then s
    else (s.freeBuffers team).modTeam team fun t => { t with st := .saved .rollback, bufs := [] }
  | none => s

/-- Teams that hold something on a core: those with groups or buffers there, and saved ones with PARK buffers there. -/
def State.teamsAt (s : State) (core : Nat) : List Nat :=
  (s.teams.filter fun p => p.2.onCores && p.2.cores.contains core).map (·.1)
def State.parkedAt (s : State) (core : Nat) : List Nat :=
  (((s.core core).bufs.filter fun b => b.2.parked).map (·.2.team)).eraseDups

/-- A core is lost: it is fenced and never placed again. Under a lost bank, bus or layer of its scratchpad (`roll`) its teams
roll back or fault, under a lost core they fault, with the part named (R125, R437). -/
def State.loseCore (s : State) (core part pkind : Nat) (roll : Bool) : State :=
  let parked := s.parkedAt core
  let on := s.teamsAt core
  let s := s.fencePart ⟨.core, core⟩
  let s := on.foldl (fun (s : State) t =>
    if roll then s.loseUnder t part pkind else s.faultTeam t 0 0 exitPc 0 part pkind) s
  parked.foldl (fun (s : State) t => if roll then s.loseParked t part pkind else s.faultTeam t 0 0 exitPc 0 part pkind) s

/-- Whether a stage of a launch may still have a team placed (R149). -/
def State.stageOpen (s : State) (n : Nat) (l : Launch) (k : Nat) : Bool :=
  if k = 0 then decide (l.placed.findD 0 0 < l.nteams)
  else ! l.ended.contains k && ! s.teams.any fun p => p.2.launch == n && p.2.stage == k

/-- Whether an admitted launch still has a team to place: a new one, or one that stops or is saved and comes back (R111,
R135, R149). -/
def State.stillPlaces (s : State) (n : Nat) (l : Launch) : Bool :=
  match l.st with
  | .admitted | .dispatching => true
  | .running =>
    ((List.range l.nstage).any fun k => s.stageOpen n l k)
      || s.teams.any fun p => p.2.launch == n && p.2.st != .running && p.2.st != .prologue
  | _ => false

/-- Cores are lost: launches of which a team no longer fits the tower end FAULTED with the lost part named (R134). -/
def State.outgrow (s : State) (part pkind : Nat) : State :=
  s.launches.foldl (fun (s : State) (p : Nat × Launch) =>
    if s.stillPlaces p.1 p.2 && ! s.towerHolds p.2 then s.drainLaunch p.1 3 { noInfo with part := part, pkind := pkind } else s) s

/-- Some parts are lost or fenced without a request: EPOCH advances once for each, `n` of them beside those that `f` fences
(R16, R17; DEDUCED: log entry 63). -/
def State.losing (s : State) (n : Nat) (f : State → State) : State :=
  let t := f s
  t.partsChanged (n + (t.dev.fenced.length - s.dev.fenced.length))

/-- An engine is fenced: its RUNNING tasks end CANCELLED, and ids bound to its slots become unbound (R437). -/
def State.fenceEngine (s : State) (cl eng : Nat) : State :=
  s.modCluster cl fun c =>
    { c with
      engines := c.engines.put eng { freshEngine with fenced := true }
      queues := c.queues.map fun (q : Nat × TaskQueue) =>
        (q.1, { q.2 with
          tasks := q.2.tasks.map fun t =>
            if t.st = .running ∧ t.eng = eng ∧ ! t.worked then { t.endWith endCancelled with aslot := 4, bslot := 4 } else t
          aids := q.2.aids.filter fun p => p.2.1 != eng
          bids := q.2.bids.filter fun p => p.2.1 != eng }) }

/-- Whether every bus of a tensor-store layer is lost. -/
def State.layerLost (s : State) (tower layer : Nat) : Bool :=
  (List.range 40).all fun n => (s.bus (1984 * tower + 1824 + 40 * layer + n)).st == .lost

/-- What the loss of a bus leaves (R437). -/
def State.busGone (s : State) (b : Nat) : State :=
  let t := b / 1984
  let n := b % 1984
  if n < 192 then s.fenceEngine (12 * t + n / 16) (n % 16 / 2)
  else if n < 288 then s.fenceEngine (12 * t + (n - 192) / 8) ((n - 192) % 8)
  else if n < 1824 then (s.loseCore (96 * t + (n - 288) / 16) t 7 true).outgrow t 7
  else
    let k := (n - 1824) / 40
    if s.layerLost t k then
      (List.range 16).foldl (fun (s : State) j =>
        let p : PartRef := ⟨.tsBank, 64 * t + 16 * k + j⟩
        if s.bankGone p then s else s.fencePart p) s
    else s

/-- A bus is lost until reset: EPOCH advances, for the bus and for each part fenced with it, and DEGRADED is set; its repair
ends (R16, R435, R437). -/
def State.loseBus (s : State) (b : Nat) : State :=
  if (s.bus b).st = .lost then s
  else
    let s := (s.modBus b fun x => { x with st := .lost, retries := [] }).logXfer b 3 0xFF 0 0
    let s := s.modDev fun d => { d with actions := d.actions.filter fun a => a.part != ⟨.bus, b⟩ }
    s.losing 1 fun s => s.busGone b

/-- PART_LOST: a part of a READY device is lost or fenced without a request (R17). A scratchpad bank takes its core with it,
which its launch status names: PKIND has no number of its own for a bank (R125, R437; DEDUCED: log entry 63). A channel die or
an L2 slice is then retired at the service cores' own request. -/
def execPartLost (s : State) : Host.Outcome State Fault Refusal :=
  match s.dev.st, s.arg.body with
  | .ready, .part p =>
    if p.idx ≥ partCount p.kind then .next s
    else if s.bankGone p then .next s
    else
      (match p.kind with
       | .core => .next (s.losing 0 fun s => (s.loseCore p.idx p.idx 1 false).outgrow p.idx 1)
       | .spadBank => .next (s.losing 0 fun s =>
           ((s.fencePart p).loseCore (p.idx / 16) (p.idx / 16) 1 true).outgrow (p.idx / 16) 1)
       | .spadLayer => .next (s.losing 0 fun s => ((List.range 96).foldl (fun (s : State) k =>
           if s.bankGone ⟨.core, 96 * p.idx + k⟩ then s else s.loseCore (96 * p.idx + k) p.idx 8 true) (s.fencePart p)).outgrow p.idx 8)
       | .bus => .next (s.loseBus p.idx)
       | .tsBank => .next (s.losing 0 fun s => s.fencePart p)
       | .linkPort => .next ((s.fencePort p.idx).interrupt (.linkFenced p.idx)).partChanged
       | .hbmStack => .next (s.mapOut p).partChanged
       | .channelDie => .next (((s.fencePart p).partChanged).retireDie p.idx).2
       | .l2Slice => .next (((s.fencePart p).partChanged).retireSlice p.idx).2
       | .firmware => .next s.partChanged)
  | _, _ => .next s

/-! ## Training (R431, R432) -/

/-- BUS_RETRAIN_DUE: bus a falls due, by drift or by age (R431). -/
def execBusRetrainDue (s : State) : Host.Outcome State Fault Refusal :=
  let b := s.arg.a
  if b ≥ 7936 ∨ (s.bus b).st ≠ .service then .next s
  else .next (s.modBus b fun x => { x with st := .due, dueAt := s.time })

/-- The buses of the same core or engine (R432). -/
def siblings (b : Nat) : List Nat :=
  let t := 1984 * (b / 1984)
  let n := b % 1984
  let l :=
    if n < 192 then engineBuses (12 * (b / 1984) + n / 16) (n % 16 / 2)
    else if n < 288 then engineBuses (12 * (b / 1984) + (n - 192) / 8) ((n - 192) % 8)
    else if n < 1824 then (List.range 16).map fun k => t + 288 + (n - 288) / 16 * 16 + k
    else []
  l.filter (· != b)

/-- BUS_RETRAIN_START: due bus a retrains at a burst boundary, unless another bus of its core or engine does (R432). -/
def execBusRetrainStart (s : State) : Host.Outcome State Fault Refusal :=
  let b := s.arg.a
  if b ≥ 7936 ∨ (s.bus b).st ≠ .due ∨ (siblings b).any fun k => (s.bus k).st == .retrain then .next s
  else .next (s.modBus b fun x => { x with st := .retrain })

/-- BUS_RETRAIN_DONE: bus a is in service again, and the transfer log tells (R435, R439). -/
def execBusRetrainDone (s : State) : Host.Outcome State Fault Refusal :=
  let b := s.arg.a
  if b ≥ 7936 ∨ (s.bus b).st ≠ .retrain then .next s
  else .next ((s.modBus b fun x => { x with st := .service, trained := s.time }).logXfer b 2 0xFF 0 0)

/-! ## Retries and repair (R433 to R436) -/

/-- The retries attributed to a lane of a bus within the last second (R434). -/
def State.retriesOf (s : State) (b lane : Nat) : Nat :=
  ((s.bus b).retries.filter fun r => r.1 == lane && decide (s.time - r.2 < 1000000000)).length

/-- Whether a lane is a strobe (R429). -/
def strobe (lane : Nat) : Bool := lane == 64 || lane == 65

/-- Whether a lane cannot be replaced: a strobe, or no spare is free (R430, R434). -/
def Bus.noSpare (b : Bus) (lane : Nat) : Bool := strobe lane || decide (b.swapped.length ≥ 4)

/-- A retry is attributed to a lane (R433, R439). -/
def State.attribute (s : State) (b dir lane : Nat) : State :=
  let s := s.modBus b fun x =>
    { x with retries := (lane, s.time) :: x.retries.filter fun r => decide (s.time - r.2 < 1000000000) }
  s.logXfer b 0 lane dir (min (s.retriesOf b lane) 255)

/-- BURST_RETRY: a burst of bus a fails and is sent again; the lanes in which the copies differ are attributed a retry. The
sixteenth failure in a row, and the third retry of a lane that cannot be replaced, lose the bus (R433, R434). -/
def execBurstRetry (s : State) : Host.Outcome State Fault Refusal :=
  let b := s.arg.a
  match s.arg.body with
  | .nats lanes =>
    let ls := (lanes.filter fun l => decide (l < 70)).eraseDups
    if b ≥ 7936 ∨ ((s.bus b).st ≠ .service ∧ (s.bus b).st ≠ .due) then .next s
    else
      let s := ls.foldl (fun (s : State) l => s.attribute b (s.arg.b % 2) l) s
      let s := s.modBus b fun x => { x with fails := if s.arg.flag then x.fails + 1 else 1 }
      if (s.bus b).fails ≥ 16 ∨ ls.any fun l => (s.bus b).noSpare l && decide (s.retriesOf b l ≥ 3) then .next (s.loseBus b)
      else .next s
  | _ => .next s

/-- LANE_REPAIR_START: the repair of lane b of bus a starts, after three retries of the lane within a second or a request to
swap it; it waits for the actions asked for on the bus before it and for a stack's retirement in its tower (R21, R22, R434,
R435). -/
def execLaneRepairStart (s : State) : Host.Outcome State Fault Refusal :=
  let b := s.arg.a
  let lane := s.arg.b
  let p : PartRef := ⟨.bus, b⟩
  let asked := s.firstAction p == some (.swap lane)
  let due := s.firstAction p == none && decide (s.retriesOf b lane ≥ 3)
  if b ≥ 7936 ∨ ((s.bus b).st ≠ .service ∧ (s.bus b).st ≠ .due) ∨ s.excluded p ∨ ! (asked || due) then .next s
  else if (s.bus b).noSpare lane then .next (s.loseBus b)
  else
    let s := s.modBus b fun x => { x with st := .quiesce, repairing := lane }
    .next (if asked then s else s.modDev fun d => { d with actions := d.actions ++ [⟨p, .repair⟩] })

/-- QUIESCE_DONE: the burst in progress has ended on bus a, and its read-modify-writes have written (R435). -/
def execQuiesceDone (s : State) : Host.Outcome State Fault Refusal :=
  let b := s.arg.a
  if b ≥ 7936 ∨ (s.bus b).st ≠ .quiesce then .next s else .next (s.modBus b fun x => { x with st := .repair })

/-- REPAIR_DONE: the spare of bus a is trained and mapped and EPOCH advances, or its training failed and the bus is lost
(R435). -/
def execRepairDone (s : State) : Host.Outcome State Fault Refusal :=
  let b := s.arg.a
  let p : PartRef := ⟨.bus, b⟩
  if b ≥ 7936 ∨ (s.bus b).st ≠ .repair then .next s
  else if ! s.arg.flag then .next (s.loseBus b)
  else
    let lane := (s.bus b).repairing
    let n := s.retriesOf b lane
    let s := s.modBus b fun x =>
      { x with st := .service, swapped := x.swapped ++ [lane], retries := x.retries.filter fun r => r.1 != lane, trained := s.time }
    let act := (s.firstAction p).getD .repair
    .next ((s.logXfer b 1 lane 0 (min n 255)).actionDone p act)

/-- BUS_LANE_RECALIBRATE: lane b of bus a is calibrated again, or with the flag swapped to a spare (R21). -/
def execBusLaneRecalibrate (s : State) : Host.Outcome State Fault Refusal :=
  request s fun s =>
    let b := s.arg.a
    if b ≥ 7936 ∨ s.arg.b ≥ 70 then s.answer .badReq
    else if (s.bus b).st = .lost ∨ (s.arg.flag ∧ (s.bus b).noSpare s.arg.b) then s.answer .badState
    else s.askAction ⟨.bus, b⟩ (if s.arg.flag then .swap s.arg.b else .recalibrate)

/-! ## The patrol (R438, R439) -/

/-- The place in a tower's tensor store of a word that an error names: a row is a unit of 4 KiB of its bank (R372; log
entry 35). -/
def wordPlace (e : ArrayError) : Nat := 4096 * (64 * e.row + 16 * e.layer + e.bank) + 8 * e.word

/-- An error found in the tensor store: corrected with log entry KIND `kind`, or marked as uncorrectable (R438, R439). -/
def State.tensorError (s : State) (kind tower : Nat) (e : ArrayError) : State :=
  if e.layer ≥ 4 ∨ e.bank ≥ 16 ∨ e.word ≥ 512 ∨ e.row ≥ 262144 then s
  else
    let l : ArrayLog := { time := s.time, tower := tower, kind := if e.bit.isSome then kind else 1, layer := e.layer, bank := e.bank
                          bit := (e.bit.map (· % 72)).getD 0xFF, core := 0xFF, row := e.row, word := e.word }
    let s := { s with arrayLog := l :: s.arrayLog }
    if e.bit.isSome then s else s.modTower tower fun w => { w with tsPoison := insertNat (wordPlace e / 32) w.tsPoison }

/-- PATROL_SCRUB: the patrol of tower a's tensor store finds the errors told (R438). -/
def execPatrolScrub (s : State) : Host.Outcome State Fault Refusal :=
  match s.arg.body with
  | .errors l => if s.arg.a ≥ 4 then .next s else .next (l.foldl (fun (s : State) e => s.tensorError 2 s.arg.a e) s)
  | _ => .next s

/-! ## Errors found on access (R117, R118, R232, R438, R439; log entry 32) -/

/-- An error in a lane of a register: a single-bit error is corrected, a double-bit error delivers zero and sets
CHKIV.POISON; the service cores log either (R118). -/
def State.registerError (s : State) (gid reg ln : Nat) (double : Bool) (zero : Group → Group) : State :=
  match s.groups.find gid with
  | none => s
  | some g =>
    let s := { s with svcLog := .register gid reg ln :: s.svcLog }
    if double then
      let s := s.modGroup gid zero
      match s.teams.find g.team with
      | some t => s.setChk t.launch chkPoison
      | none => s
    else s

/-- An error in a word of a scratchpad row that holds data: a single-bit error is corrected, a double-bit error poisons its
sector; either is logged (R232, R439). Row r lies in bank r mod 16 (R220). -/
def State.padError (s : State) (core row word : Nat) (b : Option Nat) : State :=
  match (s.core core).sp.find row with
  | none => s
  | some r =>
    if word ≥ 128 then s
    else
      let l : ArrayLog := { time := s.time, tower := towerOfCore core, kind := if b.isSome then 0 else 1, layer := 4
                            bank := row % 16, bit := (b.map (· % 72)).getD 0xFF, core := core % 96, row := row / 16, word := word }
      let s := { s with arrayLog := l :: s.arrayLog }
      if b.isSome then s
      else s.modCore core fun c => { c with sp := c.sp.put row { r with poison := r.poison ||| BitVec.ofNat 32 (2 ^ (word / 4)) } }

/-- What an access finds in an array (log entry 32). -/
def State.upset (s : State) (u : Upset) : State :=
  match u with
  | .vector gid v l d => s.registerError gid v l d fun g => { g with rows := g.rows.modify v fun r => mergeRow (BitVec.ofNat 32 (2 ^ l)) r zeroRow }
  | .scalar gid k d => s.registerError gid (64 + k) 0 d fun g => if k < 128 then g.setS k 0 else g
  | .pad c r w b => s.padError c r w b
  | .tensor t e => if t < 4 then s.tensorError 0 t e else s
  | .sector n => s.addPoison n

/-! ## Light paths (R440 to R442) -/

/-- TOKEN_REGENERATE: the token of home channel a (tower × 60 + 48 slices and 12 clusters) circulates again (R441). -/
def execTokenRegenerate (s : State) : Host.Outcome State Fault Refusal :=
  let t := s.arg.a / 60
  if t ≥ 4 then .next s
  else .next (s.modTower t fun w =>
    { w with lights := w.lights.put (s.arg.a % 60) { w.lights.findD (s.arg.a % 60) freshLight with tokenLost := false } })

/-- Working wavelengths of a home channel, spares apart (R440, R442). -/
def Light.working (ch : Nat) (l : Light) : Nat := if ch < 48 then min 16 (18 - l.lostRings) else min 64 (68 - l.lostRings)

/-- A ring of a channel cannot hold lock: a spare takes over, or the channel is slower; a slice's channel with fewer than 12
wavelengths makes the service cores ask for the slice's retirement (R442). -/
def State.loseRing (s : State) (t ch : Nat) : State :=
  let s := s.modTower t fun w =>
    let l := w.lights.findD ch freshLight
    { w with lights := w.lights.put ch { l with lostRings := l.lostRings + 1 } }
  if ch < 48 ∧ ((s.tower t).lights.findD ch freshLight).working ch < 12 then (s.retireSlice (48 * t + ch)).2 else s

/-- HEATER_TRIM: the heaters of tower a are trimmed; each channel told loses a ring (R442). -/
def execHeaterTrim (s : State) : Host.Outcome State Fault Refusal :=
  match s.arg.body with
  | .nats l => if s.arg.a ≥ 4 then .next s else .next ((l.filter (· < 60)).foldl (fun (s : State) ch => s.loseRing s.arg.a ch) s)
  | _ => .next s

end Sys2Proof.Machine
end

