-- ==== Sys2Proof/Machine/Dispatch.lean ====
section
/-! DEFINITION. One arm for each step of the machine. -/

namespace Sys2Proof.Machine

open Sys2Proof

def exec (i : Instr) (s : State) : Host.Outcome State Fault Refusal :=
  match i with
  | .powerGood => Sys2Proof.Machine.execPowerGood s
  | .reset => Sys2Proof.Machine.execReset s
  | .bringupStepEnd => Sys2Proof.Machine.execBringupStepEnd s
  | .bringupStepTimeout => Sys2Proof.Machine.execBringupStepTimeout s
  | .controlDieError => Sys2Proof.Machine.execControlDieError s
  | .partLost => Sys2Proof.Machine.execPartLost s
  | .serviceActionComplete => Sys2Proof.Machine.execServiceActionComplete s
  | .channelDieRetire => Sys2Proof.Machine.execChannelDieRetire s
  | .dieRebuild => Sys2Proof.Machine.execDieRebuild s
  | .dieRetired => Sys2Proof.Machine.execDieRetired s
  | .retirecntSet => Sys2Proof.Machine.execRetirecntSet s
  | .busLaneRecalibrate => Sys2Proof.Machine.execBusLaneRecalibrate s
  | .sliceRetire => Sys2Proof.Machine.execSliceRetire s
  | .sliceForward => Sys2Proof.Machine.execSliceForward s
  | .sliceHandover => Sys2Proof.Machine.execSliceHandover s
  | .sliceOff => Sys2Proof.Machine.execSliceOff s
  | .tsBankFence => Sys2Proof.Machine.execTsBankFence s
  | .tsBankRetire => Sys2Proof.Machine.execTsBankRetire s
  | .hbmStackRetire => Sys2Proof.Machine.execHbmStackRetire s
  | .firmwareUpdate => Sys2Proof.Machine.execFirmwareUpdate s
  | .attestationRequest => Sys2Proof.Machine.execAttestationRequest s
  | .managementWindowRead => Sys2Proof.Machine.execManagementWindowRead s
  | .profileWrite => Sys2Proof.Machine.execProfileWrite s
  | .contextCreate => Sys2Proof.Machine.execContextCreate s
  | .contextDestroy => Sys2Proof.Machine.execContextDestroy s
  | .contextReleased => Sys2Proof.Machine.execContextReleased s
  | .ctxcfgSet => Sys2Proof.Machine.execCtxcfgSet s
  | .parkTimeout => Sys2Proof.Machine.execParkTimeout s
  | .parkRenewal => Sys2Proof.Machine.execParkRenewal s
  | .queueCreate => Sys2Proof.Machine.execQueueCreate s
  | .queueActivate => Sys2Proof.Machine.execQueueActivate s
  | .queueSuspend => Sys2Proof.Machine.execQueueSuspend s
  | .queueResume => Sys2Proof.Machine.execQueueResume s
  | .queueDestroy => Sys2Proof.Machine.execQueueDestroy s
  | .tailObserve => Sys2Proof.Machine.execTailObserve s
  | .recordRead => Sys2Proof.Machine.execRecordRead s
  | .admission => Sys2Proof.Machine.execAdmission s
  | .dependenceMet => Sys2Proof.Machine.execDependenceMet s
  | .dispatchTeam => Sys2Proof.Machine.execDispatchTeam s
  | .teamSave => Sys2Proof.Machine.execTeamSave s
  | .deferralTimeout => Sys2Proof.Machine.execDeferralTimeout s
  | .backpressureTimeout => Sys2Proof.Machine.execBackpressureTimeout s
  | .haltResume => Sys2Proof.Machine.execHaltResume s
  | .heldTeamCancel => Sys2Proof.Machine.execHeldTeamCancel s
  | .cancellationObserved => Sys2Proof.Machine.execCancellationObserved s
  | .launchDrained => Sys2Proof.Machine.execLaunchDrained s
  | .clauseFetch => Sys2Proof.Machine.execClauseFetch s
  | .haltArrival => Sys2Proof.Machine.execHaltArrival s
  | .sstepTrap => Sys2Proof.Machine.execSstepTrap s
  | .rowGrant => Sys2Proof.Machine.execRowGrant s
  | .rowSpill => Sys2Proof.Machine.execRowSpill s
  | .rowDrowsy => Sys2Proof.Machine.execRowDrowsy s
  | .groupRelease => Sys2Proof.Machine.execGroupRelease s
  | .countedOpComplete => Sys2Proof.Machine.execCountedOpComplete s
  | .shadowMismatch => Sys2Proof.Machine.execShadowMismatch s
  | .shadowLagTimeout => Sys2Proof.Machine.execShadowLagTimeout s
  | .sleepExpiry => Sys2Proof.Machine.execSleepExpiry s
  | .portEntryArrival => Sys2Proof.Machine.execPortEntryArrival s
  | .portWaitMet => Sys2Proof.Machine.execPortWaitMet s
  | .portTimeout => Sys2Proof.Machine.execPortTimeout s
  | .barrierRelease => Sys2Proof.Machine.execBarrierRelease s
  | .treduceRelease => Sys2Proof.Machine.execTreduceRelease s
  | .bcwaitMet => Sys2Proof.Machine.execBcwaitMet s
  | .lidGrant => Sys2Proof.Machine.execLidGrant s
  | .signalObserved => Sys2Proof.Machine.execSignalObserved s
  | .stageQueueWaitMet => Sys2Proof.Machine.execStageQueueWaitMet s
  | .slotLanded => Sys2Proof.Machine.execSlotLanded s
  | .copyComplete => Sys2Proof.Machine.execCopyComplete s
  | .retnPublish => Sys2Proof.Machine.execRetnPublish s
  | .mirrorAckTimeout => Sys2Proof.Machine.execMirrorAckTimeout s
  | .faultRingSet => Sys2Proof.Machine.execFaultRingSet s
  | .resolve => Sys2Proof.Machine.execResolve s
  | .recode => Sys2Proof.Machine.execRecode s
  | .migrate => Sys2Proof.Machine.execMigrate s
  | .release => Sys2Proof.Machine.execRelease s
  | .l2EvictionWriteback => Sys2Proof.Machine.execL2EvictionWriteback s
  | .chunkListFill => Sys2Proof.Machine.execChunkListFill s
  | .chunkListDrain => Sys2Proof.Machine.execChunkListDrain s
  | .reserveSet => Sys2Proof.Machine.execReserveSet s
  | .chunkReserveReplay => Sys2Proof.Machine.execChunkReserveReplay s
  | .hotidleSet => Sys2Proof.Machine.execHotidleSet s
  | .windowTableWrite => Sys2Proof.Machine.execWindowTableWrite s
  | .inboundTableWrite => Sys2Proof.Machine.execInboundTableWrite s
  | .inboundRequest => Sys2Proof.Machine.execInboundRequest s
  | .inboundMessageRequest => Sys2Proof.Machine.execInboundMessageRequest s
  | .peerFaultResponse => Sys2Proof.Machine.execPeerFaultResponse s
  | .peerTimeout => Sys2Proof.Machine.execPeerTimeout s
  | .portTrained => Sys2Proof.Machine.execPortTrained s
  | .trainingTimeout => Sys2Proof.Machine.execTrainingTimeout s
  | .linkErrorRetrain => Sys2Proof.Machine.execLinkErrorRetrain s
  | .retrainDone => Sys2Proof.Machine.execRetrainDone s
  | .retrainTimeout => Sys2Proof.Machine.execRetrainTimeout s
  | .linkFence => Sys2Proof.Machine.execLinkFence s
  | .linkReturn => Sys2Proof.Machine.execLinkReturn s
  | .linkRetire => Sys2Proof.Machine.execLinkRetire s
  | .busRetrainDue => Sys2Proof.Machine.execBusRetrainDue s
  | .busRetrainStart => Sys2Proof.Machine.execBusRetrainStart s
  | .busRetrainDone => Sys2Proof.Machine.execBusRetrainDone s
  | .burstRetry => Sys2Proof.Machine.execBurstRetry s
  | .laneRepairStart => Sys2Proof.Machine.execLaneRepairStart s
  | .quiesceDone => Sys2Proof.Machine.execQuiesceDone s
  | .repairDone => Sys2Proof.Machine.execRepairDone s
  | .patrolScrub => Sys2Proof.Machine.execPatrolScrub s
  | .tokenRegenerate => Sys2Proof.Machine.execTokenRegenerate s
  | .heaterTrim => Sys2Proof.Machine.execHeaterTrim s
  | .debugRegisterRead => Sys2Proof.Machine.execDebugRegisterRead s
  | .taskQueueCreate => Sys2Proof.Machine.execTaskQueueCreate s
  | .taskQueueDestroy => Sys2Proof.Machine.execTaskQueueDestroy s
  | .taskWindowEntry => Sys2Proof.Machine.execTaskWindowEntry s
  | .taskReady => Sys2Proof.Machine.execTaskReady s
  | .taskStart => Sys2Proof.Machine.execTaskStart s
  | .note => Sys2Proof.Machine.execNote s
  | .zero => Sys2Proof.Machine.execZero s
  | .loadb => Sys2Proof.Machine.execLoadb s
  | .mma => Sys2Proof.Machine.execMma s
  | .mmag => Sys2Proof.Machine.execMmag s
  | .drain => Sys2Proof.Machine.execDrain s
  | .accld => Sys2Proof.Machine.execAccld s
  | .accst => Sys2Proof.Machine.execAccst s
  | .taskEnd => Sys2Proof.Machine.execTaskEnd s
  | .tensorCreate => Sys2Proof.Machine.execTensorCreate s
  | .tensorDestroy => Sys2Proof.Machine.execTensorDestroy s
  | .decodeSessionOpen => Sys2Proof.Machine.execDecodeSessionOpen s
  | .decodeSessionClose => Sys2Proof.Machine.execDecodeSessionClose s
  | .iadd f => Sys2Proof.Machine.execIadd f s
  | .isub f => Sys2Proof.Machine.execIsub f s
  | .imul f => Sys2Proof.Machine.execImul f s
  | .imulhI f => Sys2Proof.Machine.execImulhI f s
  | .imulhN f => Sys2Proof.Machine.execImulhN f s
  | .imad f => Sys2Proof.Machine.execImad f s
  | .iminI f => Sys2Proof.Machine.execIminI f s
  | .iminN f => Sys2Proof.Machine.execIminN f s
  | .imaxI f => Sys2Proof.Machine.execImaxI f s
  | .imaxN f => Sys2Proof.Machine.execImaxN f s
  | .iabs f => Sys2Proof.Machine.execIabs f s
  | .ineg f => Sys2Proof.Machine.execIneg f s
  | .vand f => Sys2Proof.Machine.execVand f s
  | .vor f => Sys2Proof.Machine.execVor f s
  | .vxor f => Sys2Proof.Machine.execVxor f s
  | .vandn f => Sys2Proof.Machine.execVandn f s
  | .shl f => Sys2Proof.Machine.execShl f s
  | .shr f => Sys2Proof.Machine.execShr f s
  | .sar f => Sys2Proof.Machine.execSar f s
  | .rol f => Sys2Proof.Machine.execRol f s
  | .bfeI f => Sys2Proof.Machine.execBfeI f s
  | .bfeN f => Sys2Proof.Machine.execBfeN f s
  | .bfi f => Sys2Proof.Machine.execBfi f s
  | .popc f => Sys2Proof.Machine.execPopc f s
  | .clz f => Sys2Proof.Machine.execClz f s
  | .brev f => Sys2Proof.Machine.execBrev f s
  | .iceq f => Sys2Proof.Machine.execIceq f s
  | .icne f => Sys2Proof.Machine.execIcne f s
  | .icltI f => Sys2Proof.Machine.execIcltI f s
  | .icltN f => Sys2Proof.Machine.execIcltN f s
  | .icleI f => Sys2Proof.Machine.execIcleI f s
  | .icleN f => Sys2Proof.Machine.execIcleN f s
  | .sel f => Sys2Proof.Machine.execSel f s
  | .vmov f => Sys2Proof.Machine.execVmov f s
  | .fadd f => Sys2Proof.Machine.execFadd f s
  | .fsub f => Sys2Proof.Machine.execFsub f s
  | .fmul f => Sys2Proof.Machine.execFmul f s
  | .ffma f => Sys2Proof.Machine.execFfma f s
  | .fmin f => Sys2Proof.Machine.execFmin f s
  | .fmax f => Sys2Proof.Machine.execFmax f s
  | .fabs f => Sys2Proof.Machine.execFabs f s
  | .fneg f => Sys2Proof.Machine.execFneg f s
  | .fceq f => Sys2Proof.Machine.execFceq f s
  | .fclt f => Sys2Proof.Machine.execFclt f s
  | .fcle f => Sys2Proof.Machine.execFcle f s
  | .fcun f => Sys2Proof.Machine.execFcun f s
  | .frcp f => Sys2Proof.Machine.execFrcp f s
  | .frsq f => Sys2Proof.Machine.execFrsq f s
  | .fsqrt f => Sys2Proof.Machine.execFsqrt f s
  | .fexp2 f => Sys2Proof.Machine.execFexp2 f s
  | .flog2 f => Sys2Proof.Machine.execFlog2 f s
  | .fsinp f => Sys2Proof.Machine.execFsinp f s
  | .fcosp f => Sys2Proof.Machine.execFcosp f s
  | .badd2 f => Sys2Proof.Machine.execBadd2 f s
  | .bmul2 f => Sys2Proof.Machine.execBmul2 f s
  | .bfma2 f => Sys2Proof.Machine.execBfma2 f s
  | .dadd f => Sys2Proof.Machine.execDadd f s
  | .dmul f => Sys2Proof.Machine.execDmul f s
  | .dfma f => Sys2Proof.Machine.execDfma f s
  | .cvt f => Sys2Proof.Machine.execCvt f s
  | .bfpcvt f => Sys2Proof.Machine.execBfpcvt f s
  | .bfpcvtExpand f => Sys2Proof.Machine.execBfpcvtExpand f s
  | .resc f => Sys2Proof.Machine.execResc f s
  | .modop f => Sys2Proof.Machine.execModop f s
  | .fclass f => Sys2Proof.Machine.execFclass f s
  | .sadd f => Sys2Proof.Machine.execSadd f s
  | .ssub f => Sys2Proof.Machine.execSsub f s
  | .smul f => Sys2Proof.Machine.execSmul f s
  | .smulhI f => Sys2Proof.Machine.execSmulhI f s
  | .smulhN f => Sys2Proof.Machine.execSmulhN f s
  | .sand f => Sys2Proof.Machine.execSand f s
  | .sor f => Sys2Proof.Machine.execSor f s
  | .sxor f => Sys2Proof.Machine.execSxor f s
  | .sshl f => Sys2Proof.Machine.execSshl f s
  | .sshr f => Sys2Proof.Machine.execSshr f s
  | .ssar f => Sys2Proof.Machine.execSsar f s
  | .sminI f => Sys2Proof.Machine.execSminI f s
  | .sminN f => Sys2Proof.Machine.execSminN f s
  | .smaxI f => Sys2Proof.Machine.execSmaxI f s
  | .smaxN f => Sys2Proof.Machine.execSmaxN f s
  | .sceq f => Sys2Proof.Machine.execSceq f s
  | .scltI f => Sys2Proof.Machine.execScltI f s
  | .scltN f => Sys2Proof.Machine.execScltN f s
  | .ssel f => Sys2Proof.Machine.execSsel f s
  | .smov f => Sys2Proof.Machine.execSmov f s
  | .sbfe f => Sys2Proof.Machine.execSbfe f s
  | .spopc f => Sys2Proof.Machine.execSpopc f s
  | .sclz f => Sys2Proof.Machine.execSclz f s
  | .srdl f => Sys2Proof.Machine.execSrdl f s
  | .srdsr f => Sys2Proof.Machine.execSrdsr f s
  | .swrsr f => Sys2Proof.Machine.execSwrsr f s
  | .sfirst f => Sys2Proof.Machine.execSfirst f s
  | .sldk f => Sys2Proof.Machine.execSldk f s
  | .sldg f => Sys2Proof.Machine.execSldg f s
  | .sstg f => Sys2Proof.Machine.execSstg f s
  | .saadd f => Sys2Proof.Machine.execSaadd f s
  | .sacas f => Sys2Proof.Machine.execSacas f s
  | .ldg f => Sys2Proof.Machine.execLdg f s
  | .ldgb f => Sys2Proof.Machine.execLdgb f s
  | .stg f => Sys2Proof.Machine.execStg f s
  | .stgb f => Sys2Proof.Machine.execStgb f s
  | .lds f => Sys2Proof.Machine.execLds f s
  | .ldsb f => Sys2Proof.Machine.execLdsb f s
  | .sts f => Sys2Proof.Machine.execSts f s
  | .stsb f => Sys2Proof.Machine.execStsb f s
  | .ldk f => Sys2Proof.Machine.execLdk f s
  | .aadd f => Sys2Proof.Machine.execAadd f s
  | .aminI f => Sys2Proof.Machine.execAminI f s
  | .aminN f => Sys2Proof.Machine.execAminN f s
  | .amaxI f => Sys2Proof.Machine.execAmaxI f s
  | .amaxN f => Sys2Proof.Machine.execAmaxN f s
  | .aand f => Sys2Proof.Machine.execAand f s
  | .aor f => Sys2Proof.Machine.execAor f s
  | .axor f => Sys2Proof.Machine.execAxor f s
  | .axchg f => Sys2Proof.Machine.execAxchg f s
  | .acas f => Sys2Proof.Machine.execAcas f s
  | .afadd f => Sys2Proof.Machine.execAfadd f s
  | .aincw f => Sys2Proof.Machine.execAincw f s
  | .gather f => Sys2Proof.Machine.execGather f s
  | .scatter f => Sys2Proof.Machine.execScatter f s
  | .pref f => Sys2Proof.Machine.execPref f s
  | .acq f => Sys2Proof.Machine.execAcq f s
  | .rel f => Sys2Proof.Machine.execRel f s
  | .fence f => Sys2Proof.Machine.execFence f s
  | .lidbind f => Sys2Proof.Machine.execLidbind f s
  | .lidunb f => Sys2Proof.Machine.execLidunb f s
  | .seal f => Sys2Proof.Machine.execSeal f s
  | .unseal f => Sys2Proof.Machine.execUnseal f s
  | .cinv f => Sys2Proof.Machine.execCinv f s
  | .spalloc f => Sys2Proof.Machine.execSpalloc f s
  | .spfree f => Sys2Proof.Machine.execSpfree f s
  | .sprenew f => Sys2Proof.Machine.execSprenew f s
  | .spquery f => Sys2Proof.Machine.execSpquery f s
  | .cbcfg f => Sys2Proof.Machine.execCbcfg f s
  | .cbwait f => Sys2Proof.Machine.execCbwait f s
  | .cbrel f => Sys2Proof.Machine.execCbrel f s
  | .npush f => Sys2Proof.Machine.execNpush f s
  | .npop f => Sys2Proof.Machine.execNpop f s
  | .npeek f => Sys2Proof.Machine.execNpeek f s
  | .npstat f => Sys2Proof.Machine.execNpstat f s
  | .shfl f => Sys2Proof.Machine.execShfl f s
  | .vote f => Sys2Proof.Machine.execVote f s
  | .redux f => Sys2Proof.Machine.execRedux f s
  | .reduxLong f => Sys2Proof.Machine.execReduxLong f s
  | .prfx f => Sys2Proof.Machine.execPrfx f s
  | .prfxLong f => Sys2Proof.Machine.execPrfxLong f s
  | .cpg2s f => Sys2Proof.Machine.execCpg2s f s
  | .cps2g f => Sys2Proof.Machine.execCps2g f s
  | .cpmc f => Sys2Proof.Machine.execCpmc f s
  | .cpxf f => Sys2Proof.Machine.execCpxf f s
  | .cpt2s f => Sys2Proof.Machine.execCpt2s f s
  | .cps2t f => Sys2Proof.Machine.execCps2t f s
  | .cseal f => Sys2Proof.Machine.execCseal f s
  | .cwait f => Sys2Proof.Machine.execCwait f s
  | .ttq f => Sys2Proof.Machine.execTtq f s
  | .ttqMem f => Sys2Proof.Machine.execTtqMem f s
  | .sigadd f => Sys2Proof.Machine.execSigadd f s
  | .sigwait f => Sys2Proof.Machine.execSigwait f s
  | .sqadd f => Sys2Proof.Machine.execSqadd f s
  | .sqtake f => Sys2Proof.Machine.execSqtake f s
  | .nop f => Sys2Proof.Machine.execNop f s
  | .bra f => Sys2Proof.Machine.execBra f s
  | .brv f => Sys2Proof.Machine.execBrv f s
  | .brs f => Sys2Proof.Machine.execBrs f s
  | .brx f => Sys2Proof.Machine.execBrx f s
  | .call f => Sys2Proof.Machine.execCall f s
  | .calli f => Sys2Proof.Machine.execCalli f s
  | .ret f => Sys2Proof.Machine.execRet f s
  | .exit f => Sys2Proof.Machine.execExit f s
  | .yield f => Sys2Proof.Machine.execYield f s
  | .sleep f => Sys2Proof.Machine.execSleep f s
  | .bar f => Sys2Proof.Machine.execBar f s
  | .bara f => Sys2Proof.Machine.execBara f s
  | .barw f => Sys2Proof.Machine.execBarw f s
  | .bcarm f => Sys2Proof.Machine.execBcarm f s
  | .bcwait f => Sys2Proof.Machine.execBcwait f s
  | .treduce f => Sys2Proof.Machine.execTreduce f s
  | .launch f => Sys2Proof.Machine.execLaunch f s
  | .cancel f => Sys2Proof.Machine.execCancel f s
  | .trap f => Sys2Proof.Machine.execTrap f s
  | .rte f => Sys2Proof.Machine.execRte f s
  | .chkerr f => Sys2Proof.Machine.execChkerr f s
  | .pcvrd f => Sys2Proof.Machine.execPcvrd f s
  | .pcvwr f => Sys2Proof.Machine.execPcvwr f s
  | .rdcont f => Sys2Proof.Machine.execRdcont f s
  | .fltinj f => Sys2Proof.Machine.execFltinj f s
  | .tlbinv f => Sys2Proof.Machine.execTlbinv f s
  | .l2wb f => Sys2Proof.Machine.execL2wb f s
  | .bkpt f => Sys2Proof.Machine.execBkpt f s
  | .halt f => Sys2Proof.Machine.execHalt f s
  | .ckpt f => Sys2Proof.Machine.execCkpt f s
  | .copyPieceLanded => Sys2Proof.Machine.execCopyPieceLanded s
  | .mirrorAcknowledgement => Sys2Proof.Machine.execMirrorAcknowledgement s
  | .faultRingHeadAdvance => Sys2Proof.Machine.execFaultRingHeadAdvance s
  | .deviceNumberAssign => Sys2Proof.Machine.execDeviceNumberAssign s
  | .coreClockThrottle => Sys2Proof.Machine.execCoreClockThrottle s
  | .frameTableSet => Sys2Proof.Machine.execFrameTableSet s

end Sys2Proof.Machine
end

