-- ==== Sys2Proof/Machine/Lathe.lean ====
section
/-! DEFINITION. What a lathe does with its turn: it picks a group (R169), begins a clause (R56 to R58) and finds the
next instruction; and the helper that lays an instruction before a group, for `withFetchWord`. -/

namespace Sys2Proof.Machine

open Sys2Proof

/-- Waits that end as soon as their condition does; the others end by an event of their own. -/
def WaitKind.polled : WaitKind → Bool
  | .port | .lid | .signal | .stageQueue | .treduce | .bcwait | .sleep | .page _ _ => false
  | _ => true

/-- Whether a group is WAITING for what no event ends. -/
def Group.polls (g : Group) : Bool :=
  g.st == .waiting && (match g.wait with
    | some w => w.kind.polled
    | none => true)

/-- What a wait of a group hangs on: its reason, limit and phase, the operation it holds, and the rows it has done. -/
def Group.waitState (g : Group) : Option (WaitKind × Nat × Nat) × Option (List Word) × BitVec 33 :=
  (g.wait.map fun w => (w.kind, w.lim, w.phase), g.heldOp, g.pidx)

/-- Whether the condition of a wait has ended: tried again on a state `s`, with `t` as the outcome, the group does not just
wait as it did (R155). -/
def State.waitOver (s t : State) (gid : Nat) : Bool :=
  match s.groups.find gid, t.groups.find gid with
  | some g, some h => h.st != .waiting || g.waitState != h.waitState || s.peers != t.peers
  | _, _ => true

/-- The condition of a wait has ended: the group is READY, and its age restarts; its wait is kept with its place and its
phase. One with spilled names reloads them first (R155, R159). -/
def State.endWait (s : State) (gid : Nat) : State :=
  match s.groups.find gid with
  | some g =>
    if g.spilled ≠ [] then s.enterReload gid else s.modGroup gid fun g => { g with st := .ready, age := s.tick }
  | none => s

/-- Events that a FAILED device still serves: it refuses requests with NOTREADY, but for reset and reads of its state, and
answers peers with a fault; nothing else happens in it (R17, R20). -/
def whileFailed : Instr → Bool
  | .powerGood | .reset | .attestationRequest | .managementWindowRead | .inboundRequest | .inboundMessageRequest
  | .deviceNumberAssign | .channelDieRetire | .retirecntSet | .busLaneRecalibrate | .sliceRetire | .tsBankFence
  | .tsBankRetire | .hbmStackRetire | .firmwareUpdate | .profileWrite | .contextCreate | .contextDestroy | .ctxcfgSet
  | .queueCreate | .queueActivate | .queueSuspend | .queueResume | .queueDestroy | .haltResume | .heldTeamCancel
  | .faultRingSet | .resolve | .recode | .migrate | .release | .chunkListFill | .chunkListDrain | .reserveSet
  | .hotidleSet | .windowTableWrite | .inboundTableWrite | .linkFence | .linkReturn | .linkRetire
  | .debugRegisterRead | .taskQueueCreate | .taskQueueDestroy | .tensorCreate | .tensorDestroy | .decodeSessionOpen
  | .decodeSessionClose | .frameTableSet => true
  | _ => false

/-- Whether a group may have the lathe's turn: it is READY, no group it yielded to is still READY and unserved (R57, R182), no
single-step trap is due (R99), and at a clause boundary a halt has not been on its way for 32 clauses (R94). -/
def State.eligible (s : State) (g : Group) : Bool :=
  g.st == .ready
    && ! (g.after.any fun o => ((s.groups.find o).map (·.st)) == some .ready)
    && ! g.stepDue
    && ! (g.halt.isSome && decide (g.skid ≥ 32) && ! ((g.clause.map (·.begun)).getD false))

/-- The eligible group of a lathe that has waited longest; equal waits go to the lower slot (R169). -/
def State.pick (s : State) (core k : Nat) : Option Nat :=
  let c := (List.range 4).filterMap fun j =>
    let gid := core * 128 + k % 32 + 32 * j
    match s.groups.find gid with
    | some g => if s.eligible g then some (gid, g.age) else none
    | none => none
  (minBy (·.2) c).map (·.1)

/-- Whether a clause's waits hold: DCk ≤ WTH for every k of WMASK (R56). -/
def Clause.ready (c : Clause) (g : Group) : Bool :=
  (List.range 6).all fun k => ! c.header.getLsbD (19 + k) || decide (g.dc k ≤ bits c.header.toNat 18 16)

/-- A clause begins: its active set is fixed, and a halt on its way or pending counts it (R57, R58, R91). -/
def Group.begin (c : Clause) (g : Group) : Group :=
  { g with clause := some { c with begun := true, active := g.active }
           skid := if g.halt.isSome then g.skid + 1 else g.skid
           pendSkid := if g.pendHalt then g.pendSkid + 1 else g.pendSkid }

/-- A word that decodes to no instruction traps the whole clause: ILLOP for an unassigned opcode, ILLCL for an instruction
that runs past the clause (R55, R74, R75). -/
def State.badWord (s : State) (gid : Nat) (g : Group) (c : Clause) (e : DecodeError) : State :=
  let code := match e with
    | .unassigned _ => 0x02
    | _ => 0x01
  takeTrap s gid { code := code, sub := 0, imm := 0, lanes := g.active } g.active c.addr 0

/-- A context, launch, team and group that run on core 0, slot 0, with a fetched clause that starts with the given words:
what `withFetchWord` lays before the next step (log entry 2). -/
def laidDescriptor : List Byte :=
  toBytes 4 1 ++ toBytes 4 0 ++ toBytes 4 0xFFFFFFFF ++ [0, 64, 0, 0] ++ toBytes 2 1 ++ [0, 1, 0, 0]
    ++ List.replicate 10 0 ++ List.replicate 224 0

def laidLaunch : Launch :=
  { q := 0, ctx := 0, tower := 0, prio := 1, record := List.replicate 64 0, desc := laidDescriptor, args := [], sq := []
    st := .running, endv := 0, reason := 0, info := ⟨0, 0, 0, 0, 0, 0, 0, 0⟩, chkiv := 0, spoor := 0, order := 0
    placed := [(0, 1)], ended := [], footprint := [], grid := [], drainAt := 0 }

def laidTeam : Team :=
  { launch := 0, ctx := 0, stage := 0, num := 0, st := .running, cores := [0], per := 1, members := [.on 0]
    bars := List.replicate 4 ⟨1, 0, false⟩, bcs := [], slotT := 0, slotG := [], slotR := [], extraR := [], bufs := []
    safe := true, snapSlot := 0, images := [], captured := 0, placedAt := 0, order := 0, stoppedAt := 0, halting := false, fresh := [], dests := [], binds := [] }

def laidGroup (ws : List Word) : Group :=
  { newGroup 0 0 0 false 0 0 [] 0 with
    clause := some { addr := 0, header := 0xF0000000, words := ws, pos := 0, begun := true, active := 0xFFFFFFFF } }

end Sys2Proof.Machine
end

