-- ==== Sys2Proof/Machine/Step.lean ====
section
/-! DEFINITION. One step of the machine: the next turn is taken from the schedule, and the event occurs or the lathe
issues an instruction. -/

namespace Sys2Proof.Machine

open Sys2Proof

/-- The current group issues its next instruction: a clause is fetched if none is, begins if its waits hold, and the
instruction at its position executes. Words that decode to nothing trap as R74 and R75 say. -/
def lead (s : State) (gid : Nat) : Host.Outcome State Fault Refusal :=
  match s.groups.find gid with
  | none => .next s
  | some g =>
    match g.clause with
    | none => exec .clauseFetch { s with arg := { s.arg with a := gid } }
    | some c =>
      if c.begun = false ∧ c.ready g = false then .next (s.waitFor gid .counters 0 0)
      else
        let s := if c.begun then s else s.modGroup gid (Group.begin c)
        match c.instr with
        | .ok (i, _) => exec i { s with cur := some gid }
        | .error e => .next (s.badWord gid g c e)

/-- Waits whose condition has ended end: each waiting group is tried on the state as it stands (R155). -/
def State.endWaits (s : State) : State :=
  if s.dev.st ≠ .ready then s
  else
    s.groups.foldl (fun (s : State) (p : Nat × Group) =>
      if p.2.polls then
        match lead { s with cur := none } p.1 with
        | .next t => if s.waitOver t p.1 then s.endWait p.1 else s
        | _ => s
      else s) s

/-- A turn: an event occurs with its operands, a lathe takes its turn, or an access finds an error in an array (log entry
32). Only a READY device runs groups; in a FAILED one only the events that R20 excepts occur. -/
def takeTurn (s : State) : Turn → Host.Outcome State Fault Refusal
  | .event t i arg =>
    let s := { s.passTime t with arg := arg, cur := none }
    if i.isEvent && (s.dev.st != .failed || whileFailed i) then exec i s else .next s
  | .lathe t core k =>
    let s := { s.passTime t with cur := none }
    if s.dev.st ≠ .ready then .next s
    else
      match s.pick core k with
      | none => .next s
      | some gid => lead s gid
  | .upset t u =>
    let s := { s.passTime t with cur := none }
    .next (if s.dev.st = .failed then s else s.upset u)

/-- One step: waits that are over end, and the turn that stands first is taken, or, when none stands, one that the
surroundings choose (log entry 1). -/
def step (s : State) : Host.Outcome State Fault Refusal :=
  let s := { s.endWaits with tick := s.tick + 1 }
  match s.turns with
  | t :: r => takeTurn { s with turns := r } t
  | [] =>
    let (dt, core, k) := Config.turn s.tick
    takeTurn s (.lathe (s.time + dt) core k)

/-- `s` with an instruction laid before the first group of the device, so that the next step issues it: bits of the words
as spec/opcode_table.json numbers them, zero above `nbits` (log entry 2). -/
def State.withFetchWord (s : State) (nbits w : Nat) : State :=
  let w := w % 2 ^ nbits
  let ws := (List.range 15).map fun j => BitVec.ofNat 32 (w / 2 ^ (32 * j))
  { s with
    dev := { s.dev with st := .ready, step := 9 }
    ctxs := s.ctxs.put 0 { freshCtx with st := .resident }
    launches := s.launches.put 0 laidLaunch
    teams := s.teams.put 0 laidTeam
    groups := s.groups.put 0 (laidGroup ws)
    turns := [.lathe s.time 0 0] }

end Sys2Proof.Machine
end

