-- ==== Sys2Proof/Safety.lean ====
section
/-! DEFINITION. The terms that claims use: what a safe run is, when an instruction may issue, where it leaves its group,
and what it keeps. -/

namespace Sys2Proof.Machine

open Sys2Proof

/-- A step that answers a next state. -/
def State.goesOn (s : State) : Prop := ∃ t, step s = .next t

/-- A run of `n` steps none of which stops. -/
def State.safeFor : Nat → State → Prop
  | 0, _ => True
  | n + 1, s => ∃ t, step s = .next t ∧ State.safeFor n t

/-- Instruction `i` of shape `sh` is the current group's, and nothing keeps it from issuing: its clause, team and launch
stand, it is well formed and allowed in the group's mode, no name is spilled, the rows it needs are there, SBCHK finds no
register too early, its counter has room, and no shadow is compared with it (R55, R74, R80, R119, R158, R159, R168). -/
structure Issuable (i : Instr) (sh : Shape) (s : State) (gid : Nat) (g : Group) (c : Clause) (t : Team) (l : Launch) :
    Prop where
  cur : s.cur = some gid
  group : s.groups.find gid = some g
  clause : g.clause = some c
  team : s.teams.find g.team = some t
  launch : s.launches.find t.launch = some l
  allowed : i.defect (cfgPriv g.ctxcfg) = none
  loaded : g.spilled = []
  rows : s.askRows gid g (g.newNames sh.vw).length = .granted
  timely : cfgSbchk g.ctxcfg = false ∨ g.tooEarly sh c.active = false
  room : sh.dc < 6 → g.dc sh.dc < 63
  alone : l.redundant = false

/-- What the issuing group sees (R78, R79). -/
def seen (s : State) (gid : Nat) (g : Group) (c : Clause) (t : Team) (l : Launch) : Env := ⟨gid, g.view s.tick, c, t, l⟩

/-- Group `gid` is past an instruction of `n` words at which its clause `c` stood: behind it in the clause, or, after the
clause's last word, at the next clause with its active lanes (R53, R55). -/
def PastInstr (s : State) (gid : Nat) (g : Group) (c : Clause) (n : Nat) : Prop :=
  ∃ h, s.groups.find gid = some h ∧ h.wait = none ∧
    if c.pos + n < c.words.length then h.clause = some { c with pos := c.pos + n } ∧ h.pcv = g.pcv
    else h.clause = none ∧ h.pcv = rowOf fun l => if inMask c.active l then c.next else lane g.pcv l

/-- The clause of group `gid` has ended and its active lanes go on at the addresses of `target` (R173). -/
def SentTo (s : State) (gid : Nat) (g : Group) (c : Clause) (target : Nat → Word) : Prop :=
  ∃ h, s.groups.find gid = some h ∧ h.clause = none ∧ h.wait = none ∧
    h.pcv = rowOf fun l => if inMask c.active l then target l else lane g.pcv l

/-- The vector register `v` of group `gid` (R156). -/
def State.vregOf (s : State) (gid v : Nat) : Row := ((s.groups.find gid).map fun g => g.vreg v).getD zeroRow

/-- The scalar register `n` of group `gid` (R162). -/
def State.sregOf (s : State) (gid n : Nat) : DWord := ((s.groups.find gid).map fun g => g.sreg n).getD 0

/-- Everything outside the groups and the cores is as before (the model's clock of steps apart, nothing passes time). -/
structure SameOutside (s t : State) : Prop where
  mem : t.mem = s.mem
  poison : t.poison = s.poison
  time : t.time = s.time
  dev : t.dev = s.dev
  towers : t.towers = s.towers
  clusters : t.clusters = s.clusters
  links : t.links = s.links
  ctxs : t.ctxs = s.ctxs
  queues : t.queues = s.queues
  launches : t.launches = s.launches
  teams : t.teams = s.teams
  copies : t.copies = s.copies
  peers : t.peers = s.peers
  mirrors : t.mirrors = s.mirrors
  ends : t.ends = s.ends
  logs : t.responses = s.responses ∧ t.irqs = s.irqs ∧ t.xferLog = s.xferLog ∧ t.arrayLog = s.arrayLog ∧ t.svcLog = s.svcLog

/-- The cores are as before, but for the time at which a row of the register pool was last freed. -/
def SameCores (s t : State) : Prop := ∀ k, { t.core k with freedAt := 0 } = { s.core k with freedAt := 0 }

/-- The other groups are as before, but that the issuing group no longer stands in their lists of those that issue first
(R57, R182). -/
def SameOthers (s t : State) (gid : Nat) : Prop :=
  ∀ k, k ≠ gid → t.groups.find k = (s.groups.find k).map fun g => { g with after := g.after.filter (· != gid) }

/-- The special registers, the trap frame, the ports, the barriers and the batch number of group `gid` are those of `g`;
but a clause with RGN sets REV with its first instruction, one that ends under SSTEP notes its lanes for the trap to
come, and a group whose last lane ended leaves handler mode (R57, R99, R155, R163). -/
structure Specials (t : State) (gid : Nat) (g : Group) (c : Clause) (h : Group) : Prop where
  find : t.groups.find gid = some h
  config : h.ctxcfg = g.ctxcfg ∧ h.dphase = g.dphase ∧ h.pidx = g.pidx ∧ h.batch = g.batch
  frame : h.spcv = g.spcv ∧ h.cause = g.cause ∧ h.tword = g.tword ∧ h.tclause = g.tclause ∧ h.skidn = g.skidn
  mode : h.st ≠ .retiring → h.hmode = g.hmode
  mask : cfgSstep g.ctxcfg = false → h.tmask = g.tmask
  rev : c.header.getLsbD 15 = false → h.rev = g.rev
  ports : h.ports = g.ports ∧ h.lag = g.lag
  bars : h.bars = g.bars

/-- An instruction of group `gid` that writes registers only: vector registers outside `vw` keep their lanes unless a last
use or a region's pending free gives up their row, scalar registers outside `sw` keep their values, and nothing outside
the group changes. -/
structure RegisterOnly (s t : State) (gid : Nat) (g : Group) (c : Clause) (sh : Shape) : Prop where
  outside : SameOutside s t
  cores : SameCores s t
  others : SameOthers s t gid
  vectors : ∀ v, v ∉ sh.vw → v ∉ sh.lu → v ∉ g.pendFree → t.vregOf gid v = g.vreg v
  scalars : ∀ n, n ∉ sh.sw → t.sregOf gid n = g.sreg n
  specials : ∃ h, Specials t gid g c h
  counters : (t.groups.find gid).map (·.dcs) = some g.dcs

/-- An operation of group `gid` is under way under its counter, which has gone up by one: its results stand with it, and
those of registers that another pending operation also writes are left open (R79, R168). -/
def Pending (t : State) (gid : Nat) (g : Group) (c : Clause) (sh : Shape) (e : Eff) (a : OpAct) : Prop :=
  ∃ h o, t.groups.find gid = some h ∧ h.ops.getLast? = some o ∧ h.ops.length = g.ops.length + 1 ∧
    h.dc sh.dc = g.dc sh.dc + 1 ∧ (∀ k, k ≠ sh.dc → h.dc k = g.dc k) ∧
    o.dc = sh.dc ∧ o.opc = sh.opc ∧ o.sz = sh.sz ∧ o.clause = c.addr ∧
    o.vres.map (fun p => (p.1, p.2.2)) = e.vw.map (fun p => (p.1, p.2.2)) ∧ o.sres.map (·.1) = e.sw.map (·.1) ∧
    ((∀ p ∈ g.ops, (∀ q ∈ p.vres, q.1 ∉ e.vw.map (·.1)) ∧ ∀ q ∈ p.sres, q.1 ∉ e.sw.map (·.1)) →
      o.vres = e.vw ∧ o.sres = e.sw) ∧
    ((∀ p ∈ g.ops, p.sres = []) → o.act = a)

/-- An instruction of `n` words is done: group `gid` is past it, the state outside it is that of `s`, and its results are
in their registers, or pending under its counter; every other register is as it was. -/
structure Finished (s t : State) (gid : Nat) (g : Group) (c : Clause) (sh : Shape) (n : Nat) (e : Eff) (a : OpAct) :
    Prop where
  past : PastInstr t gid g c n
  outside : SameOutside s t
  cores : SameCores s t
  others : SameOthers s t gid
  vectors : ∀ v, (sh.dc = 6 → v ∉ sh.vw) → v ∉ sh.lu → v ∉ g.pendFree → ∀ n < 32,
    lane (t.vregOf gid v) n = lane (g.vreg v) n
  scalars : ∀ k, (sh.dc = 6 → k ∉ sh.sw) → t.sregOf gid k = g.sreg k
  specials : ∃ h, Specials t gid g c h
  now : sh.dc = 6 → (∀ p ∈ e.vw, t.vregOf gid p.1 = mergeRow p.2.2 (g.vreg p.1) p.2.1) ∧
    (∀ p ∈ e.sw, t.sregOf gid p.1 = p.2) ∧ (t.groups.find gid).map (·.dcs) = some g.dcs
  counted : sh.dc ≠ 6 → Pending t gid g c sh e a

end Sys2Proof.Machine
end

