-- ==== Sys2Proof/Certificates/Slice0/Obligations.lean ====
section
/-! DEFINITION. The claims about the machine, each a statement of the manual in the model's terms. -/

namespace Sys2Proof.Claims

open Sys2Proof Sys2Proof.Machine

/-! ## Tables of instructions and the values that the manual gives them -/

/-- Two-source integer instructions with the value of a and b (R192 to R195, R197). -/
def twoSource : List ((VR → Instr) × (Word → Word → Word)) :=
  [ (.iadd, fun a b => BitVec.ofNat 32 (a.toNat + b.toNat)),
    (.isub, fun a b => BitVec.ofInt 32 (a.toNat - b.toNat)),
    (.imul, fun a b => BitVec.ofNat 32 (a.toNat * b.toNat)),
    (.imulhI, fun a b => BitVec.ofInt 32 (a.toInt * b.toInt / 2 ^ 32)),
    (.imulhN, fun a b => BitVec.ofNat 32 (a.toNat * b.toNat / 2 ^ 32)),
    (.iminI, fun a b => if a.toInt ≤ b.toInt then a else b),
    (.iminN, fun a b => if a.toNat ≤ b.toNat then a else b),
    (.imaxI, fun a b => if a.toInt ≤ b.toInt then b else a),
    (.imaxN, fun a b => if a.toNat ≤ b.toNat then b else a),
    (.vand, fun a b => a &&& b),
    (.vor, fun a b => a ||| b),
    (.vxor, fun a b => a ^^^ b),
    (.vandn, fun a b => a &&& ~~~b),
    (.shl, fun a b => if b.toNat % 256 < 32 then BitVec.ofNat 32 (a.toNat * 2 ^ (b.toNat % 256)) else 0),
    (.shr, fun a b => if b.toNat % 256 < 32 then BitVec.ofNat 32 (a.toNat / 2 ^ (b.toNat % 256)) else 0),
    (.sar, fun a b => if b.toNat % 256 < 32 then BitVec.ofInt 32 (a.toInt / 2 ^ (b.toNat % 256))
      else if 0 ≤ a.toInt then 0 else 0xFFFFFFFF),
    (.rol, fun a b => a.rotateLeft (b.toNat % 256 % 32)) ]

/-- The comparisons with their relation (R197). -/
def comparisons : List ((VR → Instr) × (Word → Word → Bool)) :=
  [ (.iceq, fun a b => a.toNat = b.toNat), (.icne, fun a b => a.toNat ≠ b.toNat),
    (.icltI, fun a b => a.toInt < b.toInt), (.icltN, fun a b => a.toNat < b.toNat),
    (.icleI, fun a b => a.toInt ≤ b.toInt), (.icleN, fun a b => a.toNat ≤ b.toNat) ]

/-- One-source integer instructions with the value of b (R193, R196, R198, R202). -/
def oneSource : List ((VR → Instr) × (Word → Word)) :=
  [ (.iabs, fun b => BitVec.ofInt 32 b.toInt.natAbs),
    (.ineg, fun b => BitVec.ofInt 32 (0 - b.toNat)),
    (.popc, fun b => BitVec.ofNat 32 ((List.range 32).countP fun k => b.getLsbD k)),
    (.clz, fun b => BitVec.ofNat 32 (32 - b.toNat.size)),
    (.brev, fun b => b.reverse),
    (.vmov, fun b => b),
    (.fabs, fun b => b &&& 0x7FFFFFFF),
    (.fneg, fun b => b ^^^ 0x80000000) ]

/-- Instructions that also read the old destination d, with the value of a, b and d (R192, R198). -/
def threeSource : List ((VR → Instr) × (Word → Word → Word → Word)) :=
  [ (.imad, fun a b d => BitVec.ofNat 32 (a.toNat * b.toNat + d.toNat)),
    (.sel, fun a b d => if d ≠ 0 then a else b) ]

/-- Position and width of the bit field that b names (R195). -/
def fieldAt (b : Word) : Nat × Nat := (b.toNat % 32, min (b.toNat / 256 % 64) (32 - b.toNat % 32))

/-- Two-source scalar instructions with the value of a and b (R218). -/
def scalarTwo : List ((SR → Instr) × (DWord → DWord → DWord)) :=
  [ (.sadd, fun a b => BitVec.ofNat 64 (a.toNat + b.toNat)),
    (.ssub, fun a b => BitVec.ofInt 64 (a.toNat - b.toNat)),
    (.smul, fun a b => BitVec.ofNat 64 (a.toNat * b.toNat)),
    (.smulhI, fun a b => BitVec.ofInt 64 (a.toInt * b.toInt / 2 ^ 64)),
    (.smulhN, fun a b => BitVec.ofNat 64 (a.toNat * b.toNat / 2 ^ 64)),
    (.sand, fun a b => a &&& b),
    (.sor, fun a b => a ||| b),
    (.sxor, fun a b => a ^^^ b),
    (.sshl, fun a b => if b.toNat % 256 < 64 then BitVec.ofNat 64 (a.toNat * 2 ^ (b.toNat % 256)) else 0),
    (.sshr, fun a b => if b.toNat % 256 < 64 then BitVec.ofNat 64 (a.toNat / 2 ^ (b.toNat % 256)) else 0),
    (.ssar, fun a b => if b.toNat % 256 < 64 then BitVec.ofInt 64 (a.toInt / 2 ^ (b.toNat % 256))
      else if 0 ≤ a.toInt then 0 else 0xFFFFFFFFFFFFFFFF),
    (.sminI, fun a b => if a.toInt ≤ b.toInt then a else b),
    (.sminN, fun a b => if a.toNat ≤ b.toNat then a else b),
    (.smaxI, fun a b => if a.toInt ≤ b.toInt then b else a),
    (.smaxN, fun a b => if a.toNat ≤ b.toNat then b else a),
    (.sceq, fun a b => if a = b then 0xFFFFFFFFFFFFFFFF else 0),
    (.scltI, fun a b => if a.toInt < b.toInt then 0xFFFFFFFFFFFFFFFF else 0),
    (.scltN, fun a b => if a.toNat < b.toNat then 0xFFFFFFFFFFFFFFFF else 0) ]

/-- One-source scalar instructions with the value of b (R218). -/
def scalarOne : List ((SR → Instr) × (DWord → DWord)) :=
  [ (.smov, fun b => b),
    (.spopc, fun b => BitVec.ofNat 64 ((List.range 64).countP fun k => b.getLsbD k)),
    (.sclz, fun b => BitVec.ofNat 64 (64 - b.toNat.size)) ]

/-! ## Operands as the issuing group sees them -/

/-- Source A in a lane (R188). -/
def opA (s : State) (g : Group) (f : VR) (n : Nat) : Word := lane ((g.view s.tick).vreg f.a.toNat) n

/-- Source B in a lane, at 32 bits: a vector register, the low half of a scalar, or the literal (R61, R188). -/
def opB (s : State) (g : Group) (f : VR) (n : Nat) : Word :=
  if f.b.toNat < 64 then lane ((g.view s.tick).vreg f.b.toNat) n
  else if f.b.toNat = 127 then f.lit.getD 0
  else ((g.view s.tick).sreg (f.b.toNat - 64)).setWidth 32

/-- The old destination in a lane (R188). -/
def opD (s : State) (g : Group) (f : VR) (n : Nat) : Word := lane ((g.view s.tick).vreg f.d.toNat) n

/-- The first scalar source (R218). -/
def opSA (s : State) (g : Group) (f : SR) : DWord := (g.view s.tick).sreg f.a.toNat

/-- The second scalar source: s0 to s126, or the literal sign-extended (R63, R218). -/
def opSB (s : State) (g : Group) (f : SR) : DWord :=
  if f.b.toNat = 127 then (f.lit.getD 0).signExtend 64 else (g.view s.tick).sreg f.b.toNat

/-- The shapes of VR instructions: of two sources, of one, and of two with the old destination. -/
def shape2 (f : VR) : Shape := ({} : Form).shape f
def shape1 (f : VR) : Shape := ({ two := false } : Form).shape f
def shape3 (f : VR) : Shape := ({ three := true } : Form).shape f

/-- The shapes of scalar instructions: of two sources, of one, and of two with the old destination. -/
def shapeS2 (f : SR) : Shape := { sr := f.a.toNat :: srBRegs f, sw := [f.d.toNat], stall := f.stall.toNat }
def shapeS1 (f : SR) : Shape := { sr := srBRegs f, sw := [f.d.toNat], stall := f.stall.toNat }
def shapeS3 (f : SR) : Shape :=
  { sr := f.a.toNat :: f.d.toNat :: srBRegs f, sw := [f.d.toNat], stall := f.stall.toNat }

/-- The instruction answers a next state in which lane `n` of the active set holds `val n` in register `d` and the other
lanes keep theirs, the group is past it, and nothing but registers is touched (R58, R156, R189). -/
def WritesLanes (i : Instr) (sh : Shape) (d : Nat) (s : State) (gid : Nat) (g : Group) (c : Clause) (val : Nat → Word) :
    Prop :=
  ∃ t, exec i s = .next t ∧ PastInstr t gid g c (encode i).length ∧ RegisterOnly s t gid g c sh ∧
    ∀ n < 32, lane (t.vregOf gid d) n = if inMask c.active n then val n else lane (g.vreg d) n

/-- As `WritesLanes`, for a scalar register. -/
def WritesScalar (i : Instr) (sh : Shape) (d : Nat) (s : State) (gid : Nat) (g : Group) (c : Clause) (val : DWord) : Prop :=
  ∃ t, exec i s = .next t ∧ PastInstr t gid g c (encode i).length ∧ RegisterOnly s t gid g c sh ∧ t.sregOf gid d = val

end Sys2Proof.Claims

open Sys2Proof Sys2Proof.Machine Sys2Proof.Claims

/-! ## The vector and scalar instructions -/

/-- R192, R193, R194: the two-source integer instructions write their value in every active lane, whatever the operand
form, and keep everything else. -/
def Sys2Proof.Claims.VectorTwoSourceResult : Prop :=
  ∀ p ∈ twoSource, ∀ f s gid g c t l, Issuable (p.1 f) (shape2 f) s gid g c t l →
    WritesLanes (p.1 f) (shape2 f) f.d.toNat s gid g c fun n => p.2 (opA s g f n) (opB s g f n)

/-- R197: the comparisons write all ones where the relation holds and zero where it does not. -/
def Sys2Proof.Claims.VectorComparisonMask : Prop :=
  ∀ p ∈ comparisons, ∀ f s gid g c t l, Issuable (p.1 f) (shape2 f) s gid g c t l →
    WritesLanes (p.1 f) (shape2 f) f.d.toNat s gid g c
      fun n => if p.2 (opA s g f n) (opB s g f n) then 0xFFFFFFFF else 0

/-- R193, R196, R198, R202: the one-source instructions on 32-bit words. -/
def Sys2Proof.Claims.VectorOneSourceResult : Prop :=
  ∀ p ∈ oneSource, ∀ f s gid g c t l, Issuable (p.1 f) (shape1 f) s gid g c t l →
    WritesLanes (p.1 f) (shape1 f) f.d.toNat s gid g c fun n => p.2 (opB s g f n)

/-- R192, R198: IMAD and SEL read the old destination of the lane. -/
def Sys2Proof.Claims.VectorThreeSourceResult : Prop :=
  ∀ p ∈ threeSource, ∀ f s gid g c t l, Issuable (p.1 f) (shape3 f) s gid g c t l →
    WritesLanes (p.1 f) (shape3 f) f.d.toNat s gid g c fun n => p.2 (opA s g f n) (opB s g f n) (opD s g f n)

/-- R195: BFE takes the field of a at position p and width w and extends it with zeros or with its highest bit; BFI puts
the low w bits of a there and keeps every other bit of d. Bit by bit, k being the bit of the result. -/
def Sys2Proof.Claims.BitFieldResult : Prop :=
  ∀ f s gid g c t l,
    (Issuable (.bfeN f) (shape2 f) s gid g c t l → WritesLanes (.bfeN f) (shape2 f) f.d.toNat s gid g c fun n =>
      BitVec.ofFnLE fun k : Fin 32 => decide (k.val < (fieldAt (opB s g f n)).2) &&
        (opA s g f n).getLsbD ((fieldAt (opB s g f n)).1 + k.val)) ∧
    (Issuable (.bfeI f) (shape2 f) s gid g c t l → WritesLanes (.bfeI f) (shape2 f) f.d.toNat s gid g c fun n =>
      BitVec.ofFnLE fun k : Fin 32 => decide (0 < (fieldAt (opB s g f n)).2) &&
        (opA s g f n).getLsbD ((fieldAt (opB s g f n)).1 + min k.val ((fieldAt (opB s g f n)).2 - 1))) ∧
    (Issuable (.bfi f) (shape3 f) s gid g c t l → WritesLanes (.bfi f) (shape3 f) f.d.toNat s gid g c fun n =>
      BitVec.ofFnLE fun k : Fin 32 =>
        if (fieldAt (opB s g f n)).1 ≤ k.val ∧ k.val < (fieldAt (opB s g f n)).1 + (fieldAt (opB s g f n)).2 then
          (opA s g f n).getLsbD (k.val - (fieldAt (opB s g f n)).1)
        else (opD s g f n).getLsbD k.val)

/-- R218: the scalar instructions of two sources compute once for the group. -/
def Sys2Proof.Claims.ScalarTwoSourceResult : Prop :=
  ∀ p ∈ scalarTwo, ∀ (f : SR) s gid g c t l, Issuable (p.1 f) (shapeS2 f) s gid g c t l →
    WritesScalar (p.1 f) (shapeS2 f) f.d.toNat s gid g c (p.2 (opSA s g f) (opSB s g f))

/-- R218, R219: the scalar instructions of one source, SSEL, and SBFE bit by bit. -/
def Sys2Proof.Claims.ScalarOtherResult : Prop :=
  ∀ (f : SR) s gid g c t l,
    (∀ p ∈ scalarOne, Issuable (p.1 f) (shapeS1 f) s gid g c t l →
      WritesScalar (p.1 f) (shapeS1 f) f.d.toNat s gid g c (p.2 (opSB s g f))) ∧
    (Issuable (.ssel f) (shapeS3 f) s gid g c t l → WritesScalar (.ssel f) (shapeS3 f) f.d.toNat s gid g c
      (if (g.view s.tick).sreg f.d.toNat ≠ 0 then opSA s g f else opSB s g f)) ∧
    (Issuable (.sbfe f) (shapeS2 f) s gid g c t l → WritesScalar (.sbfe f) (shapeS2 f) f.d.toNat s gid g c
      (BitVec.ofFnLE fun k : Fin 64 =>
        let p := (opSB s g f).toNat % 64
        let w := min ((opSB s g f).toNat / 256 % 128) (64 - p)
        if k.val < w then (opSA s g f).getLsbD (p + k.val)
        else decide (0 < w) && (opSB s g f).getLsbD 15 && (opSA s g f).getLsbD (p + w - 1)))

namespace Sys2Proof.Claims

open Sys2Proof Sys2Proof.Machine

/-- The rounding of a VX instruction in a lane: its code, and the dither of lane and phase (R33, R36). -/
def rndAt (g : Group) (f : VX) (n : Nat) : Rnd := ⟨f.rm.toNat, dither n g.dphase⟩

/-- A 64-bit operand of a lane: the pair of registers v and v+1 (R28). -/
def pairAt (s : State) (g : Group) (v n : Nat) : DWord :=
  lane ((g.view s.tick).vreg (v + 1)) n ++ lane ((g.view s.tick).vreg v) n

/-- Source B at 64 bits: a pair, a scalar, or the literal widened (R61, R63). -/
def opB64 (w : Wide) (s : State) (g : Group) (f : VR) (n : Nat) : DWord :=
  if f.b.toNat < 64 then pairAt s g f.b.toNat n
  else if f.b.toNat = 127 then w.lit (f.lit.getD 0)
  else (g.view s.tick).sreg (f.b.toNat - 64)

/-- Value and exceptions of a floating-point instruction in a lane. -/
def floatAt (i : Instr) (s : State) (g : Group) (n : Nat) : DWord × Nat :=
  let word := fun (r : Nat × Nat) => (BitVec.ofNat 64 r.1, r.2)
  let vx := fun (f : VX) (fn : Rnd → Bool → Nat → Nat → Nat → Nat × Nat) =>
    word (fn (rndAt g f n) (f.fl.getLsbD 0) (opA s g f.v n).toNat (opB s g f.v n).toNat (opD s g f.v n).toNat)
  let vr := fun (f : VR) (fn : Nat → Nat → Nat × Nat) => word (fn (opA s g f n).toNat (opB s g f n).toNat)
  let dp := fun (f : VX) (fn : Rnd → FVal → FVal → FVal → Nat × Nat) =>
    word (fn (rndAt g f n) (fp64.read (pairAt s g f.v.a.toNat n).toNat) (fp64.read (opB64 .fp64 s g f.v n).toNat)
      (fp64.read (pairAt s g f.v.d.toNat n).toNat))
  match i with
  | .fadd f => vx f fun r _ a b _ => fp32.addV r (fp32.read a) (fp32.read b)
  | .fsub f => vx f fun r _ a b _ => fp32.addV r (fp32.read a) (fp32.read b).neg
  | .fmul f => vx f fun r _ a b _ => fp32.mulR r (fp32.read a) (fp32.read b)
  | .ffma f => vx f fun r _ a b d => fp32.fmaR r (fp32.read a) (fp32.read b) (fp32.read d)
  | .fsqrt f => vx f fun r _ _ b _ => sqrt32 r b
  | .badd2 f => vx f fun r sat a b d => twoBf16 sat (fun x y _ => bf16.addV r x y) a b d
  | .bmul2 f => vx f fun r sat a b d => twoBf16 sat (fun x y _ => bf16.mulR r x y) a b d
  | .bfma2 f => vx f fun r sat a b d => twoBf16 sat (fun x y z => bf16.fmaR r x y z) a b d
  | .fmin f => vr f fun a b => minMax32 false a b
  | .fmax f => vr f fun a b => minMax32 true a b
  | .fceq f => vr f fun a b => fcmp true (ordered (· == 0)) a b
  | .fclt f => vr f fun a b => fcmp false (ordered (decide <| · < 0)) a b
  | .fcle f => vr f fun a b => fcmp false (ordered (decide <| · ≤ 0)) a b
  | .fcun f => vr f fun a b => fcmp true (fun x y => x.isNan || y.isNan) a b
  | .frcp f => vr f fun _ b => frcp32 b
  | .frsq f => vr f fun _ b => frsq32 b
  | .fexp2 f => vr f fun _ b => fexp2 b
  | .flog2 f => vr f fun _ b => flog2 b
  | .fsinp f => vr f fun _ b => fsincos false b
  | .fcosp f => vr f fun _ b => fsincos true b
  | .fclass f => vr f fun _ b => (fclass32 b, 0)
  | .dadd f => dp f fun r a b _ => fp64.addV r a b
  | .dmul f => dp f fun r a b _ => fp64.mulR r a b
  | .dfma f => dp f fun r a b d => fp64.fmaR r a b d
  | .cvt f =>
    let c := f.sub.toNat
    word (cvtValue c (f.fl.getLsbD 0) (rndAt g f n)
      (if cvtWideB c then (opB64 (cvtLit c) s g f.v n).toNat else (opB s g f.v n).toNat))
  | _ => (0, 0)

/-- Shape, destination and width of a floating-point instruction. -/
def floatForm (i : Instr) : Option (Shape × Nat × Bool) :=
  match i with
  | .fadd f | .fsub f | .fmul f | .badd2 f | .bmul2 f => some (shape2 f.v, f.v.d.toNat, false)
  | .ffma f | .bfma2 f => some (shape3 f.v, f.v.d.toNat, false)
  | .fsqrt f => some (({ two := false, lat := 24 } : Form).shape f.v, f.v.d.toNat, false)
  | .fmin f | .fmax f | .fceq f | .fclt f | .fcle f | .fcun f => some (shape2 f, f.d.toNat, false)
  | .frcp f | .frsq f | .fexp2 f | .flog2 f | .fsinp f | .fcosp f =>
    some (({ two := false, lat := 24 } : Form).shape f, f.d.toNat, false)
  | .fclass f => some (({ two := false, lat := 8 } : Form).shape f, f.d.toNat, false)
  | .dadd f | .dmul f => some (({ wd := true, wa := true, wb := true, lat := 16 } : Form).shape f.v, f.v.d.toNat, true)
  | .dfma f =>
    some (({ three := true, wd := true, wa := true, wb := true, lat := 16 } : Form).shape f.v, f.v.d.toNat, true)
  | .cvt f => some (({ two := false, wd := cvtWideD f.sub.toNat, wb := cvtWideB f.sub.toNat } : Form).shape f.v, f.v.d.toNat,
      cvtWideD f.sub.toNat)
  | _ => none

/-- Lane `n` of the active set holds `val n` in register `d`, or in the pair d and d+1 if the result is wide; the other
lanes keep theirs. -/
def LanesHold (t : State) (gid : Nat) (g : Group) (c : Clause) (d : Nat) (wide : Bool) (val : Nat → DWord) : Prop :=
  ∀ n < 32,
    lane (t.vregOf gid d) n = (if inMask c.active n then (val n).setWidth 32 else lane (g.vreg d) n) ∧
    (wide = true → lane (t.vregOf gid (d + 1)) n =
      if inMask c.active n then (val n >>> 32).setWidth 32 else lane (g.vreg (d + 1)) n)

/-- The lanes of the active set in which an enabled exception is raised (R190). -/
def fpxLanes (i : Instr) (s : State) (g : Group) (c : Clause) : Word :=
  maskOf fun n => inMask c.active n && decide ((floatAt i s g n).2 &&& cfgFpt g.ctxcfg ≠ 0)

end Sys2Proof.Claims

/-- R199 to R211: a floating-point instruction or a conversion none of whose active lanes raises an enabled exception
writes each active lane's value, rounded under its mode and the lane's dither, and keeps everything else. -/
def Sys2Proof.Claims.FloatResult : Prop :=
  ∀ i sh d wide s gid g c t l, floatForm i = some (sh, d, wide) → Issuable i sh s gid g c t l →
    fpxLanes i s g c = 0 →
    ∃ t', exec i s = .next t' ∧ PastInstr t' gid g c (encode i).length ∧ RegisterOnly s t' gid g c sh ∧
      LanesHold t' gid g c d wide fun n => (floatAt i s g n).1

/-- R190: if an active lane raises an enabled exception, the instruction traps FPX and writes no lane; the cause is of
those lanes, and SUB is the OR of the enabled exceptions of all active lanes. -/
def Sys2Proof.Claims.FpxTrap : Prop :=
  ∀ i sh d wide s gid g c t l, floatForm i = some (sh, d, wide) → Issuable i sh s gid g c t l →
    fpxLanes i s g c ≠ 0 →
    exec i s = .next (takeTrap s gid
      { code := 0x20, imm := 0, lanes := fpxLanes i s g c,
        sub := (lanesOf c.active).foldl (fun m n => m ||| ((floatAt i s g n).2 &&& cfgFpt g.ctxcfg)) 0 }
      c.active c.addr (c.pos + 1))

/-- R32, R34: a finite number of a format is its own rounding, under every mode, and raises nothing. -/
def Obligations.ExactRounding : Prop :=
  ∀ f ∈ [fp64, fp32, fp16, bf16], ∀ (r : Rnd) (b : Nat) (neg : Bool) (m : Nat) (e : Int),
    b < 2 ^ (f.ew + f.mw + 1) → f.read b = .fin neg m e → f.round r neg m e = (b, 0)

/-- R215, R216: RESC and MODOP write the value of the profile as the context runs it; they never trap. -/
def Obligations.ResidueResult : Prop :=
  ∀ (f : VX) s gid g c t l,
    let run := s.ctxRun t.ctx (towerOf gid)
    let wd := decide (f.sub.toNat = 2 ∨ f.sub.toNat = 3)
    let wb := decide (f.sub.toNat = 3)
    (Issuable (.resc f) (({ two := false, wd := wd, wb := wb, lat := 16 } : Form).shape f.v) s gid g c t l →
      ∃ t', exec (.resc f) s = .next t' ∧ PastInstr t' gid g c (encode (.resc f)).length ∧
        RegisterOnly s t' gid g c (({ two := false, wd := wd, wb := wb, lat := 16 } : Form).shape f.v) ∧
        LanesHold t' gid g c f.v.d.toNat wd fun n => rescValue f run
          (if wb then opB64 .int s g f.v n else (opB s g f.v n).setWidth 64)) ∧
    (Issuable (.modop f) (({ lat := 16 } : Form).shape f.v) s gid g c t l →
      WritesLanes (.modop f) (({ lat := 16 } : Form).shape f.v) f.v.d.toNat s gid g c
        fun n => modopValue f run (opA s g f.v n) (opB s g f.v n))

/-- R212, R213, R214: BFPCVT packs the block of the active lanes' values, the others counting as +0, one bit plane a lane
and the exponent in lane 31, and advances the phase under ADV; with EXPAND it gives every value of the block back, and an
invalid block (exponent 255) sets CHKIV.POISON. -/
def Obligations.BlockResult : Prop :=
  ∀ (f : VX) s gid g c t l,
    let sh := ({ two := false, lat := 24 } : Form).shape f.v
    let m := f.sub.toNat
    (Issuable (.bfpcvt f) sh s gid g c t l →
      let blk := blockOf m g.dphase ((List.range 32).map fun n =>
        if inMask c.active n then blockIn (f.fl.getLsbD 1) (lane ((g.view s.tick).vreg f.v.b.toNat) n) else .fin false 0 0)
      ∃ t', exec (.bfpcvt f) s = .next t' ∧ PastInstr t' gid g c (encode (.bfpcvt f)).length ∧
        RegisterOnly s t' gid { g with dphase := if f.fl.getLsbD 0 then (g.dphase + 1) % 32 else g.dphase } c sh ∧
        ∀ n < 32, lane (t'.vregOf gid f.v.d.toNat) n =
          if inMask c.active n then
            (if n < m then planeWord m n blk.1 else if n = 31 then BitVec.ofNat 32 blk.2 else 0)
          else lane (g.vreg f.v.d.toNat) n) ∧
    (Issuable (.bfpcvtExpand f) { sh with lanes := fun r _ act => if r = f.v.b.toNat then 0xFFFFFFFF else act } s gid g c t l →
      let row := (g.view s.tick).vreg f.v.b.toNat
      let ex := (lane row 31).toNat % 256
      ∃ t', exec (.bfpcvtExpand f) s = .next t' ∧ PastInstr t' gid g c (encode (.bfpcvtExpand f)).length ∧
        t'.mem = s.mem ∧ t'.launches = (if ex = 255 then s.setChk t.launch chkPoison else s).launches ∧
        ∀ n < 32, lane (t'.vregOf gid f.v.d.toNat) n =
          if inMask c.active n then
            (if ex = 0 ∨ ex = 255 then 0
             else BitVec.ofNat 32 ((if f.fl.getLsbD 1 then bf16 else fp32).convert rne false
               (mantValue m (mantOf m n row) ex)).1)
          else lane (g.vreg f.v.d.toNat) n)

namespace Sys2Proof.Claims

open Sys2Proof Sys2Proof.Machine

/-- An operand code read at 32 bits in a lane (R61). -/
def opCode (s : State) (g : Group) (p : Nat) (lit : Option Word) (n : Nat) : Word :=
  if p < 64 then lane ((g.view s.tick).vreg p) n
  else if p = 127 then lit.getD 0
  else ((g.view s.tick).sreg (p - 64)).setWidth 32

/-- The registers that an operand code reads (R61). -/
def codeRegs (p : Nat) : Shape := { vr := codeV false p, sr := codeS p }

/-- The value of a special register in a lane, from its layout; in REV the first instruction of a clause with RGN finds the
clause's address (R38, R57, R65, R91, R92, R163, R223, R231). -/
def specialAt (s : State) (gid : Nat) (g : Group) (c : Clause) (t : Team) (l : Launch) (n lane_ : Nat) : DWord :=
  let core := gid / 128
  match n with
  | 0x00 => BitVec.ofNat 64 lane_
  | 0x01 => BitVec.ofNat 64 (g.num + 2 ^ 16 * (gid % 128) + 2 ^ 23 * (if g.shadow then 1 else 0))
  | 0x02 => BitVec.ofNat 64 (t.num + 2 ^ 24 * t.stage)
  | 0x03 => BitVec.ofNat 64 (core + 2 ^ 16 * g.tcore)
  | 0x04 => BitVec.ofNat 64 (core / 8 + 2 ^ 8 * (core / 8 % 12) + 2 ^ 16 * (core % 8))
  | 0x05 => BitVec.ofNat 64 (core / 96)
  | 0x06 => BitVec.ofNat 64 s.time
  | 0x07 => BitVec.ofNat 64 ((s.core core).retnUs % 2 ^ 20 + 2 ^ 20 * ((s.core core).retnTj % 2 ^ 8))
  | 0x08 => g.cause
  | 0x09 => BitVec.ofNat 64 (g.skidn + 2 ^ 8 * g.tword + 2 ^ 16 * (if g.hmode then 1 else 0) + 2 ^ 32 * g.tmask.toNat)
  | 0x0A => g.pidx.setWidth 64
  | 0x0B => (if c.pos = 0 ∧ c.header.getLsbD 15 then c.addr else lane g.rev lane_).setWidth 64
  | 0x0C => l.chkiv.setWidth 64
  | 0x0D => l.spoor
  | 0x0E => profileWord (s.ctx t.ctx).profile (s.ctxRun t.ctx (core / 96)) g.dphase
  | 0x0F => g.ctxcfg
  | _ => BitVec.ofNat 64 (g.dc 0 + 2 ^ 6 * g.dc 1 + 2 ^ 12 * g.dc 2 + 2 ^ 18 * g.dc 3 + 2 ^ 24 * g.dc 4 + 2 ^ 30 * g.dc 5)

/-- The shape of SRDSR. -/
def srdsrShape (f : SR) : Shape :=
  { vw := codeV false f.d.toNat, sw := codeS f.d.toNat, stall := f.stall.toNat
    out := if 6 ≤ f.a.toNat ∧ f.a.toNat ≤ 9 then .input else .no }

/-- The shape of SRDL: it meets what is pending in the lane it reads (R167). -/
def srdlShape (f : SR) : Shape :=
  { vr := [f.a.toNat], sr := srBRegs f, sw := [f.d.toNat], stall := f.stall.toNat
    lanes := fun _ g _ => BitVec.ofNat 32 (2 ^ ((srB f g).toNat % 32)) }

/-- Whether the condition of a branch holds for a signed value (R177). -/
def branchTaken (cond : Nat) (x : Int) : Prop :=
  (cond = 0 ∧ x = 0) ∨ (cond = 1 ∧ x ≠ 0) ∨ (cond = 2 ∧ x < 0) ∨ (cond = 3 ∧ 0 ≤ x)

/-- The address of the clause after one whose header word holds N in bits [31:28] (R54, R55). -/
def nextClause (c : Clause) : Word := BitVec.ofNat 32 (c.addr.toNat + c.header.toNat / 2 ^ 28 + 1)

/-- A control transfer: the active lanes go on at their targets, and only registers are touched. -/
def Transfers (i : Instr) (sh : Shape) (s : State) (gid : Nat) (g : Group) (c : Clause) (target : Nat → Word) : Prop :=
  ∃ t, exec i s = .next t ∧ SentTo t gid g c target ∧ RegisterOnly s t gid g c sh

/-- As `Transfers`, and a link register takes the next clause's address in the active lanes (R179). -/
def Calls (i : Instr) (sh : Shape) (link : Nat) (s : State) (gid : Nat) (g : Group) (c : Clause) (target : Nat → Word) : Prop :=
  ∃ t, exec i s = .next t ∧ SentTo t gid g c target ∧ RegisterOnly s t gid g c sh ∧
    ∀ n < 32, lane (t.vregOf gid link) n = if inMask c.active n then nextClause c else lane (g.vreg link) n

/-- Group `gid` has taken an exception and stands at its handler: the frame holds where its active lanes resume, the other
lanes' own addresses, the word, the active set and the cause; every lane that has not exited is at the handler, and its
registers are as they were (R91, R92, R96). -/
def AtHandler (u : State) (gid : Nat) (g : Group) (cause : DWord) (active dest : Word) (tword : Nat) (handler : Word) : Prop :=
  ∃ h, u.groups.find gid = some h ∧ h.cause = cause ∧ h.hmode = true ∧ h.st = .ready ∧ h.clause = none ∧ h.wait = none ∧
    h.tmask = active ∧ h.tword = tword ∧ h.skidn = 0 ∧
    (h.spcv = rowOf fun n => if inMask active n then dest else lane g.pcv n) ∧
    (h.pcv = rowOf fun n => if (if inMask active n then dest else lane g.pcv n) = exitPc then exitPc else handler) ∧
    h.rows = g.rows ∧ h.sregs = g.sregs ∧ h.dcs = g.dcs ∧ h.ops = g.ops

/-- The CAUSE word: code, IMM, the lowest lane, MULTI and SUB (R92). -/
def causeWord (code sub imm : Nat) (lanes : Word) : DWord :=
  BitVec.ofNat 64 (code + 2 ^ 8 * imm + 2 ^ 18 * ((List.range 32).find? fun n => lanes.getLsbD n).getD 0 +
    2 ^ 23 * (if 1 < (List.range 32).countP fun n => lanes.getLsbD n then 1 else 0) + 2 ^ 24 * sub)

end Sys2Proof.Claims

/-- R164, R166, R167: SRDSR delivers the special register as it stands, each lane its own for a per-lane one; SRDL
delivers any lane of a vector register; SFIRST describes the active set. -/
def Sys2Proof.Claims.SpecialReadResult : Prop :=
  ∀ (f : SR) s gid g c t l,
    (Issuable (.srdsr f) (srdsrShape f) s gid g c t l → f.d.toNat < 64 →
      WritesLanes (.srdsr f) (srdsrShape f) f.d.toNat s gid g c
        fun n => (specialAt s gid g c t l f.a.toNat n).setWidth 32) ∧
    (Issuable (.srdsr f) (srdsrShape f) s gid g c t l → 64 ≤ f.d.toNat → f.d.toNat < 127 →
      WritesScalar (.srdsr f) (srdsrShape f) (f.d.toNat - 64) s gid g c (specialAt s gid g c t l f.a.toNat 0)) ∧
    (Issuable (.srdl f) (srdlShape f) s gid g c t l → WritesScalar (.srdl f) (srdlShape f) f.d.toNat s gid g c
      ((lane ((g.view s.tick).vreg f.a.toNat) ((opSB s g f).toNat % 32)).setWidth 64)) ∧
    (Issuable (.sfirst f) { sw := [f.d.toNat], stall := f.stall.toNat } s gid g c t l →
      WritesScalar (.sfirst f) { sw := [f.d.toNat], stall := f.stall.toNat } f.d.toNat s gid g c
        (BitVec.ofNat 64 (c.active.toNat + 2 ^ 32 * ((List.range 32).find? fun n => c.active.getLsbD n).getD 0 +
          2 ^ 40 * (List.range 32).countP fun n => c.active.getLsbD n)))

/-- R104, R165: SWRSR and CHKERR. SWRSR REV sets the active lanes, also at the entry of a region, CHKIV clears the bits that are set in the operand,
PROFILE sets DPHASE, CTXCFG sets its RW bits 19:1; CHKERR delivers CHKIV as it stood and clears the bits of its mask. -/
def Sys2Proof.Claims.SpecialWriteResult : Prop :=
  ∀ s gid g c t l,
    (∀ f : SR, Issuable (.swrsr f) { vr := codeV false f.b.toNat, sr := codeS f.b.toNat, stall := f.stall.toNat,
                                     setsRev := decide (f.a.toNat = 0x0B) } s gid g c t l →
      let v : DWord := if f.b.toNat < 64 then (opCode s g f.b.toNat f.lit (lowLane c.active)).setWidth 64
        else if f.b.toNat = 127 then (f.lit.getD 0).signExtend 64 else (g.view s.tick).sreg (f.b.toNat - 64)
      ∃ u h, exec (.swrsr f) s = .next u ∧ PastInstr u gid g c (encode (.swrsr f)).length ∧
        u.groups.find gid = some h ∧ u.mem = s.mem ∧ h.sregs = g.sregs ∧
        (f.a.toNat = 0x0B →
          h.rev = rowOf fun n => if inMask c.active n then opCode s g f.b.toNat f.lit n else lane g.rev n) ∧
        (f.a.toNat ≠ 0x0B → c.header.getLsbD 15 = false → h.rev = g.rev) ∧
        h.dphase = (if f.a.toNat = 0x0E then v.toNat / 2 ^ 8 % 32 else g.dphase) ∧
        (f.a.toNat = 0x0F → ∀ k < 64, h.ctxcfg.getLsbD k = if 1 ≤ k ∧ k < 20 then v.getLsbD k else g.ctxcfg.getLsbD k) ∧
        (f.a.toNat ∈ [0x0B, 0x0C, 0x0E] → h.ctxcfg = g.ctxcfg) ∧
        (u.launches.find t.launch).map (·.chkiv) =
          some (if f.a.toNat = 0x0C then l.chkiv &&& ~~~(v.setWidth 8) else l.chkiv)) ∧
    (∀ f : CXR, Issuable (.chkerr f) { vw := codeV false f.p.toNat, sw := codeS f.p.toNat } s gid g c t l →
      ∃ u, exec (.chkerr f) s = .next u ∧ PastInstr u gid g c (encode (.chkerr f)).length ∧ u.mem = s.mem ∧
        (u.launches.find t.launch).map (·.chkiv) = some (l.chkiv &&& ~~~(f.imm.setWidth 8)) ∧
        (f.p.toNat < 64 → ∀ n < 32, lane (u.vregOf gid f.p.toNat) n =
          if inMask c.active n then l.chkiv.setWidth 32 else lane (g.vreg f.p.toNat) n) ∧
        (64 ≤ f.p.toNat → f.p.toNat < 127 → u.sregOf gid (f.p.toNat - 64) = l.chkiv.setWidth 64))

/-- R176 to R181: NOP changes nothing but the position; the branches, calls and returns send the active lanes to their
targets, the others keep their addresses; a call writes the next clause's address into its link; EXIT ends its lanes, and
with the last lane the group enters RETIRING. -/
def Obligations.ControlTransfer : Prop :=
  ∀ s gid g c t l,
    (∀ f, Issuable (.nop f) {} s gid g c t l →
      ∃ u, exec (.nop f) s = .next u ∧ PastInstr u gid g c (encode (.nop f)).length ∧ RegisterOnly s u gid g c {}) ∧
    (∀ f, Issuable (.bra f) {} s gid g c t l → Transfers (.bra f) {} s gid g c fun _ => c.addr + f.off.signExtend 32) ∧
    (∀ f, Issuable (.brv f) { vr := [f.reg.toNat] } s gid g c t l → ∃ tgt, Transfers (.brv f) { vr := [f.reg.toNat] } s gid g c tgt ∧
      ∀ n < 32, (branchTaken f.cond.toNat (lane ((g.view s.tick).vreg f.reg.toNat) n).toInt →
          tgt n = c.addr + f.off.signExtend 32) ∧
        (¬ branchTaken f.cond.toNat (lane ((g.view s.tick).vreg f.reg.toNat) n).toInt → tgt n = nextClause c)) ∧
    (∀ f, Issuable (.brs f) { sr := [f.reg.toNat] } s gid g c t l → ∃ tgt, Transfers (.brs f) { sr := [f.reg.toNat] } s gid g c tgt ∧
      ∀ n < 32, (branchTaken f.cond.toNat ((g.view s.tick).sreg f.reg.toNat).toInt → tgt n = c.addr + f.off.signExtend 32) ∧
        (¬ branchTaken f.cond.toNat ((g.view s.tick).sreg f.reg.toNat).toInt → tgt n = nextClause c)) ∧
    (∀ f : CXR, Issuable (.brx f) (codeRegs f.p.toNat) s gid g c t l →
      Transfers (.brx f) (codeRegs f.p.toNat) s gid g c (opCode s g f.p.toNat f.lit)) ∧
    (∀ f : CXR, Issuable (.ret f) (codeRegs f.p.toNat) s gid g c t l →
      Transfers (.ret f) (codeRegs f.p.toNat) s gid g c (opCode s g f.p.toNat f.lit)) ∧
    (∀ f, Issuable (.call f) { vw := [f.link.toNat] } s gid g c t l →
      Calls (.call f) { vw := [f.link.toNat] } f.link.toNat s gid g c fun _ => c.addr + f.off.signExtend 32) ∧
    (∀ f : CXR, Issuable (.calli f) { codeRegs f.q.toNat with vw := [f.p.toNat] } s gid g c t l →
      Calls (.calli f) { codeRegs f.q.toNat with vw := [f.p.toNat] } f.p.toNat s gid g c (opCode s g f.q.toNat f.lit)) ∧
    (∀ f, Issuable (.exit f) {} s gid g c t l →
      Transfers (.exit f) {} s gid g c (fun _ => exitPc) ∧
      ((∀ n < 32, inMask c.active n ∨ lane g.pcv n = exitPc) → ∀ u, exec (.exit f) s = .next u →
        (u.groups.find gid).map (fun h => (h.st, h.hmode)) = some (.retiring, false)))

/-- R90 to R96: taking an exception in a group that is not in handler mode, whose kernel names a handler and whose team
runs: the frame, CAUSE and the handler as `AtHandler` says; memory, the caches, the launches and the other parts of the
device are as they were. -/
def Sys2Proof.Claims.TrapEntry : Prop :=
  ∀ s gid g t l k active dest tword, s.groups.find gid = some g → s.teams.find g.team = some t →
    s.launches.find t.launch = some l → t.st = .running → g.hmode = false → l.handler ≠ exitPc →
    AtHandler (takeTrap s gid k active dest tword) gid g (causeWord k.code k.sub k.imm k.lanes) active dest tword l.handler ∧
    (takeTrap s gid k active dest tword).mem = s.mem ∧ (takeTrap s gid k active dest tword).launches = s.launches ∧
    (takeTrap s gid k active dest tword).dev = s.dev ∧ (takeTrap s gid k active dest tword).towers = s.towers ∧
    (k.code ≠ 0x61 → t.halting = false → ∀ n h, n ≠ gid → s.groups.find n = some h → h.team = g.team →
      h.st = .ready → h.hmode = false → h.halt = none →
      ((takeTrap s gid k active dest tword).groups.find n).map (·.halt) = some (some true))

/-- R97: without a handler, or in handler mode, the trap is a team fault: the launch drains as FAULTED, and its status
names the team, the group, the cause, its lane and the address where that lane would have resumed. -/
def Sys2Proof.Claims.TeamFault : Prop :=
  ∀ s gid g t l k active dest tword, s.groups.find gid = some g → s.teams.find g.team = some t →
    s.launches.find t.launch = some l → l.st = .running → (l.handler = exitPc ∨ g.hmode = true) → k.code < 256 → k.imm < 1024 →
    inMask active (lowLane k.lanes) = true →
    ∃ l', (takeTrap s gid k active dest tword).launches.find t.launch = some l' ∧ l'.st = .draining ∧ l'.endv = 3 ∧
      l'.info = { team := t.num, group := g.num, lane := lowLane k.lanes, stage := t.stage, pc := dest, code := k.code,
                  part := 0, pkind := 0 }

/-- R100: TRAP and BKPT enter the handler with their cause in every active lane and IMM, and resume at the next
instruction, or at the next clause beyond the last word. -/
def Sys2Proof.Claims.SoftwareTrap : Prop :=
  ∀ (f : CXR) s gid g c t l, t.st = .running → g.hmode = false → l.handler ≠ exitPc →
    ∀ p ∈ [((.trap f : Instr), 0x50), (.bkpt f, 0x60)], Issuable p.1 {} s gid g c t l →
      ∃ u g', exec p.1 s = .next u ∧ u.mem = s.mem ∧ g'.pcv = g.pcv ∧ g'.sregs = g.sregs ∧
        (∀ v, v ∉ g.pendFree → g'.vreg v = g.vreg v) ∧
        AtHandler u gid g' (causeWord p.2 0 f.imm.toNat c.active) c.active
          (if c.pos + (encode p.1).length < c.words.length then c.addr else nextClause c)
          (if c.pos + (encode p.1).length < c.words.length then c.pos + (encode p.1).length + 1 else 0) l.handler

/-- R101, R102, R103: in handler mode RTE takes every lane back to its saved address, leaves handler mode and clears
CAUSE, and the group goes on inside the trapped clause only if the lanes at the least address are those of the frame;
outside handler mode it only goes on. PCVRD reads the saved addresses of all lanes in handler mode and the live ones
outside it; PCVWR sets the active lanes' saved addresses in handler mode, where a restart of every lane from REV also clears
TWORD and PIDX (R187), and does nothing outside it. -/
def Obligations.HandlerReturn : Prop :=
  ∀ s gid g c t l,
    (∀ f, Issuable (.rte f) {} s gid g c t l → g.hmode = true → g.pendHalt = false →
      ∃ u h, exec (.rte f) s = .next u ∧ u.mem = s.mem ∧ u.groups.find gid = some h ∧ h.pcv = g.spcv ∧ h.hmode = false ∧
        h.cause = 0 ∧ h.clause = none ∧ h.rows.length ≤ g.rows.length ∧ h.sregs = g.sregs ∧
        h.st = (if minPc g.spcv = exitPc then .retiring else .ready) ∧
        h.hword = if g.tword ≠ 0 ∧ ({ g with pcv := g.spcv } : Group).active = g.tmask ∧ minPc g.spcv = g.tclause
          then g.tword else 0) ∧
    (∀ f, Issuable (.rte f) {} s gid g c t l → g.hmode = false → Transfers (.rte f) {} s gid g c fun _ => nextClause c) ∧
    (∀ f : CXR, Issuable (.pcvrd f) { vw := [f.p.toNat], lanes := fun _ _ _ => 0xFFFFFFFF } s gid g c t l →
      ∃ u, exec (.pcvrd f) s = .next u ∧ PastInstr u gid g c (encode (.pcvrd f)).length ∧
        RegisterOnly s u gid g c { vw := [f.p.toNat], lanes := fun _ _ _ => 0xFFFFFFFF } ∧
        ∀ n < 32, lane (u.vregOf gid f.p.toNat) n = if g.hmode then lane g.spcv n else lane g.pcv n) ∧
    (∀ f : CXR, Issuable (.pcvwr f) (codeRegs f.p.toNat) s gid g c t l →
      let saved := if g.hmode then rowOf fun n => if inMask c.active n then opCode s g f.p.toNat f.lit n else lane g.spcv n
        else g.spcv
      let restart := g.hmode && (List.range 32).all fun n => lane g.pcv n == exitPc || lane saved n == lane g.rev n
      ∃ u, exec (.pcvwr f) s = .next u ∧ PastInstr u gid g c (encode (.pcvwr f)).length ∧
        RegisterOnly s u gid (if restart then { g with spcv := saved, tword := 0, pidx := 0 } else { g with spcv := saved }) c
          (codeRegs f.p.toNat))

/-- R105, R182, R183: YIELD makes every other group of the lathe that was READY issue first; SLEEP holds its group until
TIME has passed its start by n nanoseconds, at most 1,048,575, and goes on at once for n = 0 or when that time has come;
HALT stops its team: every group that runs receives a halt without a cause and the team is to leave the cores held. -/
def Obligations.LatheControl : Prop :=
  ∀ s gid g c t l,
    (∀ f, Issuable (.yield f) {} s gid g c t l → ∃ u h, exec (.yield f) s = .next u ∧ PastInstr u gid g c (encode (.yield f)).length ∧
      RegisterOnly s u gid g c {} ∧ u.groups.find gid = some h ∧
      ∀ k x, s.groups.find k = some x → k ≠ gid → k / 128 = gid / 128 → k % 32 = gid % 32 → x.st = .ready → k ∈ h.after) ∧
    (∀ f : CXR, Issuable (.sleep f) { sr := codeS f.p.toNat } s gid g c t l → 64 ≤ f.p.toNat →
      let n := min ((if f.p.toNat = 127 then (f.lit.getD 0).signExtend 64 else (g.view s.tick).sreg (f.p.toNat - 64)) : DWord).toNat
        1048575
      (g.wait = none → n = 0 → ∃ u, exec (.sleep f) s = .next u ∧ PastInstr u gid g c (encode (.sleep f)).length ∧
        RegisterOnly s u gid g c { sr := codeS f.p.toNat }) ∧
      (g.wait = none → 0 < n → ∃ u h, exec (.sleep f) s = .next u ∧ SameOutside s u ∧ u.groups.find gid = some h ∧ h.st = .waiting ∧
        h.wait.map (fun w => (w.kind, w.lim)) = some (.sleep, s.time + n) ∧ h.clause = g.clause) ∧
      (∀ b a lim ph, g.wait = some ⟨.sleep, b, a, lim, ph⟩ → lim ≤ s.time →
        ∃ u, exec (.sleep f) s = .next u ∧ PastInstr u gid g c (encode (.sleep f)).length ∧
          RegisterOnly s u gid g c { sr := codeS f.p.toNat })) ∧
    (∀ f, Issuable (.halt f) {} s gid g c t l → t.st = .running → l.portMask = 0 →
      ∃ u, exec (.halt f) s = .next u ∧ PastInstr u gid g c (encode (.halt f)).length ∧ u.mem = s.mem ∧
        (u.teams.find g.team).map (·.st) = some (.stopping .held) ∧
        ∀ k x, s.groups.find k = some x → x.team = g.team → x.st = .ready ∨ x.st = .waiting → x.halt = none → k ≠ gid →
          k < 2 ^ 64 →
          (u.groups.find k).map (·.halt) = some (some false))

/-! ## Global memory -/

namespace Sys2Proof.Claims

open Sys2Proof Sys2Proof.Machine

/-- The instruction completes: it answers a next state as `Finished` says, `s'` being what it leaves outside its group. -/
def Completes (i : Instr) (sh : Shape) (s s' : State) (gid : Nat) (g : Group) (c : Clause) (e : Eff) (a : OpAct) : Prop :=
  ∃ u, exec i s = .next u ∧ Finished s' u gid g c sh (encode i).length e a

/-- The address of each active lane: (sB + zero-extended vO) mod 2^64 (R304). -/
def laneAddrs (s : State) (g : Group) (c : Clause) (base off : Nat) : List (Nat × Nat) :=
  ((List.range 32).filter fun n => inMask c.active n).map fun n =>
    (n, (((g.view s.tick).sreg base).toNat + (lane ((g.view s.tick).vreg off) n).toNat) % 2 ^ 64)

/-- The address of each active lane of a block form: sB + 4w × lane (R307). -/
def blockAddrs (s : State) (g : Group) (c : Clause) (base w : Nat) : List (Nat × Nat) :=
  ((List.range 32).filter fun n => inMask c.active n).map fun n =>
    (n, (((g.view s.tick).sreg base).toNat + 4 * w * n) % 2 ^ 64)

/-- The one address of a scalar form, counted for the lowest active lane (R310). -/
def onceAddr (c : Clause) (a : DWord) : List (Nat × Nat) := [(lowLane c.active, a.toNat)]

/-- The checks of all lanes find every access translated, permitted and outside the link apertures: `ps` are the lanes with
their physical addresses, `s1` the state after the walks (R304). -/
def Granted (s : State) (e : Env) (k : AccKind) (acc : LinkAcc) (posted : Bool) (n : Nat) (ls : List (Nat × Nat))
    (ps : List Probe) (s1 : State) : Prop :=
  s.probe e k acc posted n ls = (ps, s1) ∧ ∀ p ∈ ps, ∃ pa x, p.chk = .ok pa x ∧ spaceOf pa ≠ .link

/-- The bytes of a register group of a lane, lowest register first (R28, R242). -/
def regBytes (s : State) (g : Group) (d r n l : Nat) : List Byte :=
  ((List.range r).flatMap fun k => toBytes 4 (lane ((g.view s.tick).vreg (d + k)) l).toNat).take n

/-- How a global access of an instruction is checked: shape, kind, link window class, whether it is posted, size, lanes, and
whether it executes once for the group (R305, R309, R312). -/
structure Access where
  sh : Shape
  kind : AccKind
  acc : LinkAcc
  posted : Bool
  n : Nat
  lanes : List (Nat × Nat)
  once : Bool

/-- The access of an A-family atomic on global memory (R312). -/
def atomAccess (s : State) (g : Group) (c : Clause) (f : MX) (op : Nat) : Option Access :=
  let k := atomBytes f / 4
  if f.sz.getLsbD 1 then none
  else some ⟨{ vr := f.off.toNat % 32 :: span f.data.toNat (if op = 0x12 then 2 * k else k), sr := [f.base.toNat]
               vw := if f.off.getLsbD 5 then [] else span f.data.toNat k, dc := f.dc.toNat, opc := op, sz := f.sz.toNat
               out := if f.off.getLsbD 5 then .output else .both },
    .atomic, .atomic, f.off.getLsbD 5, atomBytes f, laneAddrs s g c f.base.toNat (f.off.toNat % 32), false⟩

/-- The shapes of the scalar memory instructions (R309). -/
def scalarMem (f : SR) (opc : Nat) (reads writes : List Nat) (out : Outside) : Shape :=
  { sr := reads ++ srBRegs f, sw := writes, dc := f.stall.toNat, opc := opc, out := out }

/-- The access of each instruction that loads, stores or computes in global memory at once. -/
def accessOf (s : State) (g : Group) (c : Clause) (i : Instr) : Option Access :=
  match i with
  | .ldg f => some ⟨loadShape f 0x00 (accRegs f.sz.toNat) [f.off.toNat], .load, .load (accBytes f.sz.toNat), false,
      accBytes f.sz.toNat, laneAddrs s g c f.base.toNat f.off.toNat, false⟩
  | .ldgb f => some ⟨loadShape f 0x01 (blkWords f.sz.toNat) [], .load, .load (4 * blkWords f.sz.toNat), false,
      4 * blkWords f.sz.toNat, blockAddrs s g c f.base.toNat (blkWords f.sz.toNat), false⟩
  | .ldk f => some ⟨loadShape f 0x08 (accRegs f.sz.toNat) [f.off.toNat], .load, .load (accBytes f.sz.toNat), false,
      accBytes f.sz.toNat, laneAddrs s g c f.base.toNat f.off.toNat, false⟩
  | .stg f => some ⟨storeShape f 0x02 (accRegs f.sz.toNat) [f.off.toNat], .store, .store, true,
      accBytes f.sz.toNat, laneAddrs s g c f.base.toNat f.off.toNat, false⟩
  | .stgb f => some ⟨storeShape f 0x03 (blkWords f.sz.toNat) [], .store, .store, true,
      4 * blkWords f.sz.toNat, blockAddrs s g c f.base.toNat (blkWords f.sz.toNat), false⟩
  | .sldk f => some ⟨scalarMem f 0x5B [f.a.toNat] [f.d.toNat] .input, .load, .load 8, false, 8,
      onceAddr c (opSA s g f + opSB s g f), true⟩
  | .sldg f => some ⟨scalarMem f 0x5C [f.a.toNat] [f.d.toNat] .input, .load, .load 8, false, 8,
      onceAddr c (opSA s g f + opSB s g f), true⟩
  | .sstg f => some ⟨scalarMem f 0x5D [f.a.toNat, f.d.toNat] [] .output, .store, .store, true, 8,
      onceAddr c (opSA s g f + opSB s g f), true⟩
  | .saadd f => some ⟨scalarMem f 0x5E [f.a.toNat] [f.d.toNat] .both, .atomic, .atomic, false, 8,
      onceAddr c (opSA s g f), true⟩
  | .sacas f => some ⟨scalarMem f 0x5F [f.d.toNat, f.a.toNat] [f.d.toNat] .both, .atomic, .atomic, false, 8,
      onceAddr c (opSA s g f), true⟩
  | .aadd f => atomAccess s g c f 0x09
  | .aminI f => atomAccess s g c f 0x0A
  | .aminN f => atomAccess s g c f 0x0B
  | .amaxI f => atomAccess s g c f 0x0C
  | .amaxN f => atomAccess s g c f 0x0D
  | .aand f => atomAccess s g c f 0x0E
  | .aor f => atomAccess s g c f 0x0F
  | .axor f => atomAccess s g c f 0x10
  | .axchg f => atomAccess s g c f 0x11
  | .acas f => atomAccess s g c f 0x12
  | .afadd f => atomAccess s g c f 0x13
  | .aincw f => atomAccess s g c f 0x14
  | _ => none

/-- How a load reads a lane, and what it delivers: through the L1 or, for LDK and SLDK, the constant cache (R306, R308,
R310). -/
def loadOf (i : Instr) (c : Clause) : Option (Reader × ((Nat → List Byte) → Eff)) :=
  match i with
  | .ldg f => some (readLdg, loadEff f.data.toNat (accRegs f.sz.toNat) c.active)
  | .ldgb f => some (readLdg, loadEff f.data.toNat (blkWords f.sz.toNat) c.active)
  | .ldk f => some (readLdk, loadEff f.data.toNat (accRegs f.sz.toNat) c.active)
  | .sldk f => some (readLdk, fun b => { sw := [(f.d.toNat, BitVec.ofNat 64 (field (b (lowLane c.active)) 0 8))] })
  | .sldg f => some (readLdg, fun b => { sw := [(f.d.toNat, BitVec.ofNat 64 (field (b (lowLane c.active)) 0 8))] })
  | _ => none

/-- The bytes that a store writes for a lane (R306, R307, R310). -/
def storeOf (i : Instr) (s : State) (g : Group) : Option (Nat → List Byte) :=
  match i with
  | .stg f => some (regBytes s g f.data.toNat (accRegs f.sz.toNat) (accBytes f.sz.toNat))
  | .stgb f => some (regBytes s g f.data.toNat (blkWords f.sz.toNat) (4 * blkWords f.sz.toNat))
  | .sstg f => some fun _ => toBytes 8 ((g.view s.tick).sreg f.d.toNat).toNat
  | _ => none

/-- The slices of L2 have room for what an instruction brings into them, so that no line is written back to make room (R10,
R14, R292). -/
def Roomy (s : State) : Prop := ∀ t sl, (s.slicedBy t sl).length + 1024 ≤ 16384

/-- A byte of an L1 line that a core holds for a context. -/
def l1Byte (s : State) (core ctx va : Nat) : Option Byte :=
  (s.l1Line core ctx (va / 128)).map fun l => lineByte l.line.data (va % 128)

/-- The home addresses of a checked lane's `n` bytes. -/
def homeSpan (s : State) (p : Probe) (n a : Nat) : Prop :=
  ∃ pa x q, p.chk = .ok pa x ∧ s.home 8 pa = .here q ∧ homeKey q ≤ a ∧ a < homeKey q + n

/-- The A-family atomic that an instruction is: its fields, opcode, and the operation on old value, operand and new value
at `w` bits (R313). -/
def atomicOf (i : Instr) : Option (MX × Nat × (Nat → Nat → Nat → Nat → Nat)) :=
  let sgn := fun (w x : Nat) => if x < 2 ^ (w - 1) then (x : Int) else (x : Int) - 2 ^ w
  match i with
  | .aadd f => some (f, 0x09, fun w m b _ => (m + b) % 2 ^ w)
  | .aminI f => some (f, 0x0A, fun w m b _ => if sgn w m ≤ sgn w b then m else b)
  | .aminN f => some (f, 0x0B, fun _ m b _ => if m ≤ b then m else b)
  | .amaxI f => some (f, 0x0C, fun w m b _ => if sgn w b ≤ sgn w m then m else b)
  | .amaxN f => some (f, 0x0D, fun _ m b _ => if b ≤ m then m else b)
  | .aand f => some (f, 0x0E, fun _ m b _ => m &&& b)
  | .aor f => some (f, 0x0F, fun _ m b _ => m ||| b)
  | .axor f => some (f, 0x10, fun _ m b _ => m ^^^ b)
  | .axchg f => some (f, 0x11, fun _ _ b _ => b)
  | .acas f => some (f, 0x12, fun _ m b n => if m = b then n else m)
  | .afadd f => some (f, 0x13, fun w m b _ =>
      if w = 32 then (fp32.addV ⟨0, 0⟩ (fp32.read m) (fp32.read b)).1 else (fp64.addV ⟨0, 0⟩ (fp64.read m) (fp64.read b)).1)
  | .aincw f => some (f, 0x14, fun _ m b _ => if b ≤ m then 0 else m + 1)
  | _ => none

/-- The state after an atomic's lanes: the operations that are not idempotent make the team unsafe to roll back (R126). -/
def noteAtom (op team : Nat) (s : State) : State :=
  if op = 0x09 ∨ op = 0x11 ∨ op = 0x12 ∨ op = 0x13 ∨ op = 0x14 then s.notSafe team else s

end Sys2Proof.Claims

/-- R268, R272, R287, R304, R325: how an access whose page the TLB holds is checked, in this order: bits 63:52, alignment,
privilege, write permission, execute permission, seals, compressed pages. -/
def Sys2Proof.Claims.AccessCheck : Prop :=
  ∀ (s : State) cl ctx priv k a n x, 0 < n → a < 2 ^ 64 →
    ((s.cluster cl).tlb.find? fun y => y.hits ctx (a : Nat)) = some x →
    let pa := x.pa + (a - x.va)
    let wr := k = .store ∨ k = .atomic ∨ k = .engineWrite
    (2 ^ 52 ≤ a → s.check cl ctx priv k a n = (.trap 0x10 1, s)) ∧
    (a < 2 ^ 52 → a % n ≠ 0 → s.check cl ctx priv k a n = (.trap 0x11 1, s)) ∧
    (a < 2 ^ 52 → a % n = 0 →
      (x.p = true → priv = false → s.check cl ctx priv k a n = (.trap 0x10 4, s)) ∧
      ((x.p = false ∨ priv = true) →
        (wr → x.w = false → x.s = false → s.check cl ctx priv k a n = (.trap 0x10 2, s)) ∧
        (k = .fetch → x.x = false ∨ spaceOf pa = .link → s.check cl ctx priv k a n = (.trap 0x10 3, s)) ∧
        (wr → x.s = true ∨ (x.w = true ∧ s.sealedAt ctx a n = true) → s.check cl ctx priv k a n = (.trap 0x12 0, s)) ∧
        (k = .load ∨ (k = .fetch ∧ x.x = true ∧ spaceOf pa ≠ .link) → x.c = true →
          s.check cl ctx priv k a n = (.trap 0x13 0, s)) ∧
        (k = .load → x.c = false → spaceOf pa = .link → s.check cl ctx priv k a n = (.ok pa x, s)) ∧
        (k = .load → x.c = false → spaceOf pa = .hbm → (s.frame pa).st = .normal →
          s.check cl ctx priv k a n = (.ok pa x, s)) ∧
        (wr → x.w = true → x.s = false → s.sealedAt ctx a n = false → spaceOf pa = .hbm → (s.frame pa).st = .normal →
          s.check cl ctx priv k a n = (.ok pa x, s))))

/-- R269, R272: a walk through tables in HBM: an invalid entry ends it as not present, with its address; a leaf at level 2
or 3 gives the page's frame and attributes once its fields are right. -/
def Sys2Proof.Claims.PageWalk : Prop :=
  ∀ (s : State) ctx va root e0 e1 e2 e3, va < 2 ^ 52 →
    let t1 := e0 / 2 ^ 8 % 2 ^ 40 * 256
    let t2 := e1 / 2 ^ 8 % 2 ^ 40 * 256
    let t3 := e2 / 2 ^ 8 % 2 ^ 40 * 256
    let a0 := root + 8 * (va / 2 ^ 39)
    let a1 := t1 + 8 * (va / 2 ^ 30 % 2 ^ 9)
    let a2 := t2 + 8 * (va / 2 ^ 21 % 2 ^ 9)
    let a3 := t3 + 8 * (va / 2 ^ 16 % 2 ^ 5)
    let table := fun e => e % 2 = 1 ∧ e / 2 % 2 ^ 7 = 0 ∧ e / 2 ^ 48 = 0
    s.badTable root 65536 = false → s.pteAt a0 = some e0 →
    (e0 % 2 = 0 → s.walkFrom ctx va 3 root = .absent a0 false) ∧
    (table e0 → s.badTable t1 4096 = false → s.pteAt a1 = some e1 →
      (e1 % 2 = 0 → s.walkFrom ctx va 3 root = .absent a1 false) ∧
      (table e1 → s.badTable t2 4096 = false → s.pteAt a2 = some e2 →
        (e2 % 2 = 0 → s.walkFrom ctx va 3 root = .absent a2 false) ∧
        (e2 % 4 = 3 → s.walkFrom ctx va 3 root = s.leafOf ctx va e2 true) ∧
        (table e2 → s.badTable t3 256 = false → s.pteAt a3 = some e3 →
          (e3 % 2 = 0 → s.walkFrom ctx va 3 root = .absent a3 true) ∧
          (e3 % 4 = 3 → s.walkFrom ctx va 3 root = s.leafOf ctx va e3 false) ∧
          (e3 % 4 = 1 → s.walkFrom ctx va 3 root = .trap 1))))

/-- R306 to R308, R310: a load whose lanes are all granted completes: each active lane delivers the bytes at its address,
read lane by lane, into its registers, now or under its counter, and nothing else is written. -/
def Sys2Proof.Claims.GlobalLoadResult : Prop :=
  ∀ i A rd eff s gid g c t l ps s1, accessOf s g c i = some A → loadOf i c = some (rd, eff) →
    Issuable i A.sh s gid g c t l → s.loadsOf gid = [] →
    Granted s (seen s gid g c t l) A.kind A.acc A.posted A.n A.lanes ps s1 →
    let r := s1.readLanes (seen s gid g c t l) A.n [] rd ps
    Completes i A.sh s r.2 gid g c (eff (bytesOf r.1)) .none

/-- R117, R306, R329: a load reads the L1's copy of a line of a plain page if the core holds one; otherwise it reads memory
at home, unless its home is in another tower, whose lines the RDC holds; a page that bypasses the L1 is read at home; a
poisoned byte reads as zero and sets CHKIV.POISON. The slices have room. -/
def Sys2Proof.Claims.LoadedBytes : Prop :=
  ∀ (s : State) core ctx launch va pa n (x : TlbEntry) q, s.home 8 pa = .here q → q % 128 = va % 128 → va % 128 + n ≤ 128 →
    (∀ ln, cacheable x pa = true → s.l1Line core ctx (va / 128) = some ln → (∀ j < n, s.poisoned (q + j) = false) →
      s.loadBytes core ctx launch va pa n x =
        ((List.range n).map fun j => lineByte ln.line.data ((va + j) % 128), s)) ∧
    (Roomy s → cacheable x pa = true → s.l1Line core ctx (va / 128) = none → homeTower pa = towerOfCore core → spaceOf q = .hbm →
      (∀ j < n, s.poisoned (q + j) = false) →
      (s.loadBytes core ctx launch va pa n x).1 = (List.range n).map fun j => s.homeByte (q + j)) ∧
    (Roomy s → cacheable x pa = false → spaceOf q = .hbm → (∀ j < n, s.poisoned (q + j) = false) →
      (s.loadBytes core ctx launch va pa n x).1 = (List.range n).map fun j => s.homeByte (q + j)) ∧
    (Roomy s → cacheable x pa = false → spaceOf q = .hbm → ∀ j < n, s.poisoned (q + j) = true →
      (s.loadBytes core ctx launch va pa n x).1.getD j 0 = 0 ∧
      ∀ l, s.launches.find launch = some l → l.hasEnded = false →
        ((s.loadBytes core ctx launch va pa n x).2.launches.find launch).map (fun l => l.chkiv.getLsbD 0) = some true)

/-- R306, R307, R310: a store whose lanes are all granted, and which the chunk reserve does not hold, completes: in the L1
the byte of the highest lane that stores it stands at its address, every byte of a line held before that no lane stores to
is as it was, and memory at home keeps every byte while the slices have room. -/
def Sys2Proof.Claims.GlobalStoreResult : Prop :=
  ∀ i A val s gid g c t l ps s1, accessOf s g c i = some A → storeOf i s g = some val →
    Issuable i A.sh s gid g c t l →
    Granted s (seen s gid g c t l) A.kind A.acc A.posted A.n A.lanes ps s1 →
    (∀ p ∈ ps, ∀ pa x, p.chk = .ok pa x → s1.reserveHolds pa = false) →
    ∃ s2, Completes i A.sh s s2 gid g c {} .none ∧
      ((∀ p ∈ ps, ∀ pa x, p.chk = .ok pa x → cacheable x pa = true) → (s1.core (gid / 128)).l1.length + 32 ≤ 1024 →
        (∀ p ∈ ps, ∀ j < A.n, (∀ q ∈ ps, p.lane < q.lane → ¬ (q.va ≤ p.va + j ∧ p.va + j < q.va + A.n)) →
          l1Byte s2 (gid / 128) t.ctx (p.va + j) = some ((val p.lane).getD j 0)) ∧
        (∀ a b, l1Byte s1 (gid / 128) t.ctx a = some b → (∀ q ∈ ps, ¬ (q.va ≤ a ∧ a < q.va + A.n)) →
          l1Byte s2 (gid / 128) t.ctx a = some b) ∧
        ((s1.tower (gid / 128 / 96)).rdc.length + 32 ≤ 262144 → Roomy s1 →
          ∀ a, spaceOf a = .hbm → Mem.get s2.mem a = Mem.get s1.mem a) ∧
        ∀ k, k ≠ gid / 128 → s2.core k = s1.core k)

/-- R117, R296, R306: a store to pages that bypass the L1 writes memory at home: the highest lane that stores a byte
supplies it, and every byte of HBM and of an expanded line that no lane stores to is as it was. The slices have room. -/
def Sys2Proof.Claims.HomeStoreResult : Prop :=
  ∀ i A val s gid g c t l ps s1, accessOf s g c i = some A → storeOf i s g = some val →
    Issuable i A.sh s gid g c t l →
    Granted s (seen s gid g c t l) A.kind A.acc A.posted A.n A.lanes ps s1 →
    Memory.wf s1.mem = true → Roomy s1 →
    (∀ p ∈ ps, ∀ pa x, p.chk = .ok pa x → s1.reserveHolds pa = false ∧ cacheable x pa = false ∧
      ∀ q, s1.home 8 pa = .here q → q % 128 = p.va % 128) →
    ∃ s2, Completes i A.sh s s2 gid g c {} .none ∧ s2.cores = s1.cores ∧
      (∀ p ∈ ps, ∀ pa x q j, p.chk = .ok pa x → s1.home 8 pa = .here q → j < A.n →
        (∀ r ∈ ps, p.lane < r.lane → ¬ homeSpan s1 r A.n (homeKey q + j)) →
        Mem.get s2.mem (homeKey q + j) = (val p.lane).getD j 0) ∧
      (∀ a, spaceOf a = .hbm ∨ (spaceOf a = .window ∧ (s1.l2 a).isSome) → (∀ r ∈ ps, ¬ homeSpan s1 r A.n a) →
        Mem.get s2.mem a = Mem.get s1.mem a)

/-- R93, R304: a cause in a lane of a global access traps the instruction with the highest cause of its lanes, and nothing is
read, written or sent; a cause of an instruction that executes once is every active lane's. -/
def Sys2Proof.Claims.GlobalAccessTrap : Prop :=
  ∀ i A s gid g c t l ps s1 k, accessOf s g c i = some A → Issuable i A.sh s gid g c t l → s.loadsOf gid = [] →
    s.probe (seen s gid g c t l) A.kind A.acc A.posted A.n A.lanes = (ps, s1) → causeOf (trapsOf ps) = some k →
    exec i s = .next (trapHere s1 gid c (if A.once then { k with lanes := c.active } else k)) ∧
    (∀ p ∈ trapsOf ps, k.code ≤ p.2.1) ∧ (∃ p ∈ trapsOf ps, k.code = p.2.1 ∧ k.sub = p.2.2) ∧
    ∀ n < 32, (∀ p ∈ ps, p.lane < 32) → (k.lanes.getLsbD n = true ↔ ∃ p ∈ trapsOf ps, p.1 = n ∧ p.2.1 = k.code)

/-- R282, R283: a load or an atomic that returns a value waits at itself while a lane's page is not present, and the fault of
each such page stands reported for its context, once; its registers keep their values. -/
def Sys2Proof.Claims.AbsentPageWait : Prop :=
  ∀ i A s gid g c t l ps s1, accessOf s g c i = some A → Issuable i A.sh s gid g c t l → s.loadsOf gid = [] →
    g.wait = none → A.posted = false →
    s.probe (seen s gid g c t l) A.kind A.acc A.posted A.n A.lanes = (ps, s1) → trapsOf ps = [] →
    ∀ p ∈ ps, ∀ pte l3 at_, p.chk = .absent pte l3 at_ →
      ∃ u h va, exec i s = .next u ∧ u.groups.find gid = some h ∧ h.st = .waiting ∧ h.wait.map (·.kind) = some (.page va 0) ∧
        h.clause = g.clause ∧ h.pcv = g.pcv ∧ h.rows = g.rows ∧ h.sregs = g.sregs ∧ h.dcs = g.dcs ∧
        ((u.ctx t.ctx).faults.any fun f => f.page == p.va / 65536 && f.kind == 0) = true

/-- R312 to R315: an atomic on global memory whose lanes are granted and not held completes: the lanes are performed in
ascending order, each delivering the old value unless the form is RED, and the team is no longer safe to roll back after an
operation that is not idempotent. -/
def Sys2Proof.Claims.AtomicResult : Prop :=
  ∀ i A s gid g c t l ps s1, accessOf s g c i = some A → Issuable i A.sh s gid g c t l → s.loadsOf gid = [] → g.wait = none →
    Granted s (seen s gid g c t l) A.kind A.acc A.posted A.n A.lanes ps s1 →
    (∀ p ∈ ps, ∀ pa x, p.chk = .ok pa x → s1.reserveHolds pa = false) →
    (∀ f op fn, atomicOf i = some (f, op, fn) →
      let n := atomBytes f
      let word := fun v l => ofBytes (regBytes s g v (n / 4) n l)
      let r := s1.atomLanes (seen s gid g c t l) A.posted []
        (fun l => ⟨op, n, word f.data.toNat l, if op = 0x12 then word (f.data.toNat + n / 4) l else 0⟩) ps
      let old := fun l => ((r.1.find? fun p => p.1 == l).map (·.2)).getD 0
      Completes i A.sh s (noteAtom op g.team r.2) gid g c
        (if A.posted then {} else loadEff f.data.toNat (n / 4) c.active fun l => toBytes n (old l)) .none) ∧
    (∀ f : SR, i = .saadd f ∨ i = .sacas f →
      let r := s1.atomLanes (seen s gid g c t l) false []
        (fun _ => if i = .saadd f then ⟨0x09, 8, (opSB s g f).toNat, 0⟩
          else ⟨0x12, 8, ((g.view s.tick).sreg f.d.toNat).toNat, (opSB s g f).toNat⟩) ps
      let old := ((r.1.find? fun p => p.1 == lowLane c.active).map (·.2)).getD 0
      Completes i A.sh s (r.2.notSafe g.team) gid g c { sw := [(f.d.toNat, BitVec.ofNat 64 old)] } .none)

/-- R311, R313, R315: an atomic at its home reads the location, replaces it by the operation's value and answers the old
value; every other byte of memory is as it was. A poisoned location computes with zero. The slices have room. -/
def Sys2Proof.Claims.AtomicAtHome : Prop :=
  (∀ i f op fn, atomicOf i = some (f, op, fn) → ∀ n ∈ [4, 8], ∀ m b k, m < 2 ^ (8 * n) → b < 2 ^ (8 * n) → k < 2 ^ (8 * n) →
    atomOp op n m b k = fn (8 * n) m b k) ∧
  ∀ (s : State) launch pa n q fn, n ∈ [4, 8] → Memory.wf s.mem = true → Roomy s → s.home 8 pa = .here q → spaceOf q = .hbm → q % n = 0 →
    (∀ m, m < 2 ^ (8 * n) → fn m < 2 ^ (8 * n)) →
    let old := if s.poisoned q then 0 else ofBytes (s.homeBytes q n)
    (s.atomHome launch pa n fn).1 = old ∧
    (s.atomHome launch pa n fn).2.poisoned q = false ∧
    ofBytes (Mem.getBytes (s.atomHome launch pa n fn).2.mem q n) = fn old ∧
    ∀ a, a < q ∨ q + n ≤ a → Mem.get (s.atomHome launch pa n fn).2.mem a = Mem.get s.mem a

namespace Sys2Proof.Claims

open Sys2Proof Sys2Proof.Machine

/-- A row of GATHER or SCATTER is done: the group goes on behind its last row with PIDX zero, or stands at the instruction
with PIDX at the next row; outside the group the state is that of `s'` (R108, R317). -/
def RowDone (i : Instr) (sh : Shape) (s s' : State) (gid : Nat) (g : Group) (c : Clause) (k n : Nat) : Prop :=
  if n ≤ k + 1 then Completes i sh s (s'.setPidx gid 0) gid { g with pidx := 0 } c {} .none
  else ∃ u h, exec i s = .next u ∧ u.groups.find gid = some h ∧ h.pidx.toNat = 2 ^ 32 + (k + 1) ∧ h.st = .waiting ∧
    h.clause = g.clause ∧ h.rows = g.rows ∧ h.sregs = g.sregs ∧ u.mem = s'.mem ∧ u.poison = s'.poison ∧
    u.cores = s'.cores ∧ u.launches = s'.launches

/-- The row that GATHER or SCATTER does next (R108). -/
def nextRow (g : Group) : Nat := if g.pidx.toNat < 2 ^ 32 then 0 else g.pidx.toNat - 2 ^ 32

/-- The access of a scratchpad load or store: shape, handle register, bytes, registers, data register and lanes with their
offsets (R242, R243). -/
structure SpadAccess where
  sh : Shape
  base : Nat
  n : Nat
  r : Nat
  d : Nat
  lanes : List (Nat × Nat)
  reads : Bool

def spadOf (s : State) (g : Group) (c : Clause) (i : Instr) : Option SpadAccess :=
  let active := (List.range 32).filter fun n => inMask c.active n
  let one := fun (f : MX) => active.map fun n => (n, (lane ((g.view s.tick).vreg f.off.toNat) n).toNat)
  let block := fun (f : MX) => active.map fun n =>
    (n, ((g.view s.tick).sreg (f.base.toNat + 1)).toNat % 2 ^ 32 + 4 * blkWords f.sz.toNat * n)
  match i with
  | .lds f => some ⟨loadShape f 0x04 (accRegs f.sz.toNat) [f.off.toNat], f.base.toNat, accBytes f.sz.toNat,
      accRegs f.sz.toNat, f.data.toNat, one f, true⟩
  | .ldsb f => some ⟨{ loadShape f 0x05 (blkWords f.sz.toNat) [] with sr := span f.base.toNat 2 }, f.base.toNat,
      4 * blkWords f.sz.toNat, blkWords f.sz.toNat, f.data.toNat, block f, true⟩
  | .sts f => some ⟨storeShape f 0x06 (accRegs f.sz.toNat) [f.off.toNat], f.base.toNat, accBytes f.sz.toNat,
      accRegs f.sz.toNat, f.data.toNat, one f, false⟩
  | .stsb f => some ⟨{ storeShape f 0x07 (blkWords f.sz.toNat) [] with sr := span f.base.toNat 2 }, f.base.toNat,
      4 * blkWords f.sz.toNat, blkWords f.sz.toNat, f.data.toNat, block f, false⟩
  | _ => none

/-- The buffer of a handle on the issuing core (R228). -/
def bufAt (s : State) (gid : Nat) (g : Group) (h : DWord) : Option Buf := (s.core (gid / 128)).bufOf g.team h

/-- The bytes of a row of a core at a column. -/
def rowBytes (s : State) (core row col n : Nat) : List Byte := ((s.core core).row row).read col n

/-- The action that an access leaves under its counter: SPFREE waits for it (R245). -/
def spadAct (b : Option Buf) (h : DWord) : OpAct := (b.map fun b => OpAct.spad (handleId h) b.gen).getD .none

/-- The launch's CHKIV.SPOOR is set, and SPOOR holds the word if the bit was clear (R230, R231). -/
def SpoorSet (s t : State) (launch : Nat) (w : DWord) : Prop :=
  ∀ l, s.launches.find launch = some l → l.hasEnded = false → ∃ l', t.launches.find launch = some l' ∧
    l'.chkiv = l.chkiv ||| 0x40 ∧ l'.spoor = if l.chkiv.getLsbD 6 then l.spoor else w

/-- A filled slot has been taken (R235). -/
def slotTaken (y : Circ) : Circ := { y with filled := y.filled - 1, held := y.held + 1, rnext := (y.rnext + 1) % y.nslot }

end Sys2Proof.Claims

/-- R316, R317, R318: GATHER and SCATTER move one row after another. A malformed descriptor traps ALIGN with SUB 2; with all
rows done the group goes on. A row whose index and bytes are granted is moved as LDG and STS, or LDS and STG, move it. PREF
raises nothing, changes no register, and leaves every launch and context as it was, and while the slices of L2 have room it
interrupts nobody. -/
def Obligations.GatherScatterPrefetch : Prop :=
  ∀ (f : MX) s gid g c t l, s.loadsOf gid = [] → (∀ w, g.wait = some w → w.kind = .other) →
    let e := seen s gid g c t l
    let w := if f.sz.toNat = 1 then 8 else 4
    let d := rows6 e.g f.base.toNat w
    let k := nextRow g
    let sh := fun opc => ({ sr := span f.base.toNat 6, opc := opc, sz := f.sz.toNat, out := .output } : Shape)
    (∀ p ∈ [((.gather f : Instr), 0x15), (.scatter f, 0x16)], Issuable p.1 (sh p.2) s gid g c t l →
      (d.ok = false → exec p.1 s = .next (trapHere s gid c ⟨0x11, 2, 0, c.active⟩)) ∧
      (d.ok = true → d.n ≤ k → Completes p.1 (sh p.2) s (s.setPidx gid 0) gid { g with pidx := 0 } c {} .none)) ∧
    (∀ ps s1 ps2 s2, d.ok = true → k < d.n →
      Granted s e .load (.load w) false w [(0, (d.list + k * w) % 2 ^ 64)] ps s1 →
      let r := s1.readLanes e w [] readLdg ps
      let idx := ofBytes (bytesOf r.1 0)
      (Issuable (.gather f) (sh 0x15) s gid g c t l →
        Granted r.2 e .load (.load 16) false 16 (rowAddrs d idx) ps2 s2 →
        let r2 := s2.readLanes e 16 [] readLdg ps2
        let b := bufAt r2.2 gid g d.handle
        let qs := r2.2.spProbe e d.handle 16 false (rowOffs d k)
        RowDone (.gather f) (sh 0x15) s
          ((r2.2.noteOut e d.handle true (lane0 qs)).spWrites (gid / 128) 16 b qs (bytesOf r2.1)) gid g c k d.n) ∧
      (Issuable (.scatter f) (sh 0x16) s gid g c t l →
        let qs := r.2.spProbe e d.handle 16 true (rowOffs d k)
        spTraps qs = [] → Granted r.2 e .store .store true 16 (rowAddrs d idx) ps2 s2 →
        (∀ p ∈ ps2, ∀ pa x, p.chk = .ok pa x → s2.reserveHolds pa = false) →
        let s3 := (s2.storeAll e ps2 fun n => match qs.find? fun q => q.lane == n with
          | some q => s2.spRead (gid / 128) gid 16 q
          | none => []).2.noteOut e d.handle false (lane0 qs)
        RowDone (.scatter f) (sh 0x16) s (if qs.any (s2.spPoisoned (gid / 128) 16) then s3.setChk t.launch chkPoison else s3)
          gid g c k d.n)) ∧
    (Issuable (.pref f) { vr := [f.off.toNat], sr := [f.base.toNat], out := .input } s gid g c t l →
      ∃ s2, Completes (.pref f) { vr := [f.off.toNat], sr := [f.base.toNat], out := .input } s s2 gid g c {} .none ∧
        s2.launches = s.launches ∧ s2.ctxs = s.ctxs ∧ (Roomy s → s2.irqs = s.irqs))

/-! ## The scratchpad -/

/-- R230, R242, R243: scratchpad loads and stores. A cause in a lane traps the instruction with nothing accessed. Otherwise
it completes: a load delivers each active lane's bytes, zero for lanes out of range, where words that a store of another
group in progress overwrites may be the old ones (R239); a store writes the bytes of the lanes in ascending order. No part of the device outside the core and the launch changes. -/
def Obligations.ScratchAccessResult : Prop :=
  ∀ i A s gid g c t l, spadOf s g c i = some A → Issuable i A.sh s gid g c t l →
    let e := seen s gid g c t l
    let h := (g.view s.tick).sreg A.base
    let b := bufAt s gid g h
    let ps := s.spProbe e h A.n A.reads A.lanes
    (∀ k, causeOf (spTraps ps) = some k → exec i s = .next (trapHere s gid c k)) ∧
    (spTraps ps = [] → A.reads = true → ∃ s2 val,
      Completes i A.sh s s2 gid g c (loadEff A.d A.r c.active val) (spadAct b h) ∧
      s2.mem = s.mem ∧ s2.cores = s.cores ∧ s2.groups = s.groups ∧
      ∀ p ∈ ps, (∀ row col, p.cls = .ok row col → val p.lane = (s.padRow (gid / 128) gid row).read col A.n ∧
          ((∀ q ∈ s.groups, q.1 ≠ gid → ∀ o ∈ q.2.ops, ∀ id k old, o.act ≠ .spadStore id k old) →
            val p.lane = rowBytes s (gid / 128) row col A.n)) ∧
        (∀ k, p.cls = .out k → val p.lane = List.replicate A.n 0)) ∧
    (spTraps ps = [] → A.reads = false → ∃ s2, Completes i A.sh s s2 gid g c {} (s.spWriting (gid / 128) A.n b h ps) ∧
      s2.mem = s.mem ∧
      (∀ k, k ≠ gid / 128 → s2.core k = s.core k) ∧
      (s2.core (gid / 128)).bufs = (s.core (gid / 128)).bufs ∧
      (∀ p ∈ ps, ∀ row col j, p.cls = .ok row col → j < A.n →
        (∀ q ∈ ps, ∀ col', p.lane < q.lane → q.cls = .ok row col' → ¬ (col' ≤ col + j ∧ col + j < col' + A.n)) →
        ((s.core (gid / 128)).row row).bad (col + j) = false →
        rowBytes s2 (gid / 128) row (col + j) 1 = [(regBytes s g A.d A.r A.n p.lane).getD j 0]) ∧
      (∀ x row a, b = some x → a < 1024 → ((s.core (gid / 128)).row row).st = .stamped →
        s.time - ((s.core (gid / 128)).row row).stamp ≤ min x.tag (s.core (gid / 128)).retnUs * 1000 →
        (∀ q ∈ ps, ∀ col, q.cls = .ok row col → ¬ (col ≤ a ∧ a < col + A.n)) →
        rowBytes s2 (gid / 128) row a 1 = rowBytes s (gid / 128) row a 1) ∧
      (∀ row, (∀ p ∈ ps, ∀ col, p.cls ≠ .ok row col) → (s2.core (gid / 128)).row row = (s.core (gid / 128)).row row))

/-- R225, R230: how an access of `n` bytes of a lane is classified. -/
def Sys2Proof.Claims.ScratchClassification : Prop :=
  ∀ (c : Core) now (b : Buf) o n reads, 0 < n →
    c.classify now none o n reads = .out 1 ∧
    (1024 * b.rows < o + n → c.classify now (some b) o n reads = .out 0) ∧
    (o + n ≤ 1024 * b.rows → o % n ≠ 0 → c.classify now (some b) o n reads = .trap 0x11 1) ∧
    (o + n ≤ 1024 * b.rows → o % n = 0 →
      (reads = true → (c.row (b.base + o / 1024)).st = .void → c.classify now (some b) o n reads = .trap 0x14 2) ∧
      (reads = true → (c.row (b.base + o / 1024)).st = .stamped →
        min b.tag c.retnUs * 1000 < now - (c.row (b.base + o / 1024)).stamp →
        c.classify now (some b) o n reads = .trap 0x14 1) ∧
      (reads = false ∨ (c.row (b.base + o / 1024)).st = .never ∨ ((c.row (b.base + o / 1024)).st = .stamped ∧
          now - (c.row (b.base + o / 1024)).stamp ≤ min b.tag c.retnUs * 1000) →
        c.classify now (some b) o n reads = .ok (b.base + o / 1024) (o % 1024)))

/-- R222, R225, R226, R240: what is written into a row is read back until its age exceeds min(tag, RETN), and raises STALE
from then on, even if it was renewed too late; a write gives the whole row a new stamp, keeps the other bytes of a row that
was alive and clears those of one that was not; a row that nothing has written reads as zero. -/
def Sys2Proof.Claims.ScratchRetention : Prop :=
  ∀ (c : Core) (b : Buf) now row col bs, col + bs.length ≤ 1024 → 0 < bs.length →
    let c' := c.writeRow b now row col bs
    let r := c'.row row
    r.st = .stamped ∧ r.stamp = now ∧ r.dirty0 = true ∧ r.dirty1 = true ∧
    (∀ k, k ≠ row → c'.row k = c.row k) ∧
    (∀ now', (r.expired now' (c'.keepNs b) = true ↔ min b.tag c.retnUs * 1000 < now' - now)) ∧
    (∀ now', min b.tag c.retnUs * 1000 < now' - now → (r.renew now' (c'.keepNs b)) = r) ∧
    (∀ now', now' - now ≤ min b.tag c.retnUs * 1000 → (r.renew now' (c'.keepNs b)).stamp = now' ∧
      (r.renew now' (c'.keepNs b)).data = r.data) ∧
    (∀ j < bs.length, r.bad (col + j) = false → (r.read (col + j) 1) = [bs.getD j 0]) ∧
    (∀ j < 1024, j < col ∨ col + bs.length ≤ j → r.bad j = false →
      (r.read j 1) = if (c.row row).st = .stamped ∧ now - (c.row row).stamp ≤ min b.tag c.retnUs * 1000 then
        (c.row row).read j 1 else [0]) ∧
    (∀ j, freshRow.read j 1 = [0])

/-- R228, R229, R244: SPALLOC. A malformed request answers 3, a full buffer table 2, and a lack of a run of free rows 1;
otherwise the buffer takes the lowest free entry and the lowest run of free rows, every row of it is NEVER, its tag is
min(LIFE, RETN.US), and the handle answered is valid for the team. -/
def Sys2Proof.Claims.BufferAllocation : Prop :=
  ∀ (c : Core) team num (q : DWord),
    let rows := q.toNat % 2 ^ 12
    let cls := q.toNat / 2 ^ 12 % 4
    let life := q.toNat / 2 ^ 32 % 2 ^ 20
    let bad := rows = 0 ∨ 2048 < rows ∨ cls = 3 ∨ life = 0 ∨ q.toNat / 2 ^ 14 % 2 ^ 18 ≠ 0 ∨ q.toNat / 2 ^ 52 ≠ 0
    let r := c.spalloc team num q.toNat
    (bad → r = (3, c)) ∧
    (¬ bad → (∀ k < 64, (c.bufs.find k).isSome) → r = (2, c)) ∧
    (¬ bad → (∃ k < 64, c.bufs.find k = none) →
      (∀ base, base + rows ≤ 2048 → ∃ j < rows, c.rowFree (base + j) = false) → r = (1, c)) ∧
    (∀ id base, ¬ bad → id < 64 → c.bufs.find id = none → (∀ k < id, (c.bufs.find k).isSome) →
      base + rows ≤ 2048 → (∀ j < rows, c.rowFree (base + j) = true) →
      (∀ b < base, ∃ j < rows, c.rowFree (b + j) = false) → c.retnUs < 2 ^ 20 →
      ∃ x, r.2.bufOf team r.1 = some x ∧ x.base = base ∧ x.rows = rows ∧ x.tag = min life c.retnUs ∧ x.cls.code = cls ∧
        x.circ = none ∧ handleId r.1 = id ∧ handleGen r.1 = x.gen ∧ 0 < x.gen ∧ x.gen < 256 ∧
        r.1.toNat % 2 ^ 11 = base ∧ r.1.toNat / 2 ^ 12 % 2 ^ 11 = rows - 1 ∧ r.1.toNat / 2 ^ 24 % 4 = cls ∧
        r.1.toNat / 2 ^ 32 % 2 ^ 20 = min life c.retnUs ∧
        (∀ j < rows, r.2.row (base + j) = freshRow) ∧
        (∀ k, (k < base ∨ base + rows ≤ k) → r.2.row k = c.row k) ∧
        ∀ k, k ≠ id → r.2.bufs.find k = c.bufs.find k)

/-- R244 to R247: the buffer instructions complete. SPALLOC delivers the answer of the core; SPFREE gives up a buffer that
no copy and no earlier access uses, and waits for those; SPRENEW renews the rows of its buffer; SPQUERY reports per lane the
state of a row and the microseconds it has left, or the counts of the circular buffer. An invalid handle sets SPOOR. -/
def Sys2Proof.Claims.BufferControl : Prop :=
  ∀ (f : MX) s gid g c t l,
    let h := (g.view s.tick).sreg f.base.toNat
    let k := s.core (gid / 128)
    let w := fun wr => spoorWord 0 (handleId h) 1 wr 0 (gid / 128)
    (Issuable (.spalloc f) { sr := [f.base.toNat], sw := [f.base.toNat], opc := 0x20, out := .both } s gid g c t l →
      let r := k.spalloc g.team (k.nextNum g.team l.nbuf) h.toNat
      Completes (.spalloc f) { sr := [f.base.toNat], sw := [f.base.toNat], opc := 0x20, out := .both } s
        ((s.setCore (gid / 128) r.2).notSafe g.team) gid g c { sw := [(f.base.toNat, r.1)] } .none) ∧
    (Issuable (.spfree f) { sr := [f.base.toNat], opc := 0x21, out := .output } s gid g c t l →
      (bufAt s gid g h = none → ∃ s2, SpoorSet s s2 t.launch (w true) ∧ s2.cores = s.cores ∧ s2.mem = s.mem ∧
        Completes (.spfree f) { sr := [f.base.toNat], opc := 0x21, out := .output } s s2 gid g c {} .none) ∧
      (∀ x, bufAt s gid g h = some x → g.wait = none →
        ((∀ p ∈ s.groups, p.1 / 128 = gid / 128 → (∀ o ∈ p.2.ops, o.act ≠ .spad (handleId h) x.gen ∧
            ∀ old, o.act ≠ .spadStore (handleId h) x.gen old) ∧
            ∀ hd, p.2.rowsUnder = some hd → p.2.wait = none ∨ handleId hd ≠ handleId h ∨ handleGen hd ≠ x.gen) →
          (∀ p ∈ s.copies, p.2.touches (gid / 128) (handleId h) x.gen = false) →
          Completes (.spfree f) { sr := [f.base.toNat], opc := 0x21, out := .output } s
            ((s.setCore (gid / 128) { k with bufs := k.bufs.del (handleId h) }).notSafe g.team) gid g c {} .none) ∧
        (∀ p ∈ s.copies, p.2.touches (gid / 128) (handleId h) x.gen = true →
          ∃ u v, exec (.spfree f) s = .next u ∧ u.groups.find gid = some v ∧ v.st = .waiting ∧ v.clause = g.clause ∧
            (u.core (gid / 128)).bufs = k.bufs))) ∧
    (Issuable (.sprenew f) { sr := [f.base.toNat], dc := f.dc.toNat, opc := 0x22, out := .output } s gid g c t l →
      (bufAt s gid g h = none → ∃ s2, SpoorSet s s2 t.launch (w false) ∧ s2.cores = s.cores ∧ s2.mem = s.mem ∧
        Completes (.sprenew f) { sr := [f.base.toNat], dc := f.dc.toNat, opc := 0x22, out := .output } s s2 gid g c {} .none) ∧
      (∀ x, bufAt s gid g h = some x → ∃ s2, s2.mem = s.mem ∧ (s2.core (gid / 128)).bufs = k.bufs ∧
        (∀ r, (k.sp.find r).isSome → (s2.core (gid / 128)).row r =
          if x.base ≤ r ∧ r < x.base + x.rows then (k.row r).renew s.time (min x.tag k.retnUs * 1000) else k.row r) ∧
        Completes (.sprenew f) { sr := [f.base.toNat], dc := f.dc.toNat, opc := 0x22, out := .output } s s2 gid g c {}
          (.spad (handleId h) x.gen))) ∧
    (Issuable (.spquery f) (loadShape f 0x23 1 (if f.sz.toNat = 0 then [f.off.toNat] else [])) s gid g c t l →
      ∃ val : Nat → Word, Completes (.spquery f) (loadShape f 0x23 1 (if f.sz.toNat = 0 then [f.off.toNat] else [])) s s gid g c
          { vw := [(f.data.toNat, rowOf val, c.active)] } (spadAct (bufAt s gid g h) h) ∧
        ∀ n < 32, (f.sz.toNat = 0 → bufAt s gid g h = none → (val n).toNat = 3 * 2 ^ 20) ∧
          (∀ x, f.sz.toNat = 0 → bufAt s gid g h = some x →
            let o := (lane ((g.view s.tick).vreg f.off.toNat) n).toNat
            let r := k.row (x.base + o / 1024)
            (1024 * x.rows ≤ o → (val n).toNat = 3 * 2 ^ 20) ∧
            (o < 1024 * x.rows → r.st = .never → val n = 0) ∧
            (o < 1024 * x.rows → r.st = .void → (val n).toNat = 2 * 2 ^ 20) ∧
            (o < 1024 * x.rows → r.st = .stamped → x.tag < 2 ^ 20 → (val n).toNat =
              2 ^ 20 + (min x.tag k.retnUs * 1000 - (s.time - r.stamp)) / 1000)) ∧
          (∀ x y, f.sz.toNat ≠ 0 → bufAt s gid g h = some x → x.circ = some y → y.free < 256 → y.filled < 256 → y.held < 256 →
            y.claims.length < 256 → (val n).toNat = y.free + 2 ^ 8 * y.filled + 2 ^ 16 * y.held + 2 ^ 24 * y.claims.length))

/-- R235, R248 to R250: circular buffers. CBCFG lays one over its buffer, or removes it, once nothing is in flight, and waits
until then; CBWAIT takes the filled slot at RNEXT, waits for one, or answers all ones with .try; CBREL frees a held slot.
Misuse sets SPOOR with KIND 2 and changes nothing. -/
def Sys2Proof.Claims.CircularBuffers : Prop :=
  ∀ (f : MX) s gid g c t l,
    let h := (g.view s.tick).sreg f.base.toNat
    let k := s.core (gid / 128)
    let cfg := ((g.view s.tick).sreg (f.base.toNat + 1)).toNat
    let srows := cfg % 2 ^ 11
    let nslot := cfg / 2 ^ 12 % 2 ^ 8
    let w := spoorWord 0 (handleId h) 2 false 0 (gid / 128)
    let put := fun (x : Option Circ) => s.setCore (gid / 128) { k with bufs := k.bufs.modify (handleId h) fun b => { b with circ := x } }
    let shc : Shape := { sr := span f.base.toNat 2, opc := 0x24, out := .output }
    let shw : Shape := { loadShape f 0x25 1 [] with out := .both }
    let shr : Shape := { sr := [f.base.toNat], opc := 0x26, out := .output }
    let bad := fun (x : Buf) => cfg / 2 ^ 11 % 2 = 1 ∨ cfg / 2 ^ 20 ≠ 0 ∨ (nslot ≠ 0 ∧ (srows = 0 ∨ x.rows < nslot * srows))
    (Issuable (.cbcfg f) shc s gid g c t l →
      ((∀ x, bufAt s gid g h = some x → bad x) → ∃ s2, SpoorSet s s2 t.launch w ∧ s2.cores = s.cores ∧ s2.mem = s.mem ∧
        Completes (.cbcfg f) shc s s2 gid g c {} .none) ∧
      (∀ x, bufAt s gid g h = some x → ¬ bad x →
        ((∀ y, x.circ = some y → y.claims = []) → nslot = 0 → Completes (.cbcfg f) shc s (put none) gid g c {} .none) ∧
        ((∀ y, x.circ = some y → y.claims = []) → nslot ≠ 0 →
          Completes (.cbcfg f) shc s (put (some ⟨nslot, srows, nslot, 0, 0, 0, 0, []⟩)) gid g c {} .none) ∧
        (∀ y, x.circ = some y → y.claims ≠ [] → ∃ u v, exec (.cbcfg f) s = .next u ∧ u.groups.find gid = some v ∧
          v.st = .waiting ∧ v.clause = g.clause ∧ (u.core (gid / 128)).bufs = k.bufs))) ∧
    (Issuable (.cbwait f) shw s gid g c t l →
      ((∀ x, bufAt s gid g h = some x → x.circ = none) → ∃ s2, SpoorSet s s2 t.launch w ∧ s2.cores = s.cores ∧ s2.mem = s.mem ∧
        Completes (.cbwait f) shw s s2 gid g c { vw := [(f.data.toNat, rowOf fun _ => 0xFFFFFFFF, c.active)] } .none) ∧
      (∀ x y, bufAt s gid g h = some x → x.circ = some y →
        (0 < y.filled → (∀ p ∈ s.groups, p.1 ≠ gid → p.2.wait = none) →
          Completes (.cbwait f) shw s (put (some (slotTaken y))) gid g c
            { vw := [(f.data.toNat, rowOf fun _ => BitVec.ofNat 32 (1024 * y.srows * y.rnext), c.active)] } .none) ∧
        (y.filled = 0 → f.sz.toNat = 1 → Completes (.cbwait f) shw s s gid g c
          { vw := [(f.data.toNat, rowOf fun _ => 0xFFFFFFFF, c.active)] } .none) ∧
        (y.filled = 0 → f.sz.toNat ≠ 1 → ∃ u v, exec (.cbwait f) s = .next u ∧ u.groups.find gid = some v ∧
          v.st = .waiting ∧ v.clause = g.clause ∧ u.cores = s.cores))) ∧
    (Issuable (.cbrel f) shr s gid g c t l →
      ((∀ x y, bufAt s gid g h = some x → x.circ = some y → y.held = 0) → ∃ s2, SpoorSet s s2 t.launch w ∧ s2.cores = s.cores ∧
        s2.mem = s.mem ∧ Completes (.cbrel f) shr s s2 gid g c {} .none) ∧
      (∀ x y, bufAt s gid g h = some x → x.circ = some y → 0 < y.held →
        Completes (.cbrel f) shr s (put (some { y with held := y.held - 1, free := y.free + 1 })) gid g c {} .none))

/-- R235: the counts of a circular buffer always sum to NSLOT: claims, landings, takes and releases keep the sum. -/
def Sys2Proof.Claims.CircularCounts : Prop :=
  ∀ y : Circ, y.free + y.claims.length + y.filled + y.held = y.nslot →
    let sum := fun z : Circ => z.nslot = y.nslot ∧ z.free + z.claims.length + z.filled + z.held = y.nslot
    (0 < y.free → sum y.claim.2) ∧ (∀ k, sum (y.landed k)) ∧ (0 < y.filled → sum y.take.2) ∧ sum y.settle ∧
    (0 < y.held → sum { y with held := y.held - 1, free := y.free + 1 }) ∧
    ∀ n r, (fun z : Circ => z.free + z.claims.length + z.filled + z.held = z.nslot) (newCirc n r)

/-! ## Ports and lanes -/

namespace Sys2Proof.Claims

open Sys2Proof Sys2Proof.Machine

/-- The lane that feeds from lane `n` through port `p` (R251). -/
def portLane (p n : Nat) : Nat := if p = 0 then (n + 1) % 32 else if p = 1 then (n + 31) % 32 else n

/-- The queue in which a push through port `p` lands (R251): LNEXT and LPREV, EAST and WEST, NORTH and SOUTH, ACROSS. -/
def landsIn (p : Nat) : Nat := [1, 0, 3, 2, 5, 4, 6].getD p 7

/-- The arrived values of a queue, oldest first (R252). -/
def arrivedVals (g : Group) (p n : Nat) : List Word := ((g.queue (32 * p + n)).filter (·.arrived)).map (·.val)

/-- The free entries that a sender sees: 8 less those in use and those whose release it does not see yet (R252). -/
def freeSeen (g : Group) (p n : Nat) : Nat := 8 - (g.queue (32 * p + n)).length - (g.lag.find (32 * p + n)).getD 0

/-- The group waits at its instruction, on `k`, with its registers and its place as they were; outside it the state is that
of `s'` (R95). -/
def Waits (i : Instr) (s s' : State) (gid : Nat) (g : Group) (k : WaitKind) : Prop :=
  ∃ u h, exec i s = .next u ∧ SameOutside s' u ∧ u.cores = s'.cores ∧ u.groups.find gid = some h ∧ h.st = .waiting ∧
    h.wait.map (·.kind) = some k ∧ h.clause = g.clause ∧ h.pcv = g.pcv ∧ h.rows = g.rows ∧ h.sregs = g.sregs ∧
    h.dcs = g.dcs ∧ h.ports = g.ports ∧ h.ops = g.ops ∧ ∀ k, k ≠ gid → u.groups.find k = s'.groups.find k

/-- The shape of a port instruction. -/
def portShape (f : MX) (opc : Nat) : Shape :=
  if opc = 0x27 then { vr := span f.data.toNat (f.sz.toNat + 1), opc := opc, sz := f.sz.toNat, out := .output }
  else { vw := span f.data.toNat (f.sz.toNat + 1), opc := opc, sz := f.sz.toNat, out := .input }

/-- All ones where a condition holds, zero where it does not (R349). -/
def AllOnesIff (x : Word) (p : Prop) : Prop := (p → x = 0xFFFFFFFF) ∧ (¬ p → x = 0)

/-- The operations of reductions with their identities (R342). -/
def reductions : List (Word × (Word → Word → Word)) :=
  let fp := fun (r : Nat × Nat) => BitVec.ofNat 32 r.1
  [ (0, fun a b => BitVec.ofNat 32 (a.toNat + b.toNat)),
    (0x7FFFFFFF, fun a b => if a.toInt < b.toInt then a else b),
    (0xFFFFFFFF, fun a b => if a.toNat < b.toNat then a else b),
    (0x80000000, fun a b => if a.toInt < b.toInt then b else a),
    (0, fun a b => if a.toNat < b.toNat then b else a),
    (0xFFFFFFFF, fun a b => a &&& b),
    (0, fun a b => a ||| b),
    (0, fun a b => a ^^^ b),
    (0x80000000, fun a b => fp (fp32.addV ⟨0, 0⟩ (fp32.read a.toNat) (fp32.read b.toNat))),
    (0x7F800000, fun a b => fp (minMax32 false a.toNat b.toNat)),
    (0xFF800000, fun a b => fp (minMax32 true a.toNat b.toNat)) ]

/-- The fold of a register over lanes from the identity, in ascending order (R350). -/
def foldOver (r : Word × (Word → Word → Word)) (x : Nat → Word) (p : Nat → Bool) : Word :=
  ((List.range 32).filter p).foldl (fun a n => r.2 a (x n)) r.1

end Sys2Proof.Claims

/-- R251, R252, R260 to R263: the port instructions. An undeclared port raises PORTS with SUB 3, an edge with SUB 2. A push
waits until every active lane sees room and then appends its entries, reserved, to the queues of the far group; a pop waits
until every active lane has its entries arrived, delivers the oldest and frees them; a peek changes no queue. A push to a
retired group is discarded; one to a group whose team is off the cores waits (R261). -/
def Sys2Proof.Claims.PortTransfer : Prop :=
  ∀ (f : MX) s gid g c t l,
    let p := f.off.toNat % 8
    let n := f.sz.toNat + 1
    let far := s.farEnd gid g t l p
    let declared := l.portMask / 2 ^ p % 2 = 1
    let active := fun k => inMask c.active k = true
    (∀ q ∈ [((.npush f : Instr), 0x27), (.npop f, 0x28), (.npeek f, 0x29)], Issuable q.1 (portShape f q.2) s gid g c t l →
      (¬ declared → exec q.1 s = .next (trapHere s gid c ⟨0x30, 3, 0, c.active⟩)) ∧
      (declared → far = .edge → exec q.1 s = .next (trapHere s gid c ⟨0x30, 2, 0, c.active⟩))) ∧
    (Issuable (.npush f) (portShape f 0x27) s gid g c t l → declared →
      (far = .retired → Completes (.npush f) (portShape f 0x27) s s gid g c {} .none) ∧
      (far = .away → c.active ≠ 0 → Waits (.npush f) s s gid g .port) ∧
      (∀ d dg, far = .group d → s.groups.find d = some dg →
        ((∃ k < 32, active k ∧ freeSeen dg (landsIn p) (portLane p k) < n) → Waits (.npush f) s s gid g .port) ∧
        ((∀ k < 32, active k → n ≤ freeSeen dg (landsIn p) (portLane p k)) →
          ∃ s2 g2 dg2, Completes (.npush f) (portShape f 0x27) s s2 gid g2 c {} .none ∧
            s2.groups.find gid = some g2 ∧ s2.groups.find d = some dg2 ∧ g2.rows = g.rows ∧ g2.sregs = g.sregs ∧
            g2.ctxcfg = g.ctxcfg ∧ dg2.lag = dg.lag ∧ s2.mem = s.mem ∧ s2.cores = s.cores ∧
            (∀ k, k ≠ d → s2.groups.find k = s.groups.find k) ∧
            (∀ m, m / 32 ≠ landsIn p → dg2.queue m = dg.queue m) ∧
            ∀ k < 32, dg2.queue (32 * landsIn p + portLane p k) = dg.queue (32 * landsIn p + portLane p k) ++
              (if inMask c.active k then
                (List.range n).map fun j => ⟨lane ((g.view s.tick).vreg (f.data.toNat + j)) k, false⟩ else [])))) ∧
    (∀ q ∈ [((.npop f : Instr), 0x28), (.npeek f, 0x29)], Issuable q.1 (portShape f q.2) s gid g c t l → declared →
      far ≠ .edge →
      ((∃ k < 32, active k ∧ (arrivedVals g p k).length < n) → Waits q.1 s s gid g .port) ∧
      ((∀ k < 32, active k → n ≤ (arrivedVals g p k).length) →
        ∃ s2 g2, Completes q.1 (portShape f q.2) s s2 gid g2 c
            { vw := (List.range n).map fun j => (f.data.toNat + j, rowOf fun k => (arrivedVals g p k).getD j 0, c.active) } .none ∧
          s2.groups.find gid = some g2 ∧ g2.rows = g.rows ∧ g2.sregs = g.sregs ∧ g2.ctxcfg = g.ctxcfg ∧ s2.mem = s.mem ∧
          s2.cores = s.cores ∧ (∀ k, k ≠ gid → s2.groups.find k = s.groups.find k) ∧
          (∀ m, (∀ k < 32, active k → m ≠ 32 * p + k) → g2.queue m = g.queue m) ∧
          ∀ k < 32, active k → g2.queue (32 * p + k) = (g.queue (32 * p + k)).drop (if q.2 = 0x28 then n else 0)))

/-- R259, R263: NPSTAT never waits: per lane the arrived entries, the room at the far end, and the declared ports that are no
edge; the room behind a neighbour that has retired is left open (log entry 19). -/
def Sys2Proof.Claims.PortStatus : Prop :=
  ∀ (f : MX) s gid g c t l,
    Issuable (.npstat f) { vw := [f.data.toNat], opc := 0x2A, out := .input } s gid g c t l →
    let p := f.off.toNat % 8
    let declared := fun k => decide (l.portMask / 2 ^ k % 2 = 1)
    ∃ val : Nat → Word, WritesLanes (.npstat f) { vw := [f.data.toNat], opc := 0x2A, out := .input } f.data.toNat
        s gid g c val ∧
      ∀ k < 32, (arrivedVals g p k).length < 16 →
        (val k).toNat % 2 ^ 4 = (arrivedVals g p k).length ∧
        (val k).toNat / 2 ^ 15 = 0 ∧
        (∀ j < 7, (val k).getLsbD (8 + j) = (declared j && s.farEnd gid g t l j != .edge)) ∧
        (declared p = false ∨ s.farEnd gid g t l p = .edge → (val k).toNat / 2 ^ 4 % 2 ^ 4 = 0) ∧
        (∀ d dg, declared p = true → s.farEnd gid g t l p = .group d → s.groups.find d = some dg →
          (val k).toNat / 2 ^ 4 % 2 ^ 4 = freeSeen dg (landsIn p) (portLane p k))

/-- R251, R253: the ports of neighbours are mutual: a core reached through a port reaches back through the opposite one, in
the grid of 6 rows and 16 columns of a tower, which does not wrap, and across paired towers; exactly one lane feeds each
queue. -/
def Sys2Proof.Claims.PortsAreMutual : Prop :=
  (∀ core < 384, ∀ p ∈ [2, 3, 4, 5, 6], ∀ d, stepCore core p = some d →
    d < 384 ∧ d ≠ core ∧ stepCore d (landsIn p) = some core ∧ (p ≠ 6 → d / 96 = core / 96) ∧ (p = 6 → d % 96 = core % 96)) ∧
  (∀ core < 384, (gridOf core).1 < 6 ∧ (gridOf core).2 < 16 ∧ coreAt (core / 96) (gridOf core).1 (gridOf core).2 = core ∧
    (stepCore core 2 = none ↔ (gridOf core).2 = 15) ∧ (stepCore core 3 = none ↔ (gridOf core).2 = 0) ∧
    (stepCore core 4 = none ↔ (gridOf core).1 = 0) ∧ (stepCore core 5 = none ↔ (gridOf core).1 = 5)) ∧
  ∀ p ∈ [0, 1], ∀ n < 32, ∀ m < 32, destLane p n = destLane p m → n = m ∧ destLane p n < 32 ∧
    destLane (farPort p) (destLane p n) = n

/-- R348, R349: SHFL delivers to each active lane the source lane's value, all sources read first, whatever lanes are active;
VOTE tells the active lanes whether any, all or which of them are nonzero, or whether they agree. -/
def Sys2Proof.Claims.LaneExchange : Prop :=
  ∀ (f : MX) s gid g c t l,
    let k := ((g.view s.tick).sreg f.base.toNat).toNat % 32
    let v := fun r n => lane ((g.view s.tick).vreg r) n
    let src := fun n => if f.sz.toNat = 0 then (v f.data.toNat n).toNat % 32
      else if f.sz.toNat = 1 then (if k ≤ n then n - k else n)
      else if f.sz.toNat = 2 then (if n + k < 32 then n + k else n)
      else n ^^^ k
    let shs : Shape := { vr := if f.sz.toNat = 0 then [f.data.toNat, f.off.toNat] else [f.off.toNat]
                         sr := if f.sz.toNat = 0 then [] else [f.base.toNat], vw := [f.data.toNat], dc := f.dc.toNat
                         opc := 0x2B, sz := f.sz.toNat, lanes := fun r _ act => if r = f.off.toNat then 0xFFFFFFFF else act }
    let shv : Shape := { vr := [f.off.toNat], vw := [f.data.toNat], dc := f.dc.toNat, opc := 0x2C, sz := f.sz.toNat }
    (Issuable (.shfl f) shs s gid g c t l → Completes (.shfl f) shs s s gid g c
      { vw := [(f.data.toNat, rowOf fun n => v f.off.toNat (src n), c.active)] } .none) ∧
    (Issuable (.vote f) shv s gid g c t l → ∃ x : Word, Completes (.vote f) shv s s gid g c
        { vw := [(f.data.toNat, rowOf fun _ => x, c.active)] } .none ∧
      (f.sz.toNat = 0 → AllOnesIff x (∃ n < 32, inMask c.active n = true ∧ v f.off.toNat n ≠ 0)) ∧
      (f.sz.toNat = 1 → AllOnesIff x (∀ n < 32, inMask c.active n = true → v f.off.toNat n ≠ 0)) ∧
      (f.sz.toNat = 2 → ∀ n < 32, x.getLsbD n = (inMask c.active n && decide (v f.off.toNat n ≠ 0))) ∧
      (f.sz.toNat = 3 → c.active ≠ 0 → AllOnesIff x (∀ n < 32, ∀ m < 32, inMask c.active n = true →
        inMask c.active m = true → v f.off.toNat n = v f.off.toNat m)))

/-- R342, R350: REDUX folds the active lanes in ascending order from the identity; PRFX folds, for each lane, those up to it
or before it. A control word that names no operation raises ALIGN with SUB 2. -/
def Sys2Proof.Claims.LaneFolds : Prop :=
  ∀ (f : MX) s gid g c t l,
    let cw := ((g.view s.tick).sreg f.base.toNat).toNat
    let x := fun n => lane ((g.view s.tick).vreg f.off.toNat) n
    let sh := fun opc => ({ vr := [f.off.toNat], sr := [f.base.toNat], vw := [f.data.toNat], dc := f.dc.toNat, opc := opc
                            sz := f.sz.toNat } : Shape)
    ∀ p ∈ [((.redux f : Instr), 0x2D), (.prfx f, 0x2E)], Issuable p.1 (sh p.2) s gid g c t l →
      (10 < cw → exec p.1 s = .next (trapHere s gid c ⟨0x11, 2, 0, c.active⟩)) ∧
      (∀ r, reductions[cw]? = some r → Completes p.1 (sh p.2) s s gid g c
        { vw := [(f.data.toNat, rowOf fun n => foldOver r x fun m => inMask c.active m &&
            (decide (p.2 = 0x2D) || decide (m < n) || (decide (f.sz.toNat = 0) && decide (m = n))), c.active)] } .none)

/-- R351: the long forms fold the 32-bit elements of an array one after another, writing the running value into vD at each
step and, for PRFX, into the element. With all elements done the value stands in vD and PIDX is zero. -/
def Sys2Proof.Claims.LongFolds : Prop :=
  ∀ (f : MX) s gid g c t l, s.loadsOf gid = [] → (∀ w, g.wait = some w → w.kind = .other) →
    let e := seen s gid g c t l
    let cw := ((g.view s.tick).sreg f.base.toNat).toNat
    let base := ((g.view s.tick).sreg (f.base.toNat + 1)).toNat
    let n := ((g.view s.tick).sreg (f.base.toNat + 2)).toNat % 2 ^ 32
    let k := nextRow g
    let sh := fun opc => ({ vr := [f.data.toNat], sr := span f.base.toNat 3, vw := [f.data.toNat], opc := opc
                            sz := f.sz.toNat, out := .input } : Shape)
    let at_ := [(lowLane c.active, (base + 4 * k) % 2 ^ 64)]
    ∀ p ∈ [((.reduxLong f : Instr), 0x2D), (.prfxLong f, 0x2E)], Issuable p.1 (sh p.2) s gid g c t l →
      (10 < cw → exec p.1 s = .next (trapHere s gid c ⟨0x11, 2, 0, c.active⟩)) ∧
      (∀ r, reductions[cw]? = some r →
        let a := if g.pidx.toNat < 2 ^ 32 then r.1 else lane ((g.view s.tick).vreg f.data.toNat) (lowLane c.active)
        (n ≤ k → Completes p.1 (sh p.2) s (s.setPidx gid 0) gid { g with pidx := 0 } c
          { vw := [(f.data.toNat, rowOf fun _ => a, c.active)] } .none) ∧
        (∀ ps s1 qs s2, k < n → Granted s e .load (.load 4) false 4 at_ ps s1 →
          (p.2 = 0x2D → qs = [] ∧ s2 = s1) → (p.2 = 0x2E → Granted s1 e .store .store true 4 at_ qs s2) →
          let rd := s2.readLanes e 4 [] readLdg ps
          (∀ q ∈ qs, ∀ pa x, q.chk = .ok pa x → rd.2.reserveHolds pa = false) →
          let a2 := r.2 a (BitVec.ofNat 32 (ofBytes (bytesOf rd.1 (lowLane c.active))))
          let s4 := (rd.2.storeAll e qs fun _ => toBytes 4 (if f.sz.toNat = 3 then a.toNat else a2.toNat)).2
          ∃ u h, exec p.1 s = .next u ∧ u.groups.find gid = some h ∧ u.mem = s4.mem ∧ u.launches = s4.launches ∧
            (∀ m < 32, lane (h.vreg f.data.toNat) m =
              if inMask c.active m then a2 else lane (g.vreg f.data.toNat) m) ∧
            (n ≤ k + 1 → PastInstr u gid g c (encode p.1).length ∧ h.pidx = 0) ∧
            (k + 1 < n → h.pidx.toNat = 2 ^ 32 + (k + 1) ∧ h.st = .waiting ∧ h.clause = g.clause ∧ h.sregs = g.sregs)))

/-! ## Lids, fences, seals and caches -/

namespace Sys2Proof.Claims

open Sys2Proof Sys2Proof.Machine

/-- The shape of an instruction that reads `r` scalars from its base on and writes the one `w` behind it. -/
def baseShape (f : MX) (r : Nat) (w : List Nat) (opc : Nat) : Shape :=
  { sr := span f.base.toNat r, sw := w, opc := opc, out := .input }

/-- The scalar `k` behind the base of an instruction of format MX. -/
def baseReg (s : State) (g : Group) (f : MX) (k : Nat) : Nat := ((g.view s.tick).sreg (f.base.toNat + k)).toNat

/-- An operation that a fence waits for: of class MEM with a memory opcode, SIGADD, or a scalar access (R324, R346). -/
def IsAccess (o : Op) : Prop := o.opc ≤ 0x14 ∨ o.opc = 0x38 ∨ 0x5B ≤ o.opc

/-- An access of the one address of an instruction: `s1` and `pa` are the state and the place after its checks (R304). -/
def Reaches (s : State) (e : Env) (acc : LinkAcc) (posted : Bool) (n va pa : Nat) (s1 : State) : Prop :=
  ∃ k x, s.probe e .store acc posted n [(lowLane e.act, va)] = ([⟨k, va, .ok pa x⟩], s1) ∧ spaceOf pa ≠ .link

/-- An ACQ looks at its lid: on arrival once its checks pass, later at the home where it waits (R323). -/
def LooksAt (s : State) (e : Env) (lid pa : Nat) (s1 : State) : Prop :=
  (e.g.lidHome = none ∧ Reaches s e .atomic false 8 lid pa s1) ∨
  (∃ q, e.g.lidHome = some pa ∧ s.home 8 pa = .here q ∧ s1 = s)

/-- A 64-bit uniform operand of shape CXR: a scalar or the sign-extended literal (R61, R67). -/
def uniform (s : State) (g : Group) (p : Nat) (lit : Option Word) : DWord :=
  if p = 127 then (lit.getD 0).signExtend 64 else if 64 ≤ p then (g.view s.tick).sreg (p - 64) else 0

end Sys2Proof.Claims

/-- R286, R324: FENCE acts once the group has nothing logged and its earlier accesses are complete, and for system scope its
posted stores are accepted; with a counter it goes on at once. Once it has acted, the issuing core holds no dirty byte of
the context, and for the scopes from device on the tower's RDC holds none of its dirty bytes; from scope 1 on what stays in the L1 is sealed. -/
def Obligations.FenceResult : Prop :=
  (∀ (f : MX) s gid g c t l, Issuable (.fence f) { dc := f.dc.toNat, opc := 0x1A, out := .input } s gid g c t l →
    let ready := s.loggedBy gid = false ∧ (∀ o ∈ g.ops, ¬ IsAccess o) ∧
      (f.off.toNat = 5 → ∀ p ∈ s.peers, ¬ (p.2.gid = gid ∧ p.2.kind = .posted))
    (f.dc.toNat < 6 → Completes (.fence f) { dc := f.dc.toNat, opc := 0x1A, out := .input } s s gid g c {}
      (.fence f.off.toNat)) ∧
    (f.dc.toNat = 6 → ready → Completes (.fence f) { dc := f.dc.toNat, opc := 0x1A, out := .input } s
      (s.fence (gid / 128) t.ctx f.off.toNat) gid g c {} .none) ∧
    (f.dc.toNat = 6 → ¬ ready → Waits (.fence f) s s gid g .other)) ∧
  ∀ (s : State) core ctx scope, s.fence core ctx 0 = s ∧
    (0 < scope → ∀ x ∈ ((s.fence core ctx scope).core core).l1, x.ctx = ctx →
      x.line.dirty = 0 ∧ (x.sealed = true ∨ s.sealedAt ctx (x.vline * 128) 128 = true)) ∧
    (4 ≤ scope → ∀ x ∈ ((s.fence core ctx scope).tower (core / 96)).rdc, x.bytesOf (some ctx) = 0)

/-- R319 to R323: ACQ takes its lid when the word allows it and no earlier waiter for the same home stands before it, and then
refreshes the regions bound to the lid; otherwise it waits, also while its home is HELD. REL publishes them and frees the lid, now or under its counter, once the
group has nothing logged and its mirrored stores are acknowledged. -/
def Sys2Proof.Claims.LidResult : Prop :=
  ∀ (f : MX) s gid g c t l, s.loadsOf gid = [] → (∀ w, g.wait = some w → w.kind = .other ∨ w.kind = .lid) →
    let e := seen s gid g c t l
    let lid := baseReg s g f 0
    let shr : Shape := { sr := [f.base.toNat], dc := f.dc.toNat, opc := 0x19, sz := f.sz.toNat, out := .input }
    let sha : Shape := { sr := [f.base.toNat], opc := 0x18, sz := f.sz.toNat, out := .input }
    let place := ((g.wait.filter fun w => decide (w.kind = .lid)).map (·.arrival)).getD (2 ^ 64)
    (∀ pa s1, Issuable (.acq f) sha s gid g c t l → LooksAt s e lid pa s1 →
      let v := (s1.lidWord pa).1
      let s2 := (s1.lidWord pa).2
      let free := if f.sz.toNat = 0 then v = 0 else v < 2 ^ 63
      let first := ∀ p ∈ s2.groups, p.1 ≠ gid → ∀ w, p.2.wait = some w → w.kind = .lid → s2.sameHome w.lim pa = true →
        place ≤ w.arrival
      v < 2 ^ 64 → s2.reserveHolds pa = false →
      (free → first → Completes (.acq f) sha s
        (((s2.setLid pa (if f.sz.toNat = 0 then 2 ^ 63 else v + 1)).acquired (gid / 128) t.ctx lid).notSafe g.team)
        gid g c {} .none) ∧
      (¬ (free ∧ first) → Waits (.acq f) s s2 gid g .lid)) ∧
    (∀ pa, Issuable (.acq f) sha s gid g c t l → g.lidHome = some pa → s.home 8 pa = .held → Waits (.acq f) s s gid g .lid) ∧
    (∀ pa s1, Issuable (.rel f) shr s gid g c t l → Reaches s e .store true 8 lid pa s1 →
      let s2 := (s1.awaitMirrors gid).notSafe g.team
      (f.dc.toNat < 6 → Completes (.rel f) shr s s2 gid g c {} (.rel lid (f.sz.toNat = 0))) ∧
      (f.dc.toNat = 6 → s2.reserveHolds pa = false → s2.loggedBy gid = false → (∀ p ∈ s2.mirrors, p.2.gid ≠ gid) →
        Completes (.rel f) shr s (s2.release gid t.ctx t.launch lid pa (f.sz.toNat = 0)) gid g c {} .none) ∧
      (f.dc.toNat = 6 → s2.reserveHolds pa = false →
        (s2.loggedBy gid = true ∨ ∃ p ∈ s2.mirrors, p.2.gid = gid ∧ p.1 < s2.fresh) → Waits (.rel f) s s2 gid g .other))

/-- R321, R322: what taking and freeing a lid leaves. The word at home is the new one. A release of an exclusive lid writes
zero, one of a shared lid takes one holder off, and one that no one holds changes nothing. After ACQ the core holds no line
of a region bound to the lid that is not sealed; after REL none of them is dirty. The slices have room, and the lid is no
entry of a frame table. -/
def Sys2Proof.Claims.LidEffect : Prop :=
  ∀ (s : State) gid ctx launch lid pa q, Memory.wf s.mem = true → Roomy s → s.home 8 pa = .here q → spaceOf q = .hbm →
    q % 8 = 0 → spaceOf pa = .hbm → (∀ j < 8, s.tableByte (q + j) = none) →
    let v := ofBytes (Mem.getBytes s.mem q 8)
    let word := fun u : State => ofBytes (Mem.getBytes u.mem q 8)
    (∀ n, n < 2 ^ 64 → word (s.setLid pa n) = n) ∧ (s.lidWord pa).1 = v ∧
    (s.bound ctx lid = false →
      (2 ^ 63 ≤ v → word (s.release gid ctx launch lid pa true) = 0) ∧
      (v < 2 ^ 63 → word (s.release gid ctx launch lid pa true) = v) ∧
      (0 < v % 2 ^ 32 → word (s.release gid ctx launch lid pa false) = v - 1) ∧
      (v % 2 ^ 32 = 0 → word (s.release gid ctx launch lid pa false) = v)) ∧
    (∀ x ∈ ((s.acquired (gid / 128) ctx lid).core (gid / 128)).l1, s.inLid ctx lid x = true → x.ctx = ctx →
      x.line.dirty = 0 ∧ (x.sealed = true ∨ s.sealedAt ctx (x.vline * 128) 128 = true)) ∧
    (∀ x ∈ ((s.release gid ctx launch lid pa true).core (gid / 128)).l1, s.inLid ctx lid x = true → x.line.dirty = 0)

/-- R320: LIDBIND enters a region under a free number of the lid table and answers the number; a malformed one answers −2,
a full table −1. LIDUNB removes every binding of its lid and answers their count. -/
def Sys2Proof.Claims.LidTable : Prop :=
  ∀ (f : MX) s gid g c t l,
    let b := baseReg s g f
    (Issuable (.lidbind f) (baseShape f 3 [f.base.toNat + 3] 0x1B) s gid g c t l →
      ∃ (s2 : State) (r : DWord), Completes (.lidbind f) (baseShape f 3 [f.base.toNat + 3] 0x1B) s s2 gid g c
          { sw := [(f.base.toNat + 3, r)] } .none ∧ s2.mem = s.mem ∧ s2.cores = s.cores ∧
        (∀ k, k ≠ t.ctx → s2.ctx k = s.ctx k) ∧
        (b 0 % 8 ≠ 0 ∨ b 2 = 0 ∨ 2 ^ 40 < b 2 → r.toInt = -2 ∧ s2.ctx t.ctx = s.ctx t.ctx) ∧
        (b 0 % 8 = 0 → 0 < b 2 → b 2 ≤ 2 ^ 40 →
          ((∀ n < 256, ∃ x ∈ (s.ctx t.ctx).lids, x.entry = n) → r.toInt = -1 ∧ s2.ctx t.ctx = s.ctx t.ctx) ∧
          (∀ n < 256, (∀ x ∈ (s.ctx t.ctx).lids, x.entry ≠ n) → ∃ m < 256, (∀ x ∈ (s.ctx t.ctx).lids, x.entry ≠ m) ∧
            r.toNat = m ∧ (s2.ctx t.ctx).lids = (s.ctx t.ctx).lids ++ [⟨m, b 0, b 1, b 2⟩]))) ∧
    (Issuable (.lidunb f) (baseShape f 1 [f.base.toNat + 1] 0x1C) s gid g c t l →
      ∃ s2 : State, Completes (.lidunb f) (baseShape f 1 [f.base.toNat + 1] 0x1C) s s2 gid g c
          { sw := [(f.base.toNat + 1, BitVec.ofNat 64 ((s.ctx t.ctx).lids.countP fun x => x.lid == b 0))] } .none ∧
        s2.mem = s.mem ∧ s2.cores = s.cores ∧
        (s2.ctx t.ctx).lids = (s.ctx t.ctx).lids.filter fun x => x.lid != b 0)

/-- R325, R326: SEAL answers 0 and enters its region, or says why not; stores to a sealed region then trap SEALW (see
AccessCheck). UNSEAL answers 0 and removes the region, with every copy of its lines gone from every L1, or answers 1 if no
region begins there. The order of SEAL's refusals is the model's (log entry 16). -/
def Sys2Proof.Claims.SealResult : Prop :=
  ∀ (f : MX) s gid g c t l,
    let b := baseReg s g f
    let table := (s.ctx t.ctx).seals
    let meets := fun (p : Nat × Nat) => b 0 < p.1 + p.2 ∧ p.1 < b 0 + b 1
    (Issuable (.seal f) (baseShape f 2 [f.base.toNat + 2] 0x1D) s gid g c t l →
      ∃ (s2 : State) (r : DWord), Completes (.seal f) (baseShape f 2 [f.base.toNat + 2] 0x1D) s s2 gid g c
          { sw := [(f.base.toNat + 2, r)] } .none ∧
        (b 1 = 0 ∨ 2 ^ 40 < b 1 → r = 3) ∧
        (0 < b 1 → b 1 ≤ 2 ^ 40 → 64 ≤ table.length → r = 1) ∧
        (0 < b 1 → b 1 ≤ 2 ^ 40 → table.length < 64 → (∃ p ∈ table, 0 < p.2 ∧ meets p) → r = 2) ∧
        (0 < b 1 → b 1 ≤ 2 ^ 40 → table.length < 64 → (∀ p ∈ table, ¬ meets p) → r = 0 ∧
          (s2.ctx t.ctx).seals = table ++ [(b 0, b 1)]) ∧
        (r ≠ 0 → (s2.ctx t.ctx).seals = table ∧ s2.mem = s.mem ∧ s2.cores = s.cores)) ∧
    (Issuable (.unseal f) (baseShape f 1 [f.base.toNat + 1] 0x1E) s gid g c t l →
      ((∀ p ∈ table, p.1 ≠ b 0) → Completes (.unseal f) (baseShape f 1 [f.base.toNat + 1] 0x1E) s (s.notSafe g.team)
        gid g c { sw := [(f.base.toNat + 1, 1)] } .none) ∧
      (∀ p ∈ table, p.1 = b 0 → ∃ s2 : State, Completes (.unseal f) (baseShape f 1 [f.base.toNat + 1] 0x1E) s s2 gid g c
          { sw := [(f.base.toNat + 1, 0)] } .none ∧
        (s2.ctx t.ctx).seals = table.filter (fun q => q.1 != b 0) ∧
        ((table.find? fun q => q.1 == b 0) = some p → ∀ k x, x ∈ (s2.core k).l1 → x.ctx = t.ctx →
          ¬ (x.vline * 128 < p.1 + p.2 ∧ p.1 < x.vline * 128 + 128 ∧ 0 < p.2))))

/-- R300 to R303: CINV removes from the issuing core's L1 every line of its context that it covers; TLBINV, once a device
fence may act, removes every translation it covers in its cluster or in every cluster; L2WB, under the same condition,
leaves no dirty line of plain memory that it covers. -/
def Sys2Proof.Claims.CacheControl : Prop :=
  ∀ s gid g c t l,
    let quiet := s.loggedBy gid = false ∧ ∀ o ∈ g.ops, ¬ IsAccess o
    (∀ f : MX, let sh : Shape := { sr := if f.sz.toNat = 2 then [] else span f.base.toNat 2, dc := f.dc.toNat, opc := 0x1F
                                   sz := f.sz.toNat, out := .input }
      Issuable (.cinv f) sh s gid g c t l → ∃ s2 : State, Completes (.cinv f) sh s s2 gid g c {} .none ∧
        (f.sz.toNat = 2 → ∀ x ∈ (s2.core (gid / 128)).l1, x.ctx ≠ t.ctx) ∧
        (f.sz.toNat < 2 → ∀ x ∈ (s2.core (gid / 128)).l1, x.ctx = t.ctx →
          let a := baseReg s g f 0 % 2 ^ 52
          let n := baseReg s g f 1 % 2 ^ 32
          ¬ (x.vline * 128 < a + n ∧ a < x.vline * 128 + 128 ∧ 0 < n)) ∧
        (∀ k, k ≠ gid / 128 → s2.core k = s.core k)) ∧
    (∀ f : CXR, let sh : Shape := { sr := codeS f.p.toNat ++ codeS f.q.toNat, out := .input }
      let a := (uniform s g f.p.toNat f.lit).toNat % 2 ^ 52
      let n := (uniform s g f.q.toNat f.lit).toNat
      Issuable (.tlbinv f) sh s gid g c t l →
      (quiet → ∃ s2 : State, Completes (.tlbinv f) sh s s2 gid g c {} .none ∧
        ∀ k < 48, k = gid / 128 / 8 ∨ f.imm.getLsbD 2 = true → ∀ x ∈ (s2.cluster k).tlb,
          f.imm.toNat % 4 ≠ 3 ∧ (f.imm.toNat % 4 = 2 → x.ctx ≠ t.ctx) ∧
          (f.imm.toNat % 4 = 1 → 0 < n → ¬ (x.ctx = t.ctx ∧ x.va < a + n ∧ a < x.va + x.size)) ∧
          (f.imm.toNat % 4 = 0 → ¬ (x.ctx = t.ctx ∧ x.va ≤ a ∧ a < x.va + x.size))) ∧
      (¬ quiet → Waits (.tlbinv f) s s gid g .other)) ∧
    (∀ f : CXR, let sh : Shape := { sr := codeS f.p.toNat ++ codeS f.q.toNat, out := .input }
      Issuable (.l2wb f) sh s gid g c t l →
      (quiet → Completes (.l2wb f) sh s ((s.fence (gid / 128) t.ctx 4).l2wb (f.imm.getLsbD 0) (f.imm.getLsbD 1) (f.imm.getLsbD 2)
          ((uniform s g f.p.toNat f.lit).toNat % 2 ^ 48) (uniform s g f.q.toNat f.lit).toNat) gid g c {} .none) ∧
      (¬ quiet → Waits (.l2wb f) s s gid g .other)) ∧
    ∀ (u : State) rdc all a n k y, spaceOf (k * 128) = .hbm →
      (all = true ∨ (k * 128 < a + n ∧ a < k * 128 + 128 ∧ 0 < n)) →
      ((u.l2wb false rdc all a n).tower (homeTower (k * 128))).l2.find k = some y → y.dirty = false

/-! ## Copies and batches -/

namespace Sys2Proof.Claims

open Sys2Proof Sys2Proof.Machine

/-- The descriptor scalars of a copy, read once as it issues (R354). -/
def descr (s : State) (g : Group) (f : MX) (n : Nat) : List DWord :=
  (List.range n).map fun k => (g.view s.tick).sreg (f.base.toNat + k)

/-- The bytes that a memory copy moves, from s(B+3) (R355). -/
def boxTotal (w3 : Nat) : Nat := w3 % 2 ^ 24 * (w3 / 2 ^ 24 % 2 ^ 16) * (w3 / 2 ^ 40 % 2 ^ 16)

/-- A memory copy's descriptor that R356 finds malformed; `w` are its scalars. -/
def boxMalformed (k : CopyKind) (nbuf : Nat) (w : Nat → DWord) : Prop :=
  let c := (w 2).toNat
  let es := 2 ^ (c / 2 ^ 37 % 8)
  let cb := c / 2 ^ 36 % 2 = 1
  let pad := k = .g2s ∨ k = .multi
  2 ^ 40 ≤ c ∨ 2 ^ 56 ≤ (w 3).toNat ∨ 4 < c / 2 ^ 37 % 8 ∨ boxTotal (w 3).toNat = 0 ∨ 2097152 < boxTotal (w 3).toNat ∨
  (cb ∧ c % 2 ^ 32 ≠ 0) ∨ ((c / 2 ^ 35 % 2 = 1 ∨ cb) ∧ ¬ pad) ∨
  (w 3).toNat % 2 ^ 24 % es ≠ 0 ∨ (w 4).toInt % (es : Int) ≠ 0 ∨ (w 5).toInt % (es : Int) ≠ 0 ∨ c % 2 ^ 32 % es ≠ 0 ∨
  (k = .mem ∧ (w 1).toNat % es ≠ 0) ∨ (k = .multi ∧ (nbuf ≤ (w 1).toNat ∨ (w 6).toNat = 0 ∨ 256 ≤ (w 6).toNat))

/-- A tensor copy's descriptor that R374 finds malformed, `es` being its tensor's element size. -/
def tboxMalformed (k : CopyKind) (es : Nat) (w : Nat → DWord) : Prop :=
  let c := (w 2).toNat
  let n := (w 4).toNat / 2 ^ 16 % 2 ^ 16 * ((w 4).toNat / 2 ^ 32 % 2 ^ 16) * ((w 4).toNat / 2 ^ 48 % 2 ^ 16)
  2 ^ 32 ≤ (w 0).toNat ∨ 2 ^ 40 ≤ c ∨ c / 2 ^ 37 % 8 ≠ 0 ∨ n = 0 ∨ 2097152 < n * es ∨
  (k = .s2t ∧ (c / 2 ^ 35 % 4 ≠ 0)) ∨ (c / 2 ^ 36 % 2 = 1 ∧ c % 2 ^ 32 ≠ 0) ∨ c % 2 ^ 32 % es ≠ 0

/-- Nothing of a copy of one scratchpad end stands in its way: it issues, enters the engine without a byte landed, and goes
on under its counter, or holds its group until it is complete (R356). The state after its checks is `s2`. -/
def CopyEnters (i : Instr) (f : MX) (opc n total : Nat) (chain : List Byte) (s s2 : State) (gid : Nat) (g : Group) (c : Clause)
    (t : Team) : Prop :=
  let w := (descr s g f n).getD 2 0
  let k := copyKind opc f.sz.toNat
  let count := (s2.copiesOf gid).length + g.entries.length
  (64 ≤ count → Waits i s s2 gid g .copies) ∧
  (count < 64 → w.getLsbD 36 = false →
    ∃ s3 m, s3.copies = s2.copies.put m
        { newCopy gid g.team t.launch t.ctx (gid / 128) opc f.sz.toNat (descr s g f n) chain total 0 c.addr with
          ends := s2.padEnds (gid / 128) g.team t.cores k (descr s g f n)
          bck := if w.getLsbD 35 then some (w.toNat / 2 ^ 32 % 8) else none } ∧
      s3.mem = s2.mem ∧ s3.cores = s2.cores ∧ s3.groups = s2.groups ∧
      (f.dc.toNat < 6 → Completes i (copyShape f opc n) s s3 gid g c {} (.copy m)) ∧
      (f.dc.toNat = 6 → Waits i s s3 gid g .copies)) ∧
  (∀ x y, count < 64 → w.getLsbD 36 = true → k ≠ .multi → k ≠ .mem →
    (s2.core (gid / 128)).bufOf g.team ((descr s g f n).getD 1 0) = some x → x.parked = false → x.circ = some y →
    (s2.core (gid / 128)).bufs.find (handleId ((descr s g f n).getD 1 0)) = some x →
    (y.free = 0 → Waits i s s2 gid g .circ) ∧
    (0 < y.free → (∀ p ∈ s2.groups, p.2.st ≠ .waiting) →
      ∃ s3 m z, s3.copies.find m = some z ∧ z.landed = [] ∧ z.total = total ∧ z.ops = descr s g f n ∧
        z.ends.map (fun q => (q.core, q.off, q.lim, q.slot)) =
          [(gid / 128, 1024 * y.srows * y.wnext, 1024 * y.srows * (y.wnext + 1), some y.wnext)] ∧
        ((s3.core (gid / 128)).bufs.find (handleId ((descr s g f n).getD 1 0))).map (·.circ) = some (some { y with
          free := y.free - 1, wnext := (y.wnext + 1) % y.nslot, claims := y.claims ++ [(y.wnext, false)] }) ∧
        s3.mem = s2.mem ∧
        (f.dc.toNat < 6 → Completes i (copyShape f opc n) s s3 gid g c {} (.copy m)) ∧
        (f.dc.toNat = 6 → Waits i s s3 gid g .copies)))

/-- A piece may begin or end at byte `i`: at either end of the copy, or where neither an element of its global or tensor side
nor an aligned word of a scratchpad side is cut (R239, R362, R375). -/
def CutsAt (s : State) (x : Copy) (i : Nat) : Prop :=
  i = 0 ∨ i = x.total ∨
    (i % s.copyUnit x = 0 ∧ ∀ p ∈ x.ends, (p.off + x.place (i - 1)) / 4 ≠ (p.off + x.place i) / 4)

end Sys2Proof.Claims

/-- R354, R355, R356: the memory copies. A malformed descriptor traps ALIGN with SUB 2, a misaligned global address ALIGN
with SUB 1, a page that the walk refuses its own cause; otherwise the copy issues, or waits for room among its group's 64
or for a slot. With the counter code 6 the group goes on once its copy is complete. -/
def Sys2Proof.Claims.MemoryCopyIssue : Prop :=
  ∀ (f : MX) s gid g c t l,
    let w := fun k => (g.view s.tick).sreg (f.base.toNat + k)
    let box := boxOf (descr s g f 6)
    let priv := cfgPriv g.ctxcfg
    ∀ p ∈ [((.cpg2s f : Instr), 0x2F, 6), (.cps2g f, 0x30, 6), (.cpmc f, 0x31, 7)],
      Issuable p.1 (copyShape f p.2.1 p.2.2) s gid g c t l →
      let k := copyKind p.2.1 f.sz.toNat
      let es := 2 ^ ((w 2).toNat / 2 ^ 37 % 8)
      (g.wait = none → boxMalformed k l.nbuf w → exec p.1 s = .next (trapHere s gid c ⟨0x11, 2, 0, c.active⟩)) ∧
      (g.wait = none → ¬ boxMalformed k l.nbuf w → (w 0).toNat % es ≠ 0 →
        exec p.1 s = .next (trapHere s gid c ⟨0x11, 1, 0, c.active⟩)) ∧
      (g.wait = none → ¬ boxMalformed k l.nbuf w → (w 0).toNat % es = 0 → ∀ r s1, k ≠ .mem →
        s.walkRanges (gid / 128 / 8) t.ctx priv (if k = .s2g then .engineWrite else .engineRead) box.ranges = (r, s1) →
        (∀ q, firstFault r = some q → exec p.1 s = .next (trapHere s1 gid c ⟨q.1, q.2, 0, c.active⟩)) ∧
        (r = [] → CopyEnters p.1 f p.2.1 p.2.2 (boxTotal (w 3).toNat) [] s s1 gid g c t)) ∧
      (g.wait = none → ¬ boxMalformed k l.nbuf w → (w 0).toNat % es = 0 → ∀ s1 s2, k = .mem →
        s.walkRanges (gid / 128 / 8) t.ctx priv .engineRead box.ranges = ([], s1) →
        s1.walkRanges (gid / 128 / 8) t.ctx priv .engineWrite [((w 1).toNat, boxTotal (w 3).toNat)] = ([], s2) →
        CopyEnters p.1 f p.2.1 p.2.2 (boxTotal (w 3).toNat) [] s s2 gid g c t) ∧
      (∀ a b n, g.wait = some ⟨.copies, a, b, n, 1⟩ → f.dc.toNat = 6 →
        (s.copies.find n = none → Completes p.1 (copyShape f p.2.1 p.2.2) s s gid g c {} .none) ∧
        ((s.copies.find n).isSome → Waits p.1 s s gid g .copies))

/-- R364, R374: CPXF reads its chain record as LDG reads it and issues once the record and the source pass; the tensor
copies check their handle and their box, raise TSERR with SUB 1 or 2, and issue. -/
def Sys2Proof.Claims.EngineCopyIssue : Prop :=
  ∀ (f : MX) s gid g c t l, g.wait = none →
    let e := seen s gid g c t l
    let w := fun k => (g.view s.tick).sreg (f.base.toNat + k)
    (Issuable (.cpxf f) (copyShape f 0x32 6) s gid g c t l →
      ((w 3).toNat % 64 ≠ 0 → exec (.cpxf f) s = .next (trapHere s gid c ⟨0x11, 2, 0, c.active⟩)) ∧
      (∀ ps s1, (w 3).toNat % 64 = 0 → s.loadsOf gid = [] →
        Granted s e .load (.load 64) false 64 [(0, (w 3).toNat), (1, ((w 3).toNat + 64) % 2 ^ 64)] ps s1 →
        let rd := s1.readLanes e 64 [] readLdg ps
        let chain := bytesOf rd.1 0 ++ bytesOf rd.1 1
        let x := xformOf chain (w 0).toNat (w 4).toNat (w 5).toNat (gid / 128 / 96)
        let chk := rd.2.checkXform (gid / 128 / 8) t.ctx (cfgPriv g.ctxcfg) (ctlOf (w 2)) x
        (x.malformed = true → exec (.cpxf f) s = .next (trapHere rd.2 gid c ⟨0x11, 2, 0, c.active⟩)) ∧
        (chk.1 = .ok → CopyEnters (.cpxf f) f 0x32 6 x.outBytes chain s chk.2 gid g c t))) ∧
    ∀ p ∈ [((.cpt2s f : Instr), 0x33), (.cps2t f, 0x34)], Issuable p.1 (copyShape f p.2 5) s gid g c t l →
      let k := copyKind p.2 f.sz.toNat
      let x := (s.ctx t.ctx).tensorOf (w 0).toNat
      let at_ := fun n => if n < 4 then (w 3).toNat / 2 ^ (16 * n) % 2 ^ 16 else (w 4).toNat % 2 ^ 16
      let ext := fun n => if n < 3 then (w 4).toNat / 2 ^ (16 * (n + 1)) % 2 ^ 16 else 1
      (tboxMalformed k ((x.map (·.esz)).getD 1) w → exec p.1 s = .next (trapHere s gid c ⟨0x11, 2, 0, c.active⟩)) ∧
      (¬ tboxMalformed k ((x.map (·.esz)).getD 1) w →
        (x = none → exec p.1 s = .next (trapHere s gid c ⟨0x17, 1, 0, c.active⟩)) ∧
        (∀ y n, x = some y → n < 5 → y.dim n < at_ n + ext n →
          exec p.1 s = .next (trapHere s gid c ⟨0x17, 2, 0, c.active⟩)) ∧
        (∀ y, x = some y → (∀ n < 5, at_ n + ext n ≤ y.dim n) →
          (∀ q, q.kind = .tsBank → s.bankGone q = false) →
          CopyEnters p.1 f p.2 5 (ext 0 * ext 1 * ext 2 * y.esz) [] s s gid g c t))

/-- R235, R239, R357, R359, R362, R369, R375: a piece of a copy lands once its bytes can be read and written: its interval
stands landed, and a piece that overlaps what has landed, or that would cut an element or an aligned word, changes nothing. A copy all of whose bytes have landed ends: it leaves the engine, and a
group's counter falls. Landed slots that no earlier claim holds up are filled. -/
def Sys2Proof.Claims.CopyProgress : Prop :=
  (∀ (s : State) x, s.copies.find s.arg.a = some x →
    let lo := s.arg.b
    let n := s.arg.c
    ((n = 0 ∨ x.total < lo + n ∨ (∃ p ∈ x.landed, 0 < p.2 ∧ p.1 < lo + n ∧ lo < p.1 + p.2) ∨ ¬ CutsAt s x lo ∨
      ¬ CutsAt s x (lo + n)) → exec .copyPieceLanded s = .next s) ∧
    (∀ l s1 s2 s3, 0 < n → lo + n ≤ x.total → (∀ p ∈ x.landed, ¬ (p.1 < lo + n ∧ lo < p.1 + p.2)) →
      CutsAt s x lo → CutsAt s x (lo + n) →
      s.piece s.arg.a x lo n = (some l, s1) → s1.putPiece .copyWrite s.arg.a 3 x l = (some s2, s3) →
      (x.failed = [] → l.map (·.1) = (List.range n).map (lo + ·)) ∧
      ∃ u, exec .copyPieceLanded s = .next u ∧ u.mem = s2.mem ∧ u.groups = s2.groups ∧ u.peers = s2.peers ∧
        (s2.copies = s.copies → u.copies.find s.arg.a = some { x with landed := (lo, n) :: x.landed }))) ∧
  (∀ (s : State) x, s.copies.find s.arg.a = some x → x.total ≤ (x.landed.map (·.2)).sum →
    (∀ p ∈ s.peers, ¬ (p.2.kind = .copyWrite ∧ p.2.owner = s.arg.a)) → ∃ u, exec .copyComplete s = .next u ∧ u.mem = s.mem ∧
      (x.prologue = false → (s.copies.map (·.1)).Nodup → u.copies.find s.arg.a = none ∧
        ∀ g o t, s.groups.find x.gid = some g → s.teams.find x.team = some t → t.st = .running →
          g.ops.find? (fun o => o.act == .copy s.arg.a) = some o →
          ∃ h, u.groups.find x.gid = some h ∧ h.dc o.dc = g.dc o.dc - 1 ∧ (∀ k, k ≠ o.dc → h.dc k = g.dc k) ∧
            h.ops = g.ops.filter fun p => p.id != o.id)) ∧
  (∀ s : State, ∃ u, exec .slotLanded s = .next u ∧ u.mem = s.mem ∧ u.groups = s.groups ∧ u.copies = s.copies ∧
    ∀ b y, (s.core s.arg.a).bufs.find s.arg.b = some b → b.circ = some y → ∃ b' y',
      (u.core s.arg.a).bufs.find s.arg.b = some b' ∧ b'.circ = some y' ∧
      y'.claims = y.claims.dropWhile (·.2) ∧ y'.filled = y.filled + (y.claims.takeWhile (·.2)).length ∧ y'.free = y.free ∧
      y'.held = y.held)

/-- R341, R360, R361: CSEAL gives its batch the number max(TIME, previous + 1), names it to every copy of the open batch and
answers it; CWAIT goes on once the copies of the batches up to its number are complete, and the core then holds no stale line
of their destinations. BCARM raises TARGET and refuses 2^40 or more; BCWAIT goes on once LANDED has reached TARGET. -/
def Sys2Proof.Claims.BatchesAndByteCounters : Prop :=
  ∀ s gid g c t l,
    (∀ f : MX, let sh : Shape := { sw := [f.base.toNat], opc := 0x35, out := .input }
      Issuable (.cseal f) sh s gid g c t l →
      let n := max s.time (g.batch + 1)
      ∃ s2 : State, Completes (.cseal f) sh s s2 gid { g with batch := n, ops := g.ops.map (Op.join n) } c
          { sw := [(f.base.toNat, BitVec.ofNat 64 n)] } .none ∧
        s2.mem = s.mem ∧ s2.cores = s.cores ∧
        ∀ k x, s.copies.find k = some x → s2.copies.find k = some
          (if x.gid = gid ∧ x.prologue = false ∧ x.batch = 0 then { x with batch := n } else x)) ∧
    (∀ f : MX, let sh : Shape := { sr := [f.base.toNat], dc := f.dc.toNat, opc := 0x36, out := .input }
      Issuable (.cwait f) sh s gid g c t l →
      let n := baseReg s g f 0
      let open_ := (∃ p ∈ s.copies, p.2.gid = gid ∧ p.2.prologue = false ∧ p.2.batch ≠ 0 ∧ p.2.batch ≤ n) ∨
        ∃ x ∈ g.entries, entryBatch x ≠ 0 ∧ entryBatch x ≤ n
      (f.dc.toNat < 6 → g.ops.length < 16 → Completes (.cwait f) sh s s gid g c {} (.cwait n)) ∧
      (f.dc.toNat = 6 → open_ → Waits (.cwait f) s s gid g .copies) ∧
      (f.dc.toNat = 6 → ¬ open_ →
        let s2 := s.cwaited gid g.team n
        Completes (.cwait f) sh s s2 gid g c {} .none ∧
        ∀ d ∈ t.dests, d.1 = g.num → d.2.1 ≠ 0 → d.2.1 ≤ n →
          (∀ x ∈ (s2.core (gid / 128)).l1, x.ctx = t.ctx → 0 < d.2.2.2 → d.2.2.1 < x.vline * 128 + 128 →
            x.vline * 128 < d.2.2.1 + d.2.2.2 →
            x.line.dirty = 0 ∧ (x.sealed = true ∨ s.sealedAt t.ctx (x.vline * 128) 128 = true)) ∧
          ∃ u, s2.teams.find g.team = some u ∧ u.dests = t.dests ∧
            ∀ b < 4, ⟨b, d.1, false, d.2.2.1, d.2.2.2⟩ ∈ u.fresh)) ∧
    (∀ f : CXR, Issuable (.bcarm f) { sr := codeS f.p.toNat, out := .input } s gid g c t l →
      let n := (uniform s g f.p.toNat f.lit).toNat
      let k := f.imm.toNat % 8
      (2 ^ 40 ≤ n → 64 ≤ f.p.toNat → exec (.bcarm f) s = .next (trapHere s gid c ⟨0x31, 5, 0, c.active⟩)) ∧
      (n < 2 ^ 40 → 64 ≤ f.p.toNat → ∃ s2 u, Completes (.bcarm f) { sr := codeS f.p.toNat, out := .input } s s2 gid g c {} .none ∧
        s2.mem = s.mem ∧ s2.cores = s.cores ∧ s2.groups = s.groups ∧ s2.teams.find g.team = some u ∧
        u.bc g.tcore k = ((t.bc g.tcore k).1, ((t.bc g.tcore k).2 + n) % 2 ^ 64) ∧
        ∀ j m, 8 * j + m ≠ 8 * g.tcore + k → u.bc j m = t.bc j m)) ∧
    (∀ f : CXR, Issuable (.bcwait f) { out := .input } s gid g c t l → g.wait = none →
      let x := t.bc g.tcore (f.imm.toNat % 8)
      (x.2 ≤ x.1 → Completes (.bcwait f) { out := .input } s s gid g c {} .none) ∧
      (x.1 < x.2 → Waits (.bcwait f) s s gid g .bcwait))

/-! ## Barriers, reductions, signals, queues and tasks -/

namespace Sys2Proof.Claims

open Sys2Proof Sys2Proof.Machine

/-- The fixed tree over 2^n leaves: x[i] := op(x[2i], x[2i + 1]), level by level (R343). -/
def reduceTree (op : Word → Word → Word) : Nat → (Nat → Word) → Word
  | 0, x => x 0
  | n + 1, x => reduceTree op n fun k => op (x (2 * k)) (x (2 * k + 1))

/-- Both states agree outside the groups, the teams and the cores' bookkeeping, and in the cores. -/
def TeamOnly (s t : State) : Prop := SameOutside { s with teams := t.teams } t ∧ t.cores = s.cores

/-- The 8-byte word at a home address. -/
def wordAt (s : State) (q : Nat) : Nat := ofBytes (Mem.getBytes s.mem q 8)

/-- An address of plain memory whose home serves its line, and it at `q`: an aligned word without a poison mark that is no
entry of a frame table, and the slices have room. -/
def AtHome (s : State) (pa q : Nat) : Prop :=
  s.home 8 pa = .here q ∧ s.home 8 (pa / 128 * 128) = .here (q / 128 * 128) ∧ spaceOf pa = .hbm ∧ spaceOf q = .hbm ∧
    q % 8 = 0 ∧ q % 128 = pa % 128 ∧ s.poisoned q = false ∧ (∀ j < 8, s.tableByte (q + j) = none) ∧ Roomy s

/-- The `k`-th probe of a stage queue's items finds its item at home, at `h`. -/
def ItemAt (s : State) (ps : List Probe) (k h : Nat) : Prop := ∃ p pa x, ps[k]? = some p ∧ p.chk = .ok pa x ∧ AtHome s pa h

/-- The checks of one address find it translated, permitted and outside the link apertures. -/
def OneGranted (s : State) (e : Env) (k : AccKind) (acc : LinkAcc) (posted : Bool) (n : Nat) (at_ : Nat × Nat) (pa : Nat)
    (s1 : State) : Prop :=
  ∃ ln x, s.probe e k acc posted n [at_] = ([⟨ln, at_.2, .ok pa x⟩], s1) ∧ spaceOf pa ≠ .link ∧ s.loadsOf e.gid = []

/-- The active lanes in ascending order. -/
def activeLanes (c : Clause) : List Nat := (List.range 32).filter fun n => inMask c.active n

/-- Whether a signal compares to a value under a condition, both signed (R345). -/
def signalMeets (cond : Nat) (m v : Int) : Prop :=
  (cond = 0 ∧ m ≤ v) ∨ (cond = 1 ∧ v ≤ m) ∨ (cond = 2 ∧ m = v) ∨ (cond = 3 ∧ m ≠ v)

end Sys2Proof.Claims

/-- R337 to R339: the team barriers. In handler mode they trap BARX with SUB 3. BAR and BARA make a group that has not arrived
arrive, and the team's count goes up; BAR then waits, and goes on once the barrier has passed it; BARW waits for one that
arrived and goes on once it has passed; every other use traps BARX. The release comes when all that are expected have
arrived: the count falls to zero, the phase turns, every group that arrived has passed, and no core of the team keeps a
stale line of the batches' destinations. -/
def Sys2Proof.Claims.TeamBarriers : Prop :=
  (∀ (f : CXR) s gid g c t l, t.bars.length = 4 → g.bars.length = 4 →
    let b := f.imm.toNat % 4
    let x := g.bars.getD b .none
    let at_ := g.again = true ∨ g.wait.map (·.kind) = some (.barrier b)
    let arrives := fun u : State => ∃ t', u.teams.find g.team = some t' ∧ (t'.bar b).arr = (t.bar b).arr + 1 ∧
      (t'.bar b).exp = (t.bar b).exp ∧ (t'.bar b).ph = (t.bar b).ph ∧ (∀ k, k ≠ b → t'.bar k = t.bar k) ∧
      t'.fresh = t.fresh.map fun r => if r.bar = b ∧ r.group = g.num then { r with arrived := true } else r
    let put := fun y : BarSt => ({ g with bars := listSet g.bars b y } : Group)
    (∀ i ∈ [(.bar f : Instr), .bara f, .barw f], Issuable i { out := .input } s gid g c t l → g.hmode = true →
      exec i s = .next (trapHere s gid c ⟨0x31, 3, 0, c.active⟩)) ∧
    (Issuable (.bar f) { out := .input } s gid g c t l → g.hmode = false →
      (x = .none → ∃ u h, exec (.bar f) s = .next u ∧ TeamOnly s u ∧ arrives u ∧ u.groups.find gid = some h ∧
        h.st = .waiting ∧ h.wait.map (·.kind) = some (.barrier b) ∧ h.bars.getD b .none = .arrived ∧ h.clause = g.clause) ∧
      (x = .arrived → at_ → Waits (.bar f) s s gid g (.barrier b)) ∧
      (x = .passed → at_ → ∃ s2, TeamOnly s s2 ∧ s2.teams = s.teams ∧
        Completes (.bar f) { out := .input } s s2 gid (put .none) c {} .none) ∧
      (x ≠ .none → ¬ at_ → exec (.bar f) s = .next (trapHere s gid c ⟨0x31, 2, 0, c.active⟩))) ∧
    (Issuable (.bara f) { out := .input } s gid g c t l → g.hmode = false →
      (x = .none → ∃ s2, TeamOnly s s2 ∧ arrives s2 ∧
        Completes (.bara f) { out := .input } s s2 gid (put .arrived) c {} .none) ∧
      (x ≠ .none → exec (.bara f) s = .next (trapHere s gid c ⟨0x31, 2, 0, c.active⟩))) ∧
    (Issuable (.barw f) { out := .input } s gid g c t l → g.hmode = false →
      (x = .none → exec (.barw f) s = .next (trapHere s gid c ⟨0x31, 1, 0, c.active⟩)) ∧
      (x = .arrived → Waits (.barw f) s s gid g (.barrier b)) ∧
      (x = .passed → ∃ s2, TeamOnly s s2 ∧ s2.teams = s.teams ∧
        Completes (.barw f) { out := .input } s s2 gid (put .none) c {} .none))) ∧
  ∀ (s : State) t, s.teams.find s.arg.a = some t →
    let b := s.arg.b
    ((t.bar b).arr ≠ (t.bar b).exp → exec .barrierRelease s = .next s) ∧
    (t.onCores = true → (t.bar b).arr = (t.bar b).exp → 0 < (t.bar b).arr →
      ∃ u t', exec .barrierRelease s = .next u ∧ u.teams.find s.arg.a = some t' ∧
        (t'.bar b).arr = 0 ∧ (t'.bar b).ph = ! (t.bar b).ph ∧ (t'.bar b).exp = (t.bar b).exp ∧
        t'.fresh = t.fresh.filter (fun r => ! (r.bar == b && r.arrived)) ∧
        (∀ k g, s.groups.find k = some g → u.groups.find k = some
          (if g.team = s.arg.a ∧ g.bars.getD b .none = .arrived then { g with bars := listSet g.bars b .passed } else g)) ∧
        ∀ k ∈ t.cores, ∀ x ∈ (u.core k).l1, x.ctx = t.ctx → ∀ r ∈ t.fresh, r.bar = b → r.arrived = true →
          0 < r.len → r.base < x.vline * 128 + 128 → x.vline * 128 < r.base + r.len → x.sealed = true ∨ s.sealedAt t.ctx (x.vline * 128) 128 = true)

/-- R342, R343: TREDUCE joins its team's next reduction and holds its group until the release; in handler mode it traps BARX
with SUB 3. The release, once every group has joined, gives every joined group's active lanes the value of the fixed tree
over the team's size, groups and lanes that do not take part giving the identity, whatever the order in which they joined,
and the groups go on; different operation codes trap every joined group. -/
def Sys2Proof.Claims.TeamReduction : Prop :=
  (∀ (f : CXR) s gid g c t l,
    let sh : Shape := { vr := [f.p.toNat], vw := [f.q.toNat], out := .input }
    Issuable (.treduce f) sh s gid g c t l →
    (g.hmode = true → exec (.treduce f) s = .next (trapHere s gid c ⟨0x31, 3, 0, c.active⟩)) ∧
    (g.hmode = false → Waits (.treduce f) s s gid g .treduce)) ∧
  ∀ (s : State) t l, s.teams.find s.arg.a = some t → s.launches.find t.launch = some l → l.redundant = false →
    t.onCores = true → (s.groups.map (·.1)).Nodup →
    let js := s.joined s.arg.a
    let size := field l.desc 0x10 2
    js ≠ [] → js.length = ((s.groupsOf s.arg.a).filter fun p => ! p.2.shadow).length →
    (∀ op r n, reductions[op]? = some r → (∀ j ∈ js, j.f.imm.toNat % 16 = op) → size ≤ 2 ^ n → n = 0 ∨ 2 ^ (n - 1) < size →
      ∃ u, exec .treduceRelease s = .next u ∧ u.mem = s.mem ∧ ∀ j ∈ js, ∀ g, s.groups.find j.gid = some g →
        PastInstr u j.gid g j.clause (encode (.treduce j.f)).length ∧
        ∀ m < 32, lane (u.vregOf j.gid j.f.q.toNat) m =
          if inMask j.clause.active m then
            reduceTree r.2 n fun k => match js.find? fun y => y.num == k && decide (k < size) && inMask y.clause.active m with
              | some y => lane y.src m
              | none => r.1
          else lane (g.vreg j.f.q.toNat) m) ∧
    (∀ j ∈ js, ∀ k ∈ js, j.f.imm.toNat % 16 ≠ k.f.imm.toNat % 16 →
      exec .treduceRelease s = .next (js.foldl (fun s y =>
        trapHere s y.gid y.clause ⟨0x31, 4, 0, y.clause.active⟩) s))

/-- R345: SIGADD adds s(B+1) to its signal at home, after a fence of system scope, now or under its counter. SIGWAIT answers
the value that meets its condition, after which it acts as such a fence, or waits; with a counter it goes on at once. -/
def Obligations.SignalResult : Prop :=
  (∀ (f : MX) s gid g c t l pa s1,
    let e := seen s gid g c t l
    let va := baseReg s g f 0
    let v := (g.view s.tick).sreg (f.base.toNat + 1)
    let sha : Shape := { sr := span f.base.toNat 2, dc := f.dc.toNat, opc := 0x38, sz := f.sz.toNat, out := .output }
    let shw : Shape := { sr := span f.base.toNat 2, sw := [f.base.toNat + 2], dc := f.dc.toNat, opc := 0x39
                         sz := f.sz.toNat, out := .input }
    (Issuable (.sigadd f) sha s gid g c t l → OneGranted s e .atomic .atomic true 8 (lowLane c.active, va) pa s1 →
      s1.reserveHolds pa = false → g.reserved = false → g.postedAdd = none →
      let ready := s1.fenceReady gid 5 g.ops = true
      (f.dc.toNat < 6 → Completes (.sigadd f) sha s (s1.notSafe g.team) gid g c {} (.sigadd va v)) ∧
      (f.dc.toNat = 6 → ¬ ready → Waits (.sigadd f) s s1 gid g .other) ∧
      (f.dc.toNat = 6 → ready → ∃ s2, Completes (.sigadd f) sha s s2 gid g c {} .none ∧
        ∀ q, let b := (s1.fence (gid / 128) t.ctx 5).expel (gid / 128) pa
          AtHome b pa q → Memory.wf b.mem = true → wordAt s2 q = (wordAt b q + v.toNat) % 2 ^ 64)) ∧
    (Issuable (.sigwait f) shw s gid g c t l → OneGranted s e .load (.load 8) false 8 (lowLane c.active, va) pa s1 →
      let m := (s1.homeWord t.launch pa).1
      let s2 := (s1.homeWord t.launch pa).2
      let met := signalMeets f.sz.toNat (BitVec.ofNat 64 m).toInt v.toInt ∧ s2.fenceReady gid 5 g.ops = true
      (f.dc.toNat < 6 → g.ops.length < 16 →
        Completes (.sigwait f) shw s s1 gid g c { sw := [(f.base.toNat + 2, 0)] } (.sigwait va v f.sz.toNat (f.base.toNat + 2))) ∧
      (f.dc.toNat = 6 → met → Completes (.sigwait f) shw s (s2.fence (gid / 128) t.ctx 5) gid g c
        { sw := [(f.base.toNat + 2, BitVec.ofNat 64 m)] } .none) ∧
      (f.dc.toNat = 6 → ¬ met → Waits (.sigwait f) s s2 gid g .signal))) ∧
  ∀ (s : State) launch pa q, AtHome s pa q → (s.homeWord launch pa).1 = wordAt s q

/-- R149, R151: SQADD and SQTAKE with no more active lanes than the queue has room for at all. SQADD waits for room, then
writes the lanes' items in ascending order behind those in the queue and raises ADDC. SQTAKE waits for the items or for
CLOSED, delivers them in ascending order, all ones where there are none left, and raises TAKEC. -/
def Sys2Proof.Claims.StageQueues : Prop :=
  ∀ (f : MX) s gid g c t l pa s1,
    let e := seen s gid g c t l
    let at_ := (lowLane c.active, baseReg s g f 0)
    let d := f.data.toNat
    let ls := activeLanes c
    let sha : Shape := { vr := span d 2, sr := [f.base.toNat], opc := 0x3A, out := .output }
    let sht : Shape := { sr := [f.base.toNat], vw := span d 2, opc := 0x3B, out := .input }
    g.pidx = 0 → OneGranted s e .atomic .atomic true 128 at_ pa s1 → spaceOf pa = .hbm →
    (Issuable (.sqadd f) sha s gid g c t l → s1.fenceReady gid 4 g.ops = true →
      let b := (s1.fence (gid / 128) t.ctx 4).sqBlock t.launch pa
      ls.length ≤ b.1.cap →
      (b.1.cap < b.1.addc - b.1.takec + ls.length → Waits (.sqadd f) s b.2 gid g .stageQueue) ∧
      (∀ ps s4 q (h : Nat → Nat), b.1.addc - b.1.takec + ls.length ≤ b.1.cap →
        b.2.sqItems e .store .store true ((List.range ls.length).map fun k => b.1.ring + 8 * ((b.1.addc + k) % b.1.cap)) = (.open, ps, s4) →
        Memory.wf s4.mem = true → AtHome s4 (pa + 16) q →
        (∀ k < ls.length, ItemAt s4 ps k (h k) ∧ h k ≠ q ∧ ∀ j < ls.length, j ≠ k → h j ≠ h k) →
        ∃ s5, Completes (.sqadd f) sha s s5 gid g c {} .none ∧ wordAt s5 q = (b.1.addc + ls.length) % 2 ^ 64 ∧
          ∀ k < ls.length, wordAt s5 (h k) = (pairAt s g d (ls.getD k 0)).toNat)) ∧
    (Issuable (.sqtake f) sht s gid g c t l →
      let b := s1.sqBlock t.launch pa
      let fill := b.1.addc - b.1.takec
      let n := min ls.length fill
      ls.length ≤ b.1.cap →
      (fill < ls.length → b.1.closed = false → Waits (.sqtake f) s b.2 gid g .stageQueue) ∧
      (∀ ps s4 q (h : Nat → Nat), ls.length ≤ fill ∨ b.1.closed = true →
        b.2.sqItems e .load (.load 8) false ((List.range n).map fun k => b.1.ring + 8 * ((b.1.takec + k) % b.1.cap)) = (.open, ps, s4) →
        Memory.wf s4.mem = true → AtHome s4 (pa + 24) q →
        (∀ k < n, ItemAt s4 ps k (h k) ∧ h k ≠ q) → c.active ≠ 0 →
        ∃ (s5 : State) (val : Nat → DWord), Completes (.sqtake f) sht s s5 gid g c
            { vw := [(d, rowOf fun m => (val m).setWidth 32, c.active), (d + 1, rowOf fun m => (val m >>> 32).setWidth 32, c.active)] }
            .none ∧
          (∀ k < ls.length, (val (ls.getD k 0)).toNat = if k < n then wordAt s4 (h k) else 2 ^ 64 - 1) ∧
          ((s4.core (gid / 128)).l1 = [] → wordAt s5 q = (b.1.takec + n) % 2 ^ 64) ∧
          (∀ x ∈ (s5.core (gid / 128)).l1, x.ctx = t.ctx →
            x.sealed = true ∨ s.sealedAt t.ctx (x.vline * 128) 128 = true)))

/-- R152, R153: LAUNCH copies its record into the ring at TAIL and raises TAIL, after a fence of system scope and once there
is room; a control block that names no ring traps ALIGN with SUB 2. CANCEL sets bit 0 of CTRL. -/
def Sys2Proof.Claims.LaunchAndCancel : Prop :=
  ∀ (f : CXR) s gid g c t l,
    let e := seen s gid g c t l
    let qa := (uniform s g f.p.toNat none).toNat
    let ra := (uniform s g f.q.toNat none).toNat
    let shl : Shape := { sr := codeS f.p.toNat ++ codeS f.q.toNat, out := .output }
    let shc : Shape := { sr := codeS f.p.toNat, out := .output }
    (∀ pa s1 rp y s2, Issuable (.launch f) shl s gid g c t l →
      OneGranted s e .atomic .atomic false 128 (lowLane c.active, qa) pa s1 →
      s1.probe e .load (.load 64) false 64 [(32, ra)] = ([⟨32, ra, .ok rp y⟩], s2) → spaceOf rp ≠ .link →
      let b := s2.readQcb pa
      let room := (b.1.tail + 2 ^ 64 - b.1.head) % 2 ^ 64 < 2 ^ b.1.logsz
      (b.1.logsz < 4 ∨ 16 < b.1.logsz → exec (.launch f) s = .next (trapHere b.2 gid c ⟨0x11, 2, 0, c.active⟩)) ∧
      (4 ≤ b.1.logsz → b.1.logsz ≤ 16 →
        (b.2.fenceReady gid 5 g.ops = false ∨ ¬ room → Waits (.launch f) s b.2 gid g .other) ∧
        (∀ wp s6 q h, b.2.fenceReady gid 5 g.ops = true → room →
          let rd := (b.2.fence (gid / 128) t.ctx 5).readLanes e 64 [] readLdg [⟨32, ra, .ok rp y⟩]
          OneGranted rd.2 e .store .store false 64 (lowLane c.active, b.1.ring + 64 * (b.1.tail % 2 ^ b.1.logsz)) wp s6 →
          Memory.wf s6.mem = true → AtHome s6 pa q → s6.home 8 (wp / 128 * 128) = .here (h / 128 * 128) → s6.home 8 wp = .here h →
          spaceOf h = .hbm → spaceOf wp = .hbm → h % 64 = 0 → h % 128 = wp % 128 → h / 128 ≠ q / 128 →
          ∃ s7, Completes (.launch f) shl s s7 gid g c {} .none ∧ wordAt s7 q = (b.1.tail + 1) % 2 ^ 64 ∧
            Mem.getBytes s7.mem h 64 = sliceBytes (bytesOf rd.1 32) 0 64))) ∧
    (∀ pa s1, Issuable (.cancel f) shc s gid g c t l →
      OneGranted s e .atomic .atomic true 32 (lowLane c.active, qa) pa s1 →
      s1.reserveHolds pa = false → g.reserved = false →
      ∃ s2, Completes (.cancel f) shc s s2 gid g c {} .none ∧
        ∀ q, let b := (s1.notSafe g.team).expel (gid / 128) pa
          AtHome b (pa + 16) q → Memory.wf b.mem = true → wordAt s2 q = wordAt b q ||| 1)

/-- R391, R409, R411: TTQ needs a task queue of its context on its cluster, or traps ALIGN with SUB 3; with a counter it goes
on at once; else it waits for its group's earlier work and for room, appends the 16 words of vS, STATUS being zero, as a
QUEUED task, and raises TAIL; TTQ.mem does so with the 64 bytes at its address. RDCONT delivers the two containment words,
and clears them if its bit 0 says so. FLTINJ traps ALIGN on a nonzero zero field (SUB 2) or a channel that is not used
(SUB 4), drops the arm, or arms it. -/
def Obligations.TaskInstructions : Prop :=
  ∀ s gid g c t l,
    let cl := gid / 128 / 8
    let noQueue := ∀ p ∈ (s.cluster cl).queues, p.2.ctx ≠ t.ctx
    let record := fun d => (List.range 16).flatMap fun w => toBytes 4 (lane ((g.view s.tick).vreg d) w).toNat
    let quiet := s.fenceReady gid 4 g.ops = true ∧ ∀ o ∈ g.ops, ∀ n, o.act ≠ .copy n
    (∀ f : MX, let sh : Shape := { vr := [f.data.toNat], dc := f.dc.toNat, opc := 0x37, sz := f.sz.toNat
                                   lanes := fun _ _ _ => 0xFFFF, out := .output }
      Issuable (.ttq f) sh s gid g c t l →
      (noQueue → exec (.ttq f) s = .next (trapHere s gid c ⟨0x11, 3, 0, c.active⟩)) ∧
      (¬ noQueue → f.dc.toNat < 6 → g.ops.length < 16 → Completes (.ttq f) sh s s gid g c {} (.ttq (record f.data.toNat))) ∧
      (¬ noQueue → f.dc.toNat = 6 → ¬ quiet → Waits (.ttq f) s s gid g .other) ∧
      (∀ n q pa s1, f.dc.toNat = 6 → quiet → s.queueFor cl t.ctx = some (n, q) →
        let b := s.fence (gid / 128) t.ctx 4
        b.queueFor cl t.ctx = some (n, q) → q.tail - q.headNow < 2 ^ q.logsz →
        b.ringPlace cl t.ctx (q.ring + 64 * (q.tail % 2 ^ q.logsz)) = (some pa, s1) →
        (s1.cluster cl).queues.find n = some q →
        ∃ s2 z, Completes (.ttq f) sh s s2 gid g c {} .none ∧
          (s2.cluster cl).queues.find n = some z ∧ z.tail = q.tail + 1 ∧
          z.tasks = q.tasks ++
            [newTask q.tail g.team t.launch ((record f.data.toNat).take 56 ++ List.replicate 8 0)] ∧
          ∀ k, k ≠ cl → s2.cluster k = s1.cluster k)) ∧
    (∀ (f : MX) pa s1, let sh : Shape := { sr := [f.base.toNat], dc := f.dc.toNat, opc := 0x37, sz := f.sz.toNat, out := .output }
      let va := baseReg s g f 0
      Issuable (.ttqMem f) sh s gid g c t l → OneGranted s (seen s gid g c t l) .load (.load 64) false 64 (lowLane c.active, va) pa s1 →
      (s1.queueFor cl t.ctx = none → exec (.ttqMem f) s = .next (trapHere s1 gid c ⟨0x11, 3, 0, c.active⟩)) ∧
      ((s1.queueFor cl t.ctx).isSome → f.dc.toNat < 6 → g.ops.length < 16 → Completes (.ttqMem f) sh s s1 gid g c {} (.ttqMem va)) ∧
      (∀ bs s2 s3 s4, (s1.queueFor cl t.ctx).isSome → f.dc.toNat = 6 → s1.ttqReady gid g.ops = true →
        (s1.fence (gid / 128) t.ctx 4).ttqRead (gid / 128) t.ctx t.launch va (cfgPriv g.ctxcfg) = (some bs, s2) →
        s2.appendTask cl t.ctx g.team t.launch bs = (some s3, s4) →
        Completes (.ttqMem f) sh s s3 gid g c {} .none)) ∧
    (∀ f : CXR, let sh : Shape := { sw := span (f.p.toNat - 64) 2, out := .input }
      Issuable (.rdcont f) sh s gid g c t l → ∃ s2 : State, Completes (.rdcont f) sh s s2 gid g c
          { sw := [(f.p.toNat - 64, (s.cluster cl).contain0), (f.p.toNat - 64 + 1, (s.cluster cl).contain1)] } .none ∧
        s2.mem = s.mem ∧ s2.cores = s.cores ∧ (∀ k, k ≠ cl → s2.cluster k = s.cluster k) ∧
        (f.imm.getLsbD 0 = false → s2 = s) ∧
        (f.imm.getLsbD 0 = true → (s2.cluster cl).contain0 = 0 ∧ (s2.cluster cl).contain1 = 0)) ∧
    (∀ f : CXR, let sh : Shape := { sr := [f.p.toNat - 64], out := .output }
      Issuable (.fltinj f) sh s gid g c t l →
      let v := ((g.view s.tick).sreg (f.p.toNat - 64)).toNat
      let zero := v / 2 ^ 3 % 2 = 0 ∧ v / 2 ^ 6 % 4 = 0 ∧ v / 2 ^ 27 % 32 = 0 ∧ v / 2 ^ 40 % 2 ^ 23 = 0
      let arms := fun (a : Option Arm) => ∃ s2 : State, Completes (.fltinj f) sh s s2 gid g c {} .none ∧ s2.mem = s.mem ∧
        s2.cores = s.cores ∧ (s2.cluster cl).arm = a ∧ ∀ k, k ≠ cl → s2.cluster k = s.cluster k
      (¬ zero → exec (.fltinj f) s = .next (trapHere s gid c ⟨0x11, 2, 0, c.active⟩)) ∧
      (zero → v < 2 ^ 63 → arms none) ∧
      (zero → 2 ^ 63 ≤ v → (s.taskRun cl t.ctx).mods.length ≤ v / 2 ^ 24 % 8 →
        exec (.fltinj f) s = .next (trapHere s gid c ⟨0x11, 4, 0, c.active⟩)) ∧
      (zero → 2 ^ 63 ≤ v → v / 2 ^ 24 % 8 < (s.taskRun cl t.ctx).mods.length →
        arms (some { eng := v % 8, slot := v / 2 ^ 4 % 4, row := v / 2 ^ 8 % 256, col := v / 2 ^ 16 % 256
                     chan := v / 2 ^ 24 % 8, value := BitVec.ofNat 8 (v / 2 ^ 32 % 256), ctx := t.ctx })))

/-! ## Atomics of the scratchpad, CKPT, and the events of groups -/

namespace Sys2Proof.Claims

open Sys2Proof Sys2Proof.Machine

/-- Group `gid` has recorded a SHADOW trap and stands in its handler (R120). -/
def InShadowTrap (u : State) (gid : Nat) (g : Group) (handler : Word) : Prop :=
  ∃ h, u.groups.find gid = some h ∧ h.hmode = true ∧ h.heldOp = none ∧ h.shq = [] ∧
    h.cause = causeWord 0x40 0 0 ((g.clause.map (·.active)).getD g.active) ∧
    (h.spcv = rowOf fun n => if lane g.pcv n = exitPc then exitPc else lane g.rev n) ∧
    (h.pcv = rowOf fun n => if (if lane g.pcv n = exitPc then exitPc else lane g.rev n) = exitPc then exitPc else handler) ∧
    h.sregs = g.sregs ∧ h.rows = g.rows

end Sys2Proof.Claims

/-- R311 to R315: an atomic of the scratchpad. A cause in a lane traps the instruction with nothing accessed; otherwise the
lanes are performed in ascending order and deliver their old values unless the form is RED. One lane reads its location,
replaces it by the operation's value and answers the old value. -/
def Sys2Proof.Claims.ScratchAtomicResult : Prop :=
  (∀ i f op fn s gid g c t l, atomicOf i = some (f, op, fn) → f.sz.getLsbD 1 = true →
    let k := atomBytes f / 4
    let n := atomBytes f
    let sh : Shape := { vr := f.off.toNat % 32 :: span f.data.toNat (if op = 0x12 then 2 * k else k), sr := [f.base.toNat]
                        vw := if f.off.getLsbD 5 then [] else span f.data.toNat k, dc := f.dc.toNat, opc := op, sz := f.sz.toNat
                        out := if f.off.getLsbD 5 then .output else .both }
    Issuable i sh s gid g c t l →
    let e := seen s gid g c t l
    let h := (g.view s.tick).sreg f.base.toNat
    let word := fun v m => ofBytes (regBytes s g v k n m)
    let ps := s.spProbe e h n true ((activeLanes c).map fun m => (m, (lane ((g.view s.tick).vreg (f.off.toNat % 32)) m).toNat))
    (∀ k, causeOf (spTraps ps) = some k → exec i s = .next (trapHere s gid c k)) ∧
    (spTraps ps = [] →
      let r := (s.noteOut e h true ps).atomSpads e (bufAt s gid g h)
        (fun m => ⟨op, n, word f.data.toNat m, if op = 0x12 then word (f.data.toNat + k) m else 0⟩) ps
      let old := fun m => ((r.1.find? fun p => p.1 == m).map (·.2)).getD 0
      r.2.mem = s.mem ∧
      Completes i sh s r.2 gid g c (if f.off.getLsbD 5 then {} else loadEff f.data.toNat k c.active fun m => toBytes n (old m))
        (s.spWriting (gid / 128) n (bufAt s gid g h) h ps))) ∧
  ∀ (s : State) core launch n b p row col fn, n ∈ [4, 8] → p.cls = .ok row col → col % n = 0 → col + n ≤ 1024 →
    (∀ m, m < 2 ^ (8 * n) → fn m < 2 ^ (8 * n)) →
    let r := s.atomSpad core launch n (some b) p fn
    r.1 = ofBytes (rowBytes s core row col n) ∧ ofBytes (rowBytes r.2 core row col n) = fn r.1 ∧
    ((r.2.core core).row row).st = .stamped ∧ ((r.2.core core).row row).stamp = s.time ∧
    r.2.mem = s.mem ∧ (∀ k, k ≠ row → (r.2.core core).row k = (s.core core).row k) ∧ ∀ k, k ≠ core → r.2.core k = s.core k

/-- R123: CKPT goes on at once without SNAP, traps BARX with SUB 3 in handler mode, and waits until every other group of its
team waits at CKPT; before the period is over the whole team then goes on without a capture, and after a capture as well. -/
def Obligations.CheckpointResult : Prop :=
  ∀ (f : CXN) s gid g c t l, Issuable (.ckpt f) {} s gid g c t l →
    let others := (s.groupsOf g.team).filter fun p => p.1 != gid && p.2.st != .retiring
    let n := field l.record 0x36 1
    let period := (if n = 0 then 5 else n) * 1000000
    (l.snap = false → Completes (.ckpt f) {} s s gid g c {} .none) ∧
    (l.snap = true → g.hmode = true → exec (.ckpt f) s = .next (trapHere s gid c ⟨0x31, 3, 0, c.active⟩)) ∧
    (l.snap = true → g.hmode = false →
      ((∃ p ∈ others, p.2.waitsFor .ckpt = false) → Waits (.ckpt f) s s gid g .ckpt) ∧
      ((∀ p ∈ others, p.2.waitsFor .ckpt = true) →
        (others = [] → s.time < t.captured + period → Completes (.ckpt f) {} s s gid g c {} .none) ∧
        (s.time < t.captured + period → (s.groups.map (·.1)).Nodup → ∃ u, exec (.ckpt f) s = .next u ∧ u.mem = s.mem ∧
          ∀ p ∈ others, ∀ k, p.2.clause = some k → PastInstr u p.1 p.2 k 1) ∧
        (t.captured + period ≤ s.time → s.opsDone g.team = false → Waits (.ckpt f) s s gid g .ckpt) ∧
        (∀ s1, others = [] → t.captured + period ≤ s.time → s.opsDone g.team = true → s.capture g.team t l = .ok () s1 →
          s1.groups.find gid = some g → Completes (.ckpt f) {} s s1 gid g c {} .none)))

/-- R53, R54, R74, R75: a group without a clause that is READY fetches the clause at its issue address: the header and then
its words. A header that R54 refuses traps ILLCL, a clause that the check refuses traps its cause, both at word 0; otherwise
the clause stands before the group with the lanes at that address active. -/
def Sys2Proof.Claims.ClauseFetch : Prop :=
  ∀ (s : State) g t, s.groups.find s.arg.a = some g → s.teams.find g.team = some t → g.clause = none → g.stepDue = false →
    g.st = .ready → minPc g.pcv ≠ exitPc →
    let at_ := (minPc g.pcv).toNat
    let read := fun (u : State) ws => u.fetchWords t.launch g (s.arg.a / 128 / 8) t.ctx (s.ctx t.ctx).codeBase ws
    let refuse := fun (u : State) code => takeTrap u s.arg.a ⟨code, 0, 0, g.active⟩ g.active (minPc g.pcv) 0
    (∀ va pte l3 at3 s1, read s [at_] = (.absent va pte l3 at3, s1) → ∃ u h, exec .clauseFetch s = .next u ∧
      u.groups.find s.arg.a = some h ∧ h.st = .waiting ∧ h.wait.map (·.kind) = some (.page va 2) ∧ h.pcv = g.pcv) ∧
    (∀ code sub s1, read s [at_] = (.trap code sub, s1) → exec .clauseFetch s =
      .next (takeTrap s1 s.arg.a ⟨code, sub, 0, g.active⟩ g.active (minPc g.pcv) 0)) ∧
    ∀ w s1, read s [at_] = (.ok [w], s1) →
      let n := w.toNat / 2 ^ 28
      let bad := n = 0 ∨ 3 < w.toNat / 2 ^ 25 % 8 ∨ w.toNat % 2 ^ 14 ≠ 0
      (bad → exec .clauseFetch s = .next (refuse s1 0x01)) ∧
      (¬ bad → ∀ ws s2, read s1 ((List.range n).map fun k => at_ + 1 + k) = (.ok ws, s2) →
        (∀ code, checkClause (headerOf w) (cfgPriv g.ctxcfg) ws = some code → exec .clauseFetch s = .next (refuse s2 code)) ∧
        (checkClause (headerOf w) (cfgPriv g.ctxcfg) ws = none → ∃ u h, exec .clauseFetch s = .next u ∧
          SameOutside s2 u ∧ u.cores = s2.cores ∧ u.groups.find s.arg.a = some h ∧ h.st = .ready ∧ h.pcv = g.pcv ∧
          h.rows = g.rows ∧ h.sregs = g.sregs ∧
          h.clause = some { addr := minPc g.pcv, header := w, words := ws, pos := g.hword - 1
                            begun := decide (g.hword ≠ 0), active := g.active }))

/-- R79, R155, R158, R159, R161, R168: what happens to groups beside their instructions. A counted operation that is only to
deliver completes: its results stand in their registers and its counter has fallen. A RETIRING group with nothing left
leaves its slot and its team's barriers. The oldest group in WAIT_ALLOC gets its rows once they are free. A row becomes
drowsy without losing its value; a service request reads a register. -/
def Sys2Proof.Claims.GroupEvents : Prop :=
  (∀ (s : State) g t l o, s.groups.find s.arg.a = some g → s.teams.find g.team = some t → t.st = .running →
    s.launches.find t.launch = some l → g.ops.find? (fun x => x.id == s.arg.b) = some o →
    o.act = .none ∨ (∃ b n old, (o.act = .spad b n ∨ o.act = .spadStore b n old) ∧ s.padWaits (s.arg.a / 128) b n (decide (9 ≤ o.opc ∧ o.opc ≤ 0x14)) = false) →
    ∃ u h, exec .countedOpComplete s = .next u ∧ SameOutside s u ∧ u.cores = s.cores ∧ u.groups.find s.arg.a = some h ∧
      h.ops = g.ops.filter (fun x => x.id != o.id) ∧ h.dc o.dc = g.dc o.dc - 1 ∧ (∀ k, k ≠ o.dc → h.dc k = g.dc k) ∧
      ((o.vres.map (·.1)).Nodup → ∀ p ∈ o.vres, h.vreg p.1 = mergeRow p.2.2 (g.vreg p.1) p.2.1) ∧
      (∀ v, v ∉ o.vres.map (·.1) → h.vreg v = g.vreg v) ∧
      ((o.sres.map (·.1)).Nodup → ∀ p ∈ o.sres, h.sreg p.1 = p.2) ∧ (∀ k, k ∉ o.sres.map (·.1) → h.sreg k = g.sreg k) ∧
      h.pcv = g.pcv ∧ h.clause = g.clause ∧ ∀ k, k ≠ s.arg.a → u.groups.find k = s.groups.find k) ∧
  (∀ (s : State) r, s.groups.find s.arg.a = none → (s.peers.map (·.1)).Nodup → s.peers.find s.arg.b = some r →
    (r.done = true ∨ r.port = none ∨ r.when + 200000 < s.time → exec .countedOpComplete s = .next s) ∧
    (r.done = false → r.port.isSome → s.time ≤ r.when + 200000 →
      (r.kind = .load ∨ r.kind = .copyRead ∨ r.kind = .taskRead → ∃ u x, exec .countedOpComplete s = .next u ∧ u.mem = s.mem ∧
        u.groups = s.groups ∧ u.peers.find s.arg.b = some x ∧ x.done = true ∧
        ((∀ b m, r.op ≠ .write b m) → x.data.length = r.size ∧ x.marks.length = r.size)) ∧
      (r.kind = .posted ∨ r.kind = .copyWrite ∨ r.kind = .taskWrite → ∃ u, exec .countedOpComplete s = .next u ∧ u.mem = s.mem ∧
        u.groups = s.groups ∧ u.peers.find s.arg.b = none))) ∧
  (∀ (s : State) g, s.groups.find s.arg.a = some g → s.mayRelease s.arg.a g = true → (s.groups.map (·.1)).Nodup →
    ∃ u, exec .groupRelease s = .next u ∧ u.groups.find s.arg.a = none ∧
      ∀ t k x, s.teams.find g.team = some t → t.st = .running → g.shadow = false → k ≠ s.arg.a →
        s.groups.find k = some x → x.team = g.team →
        u.mem = s.mem ∧ ∃ t', u.teams.find g.team = some t' ∧ t'.members = t.members.map (fun m => if m = .on s.arg.a then .retired else m) ∧
          ∀ b < 4, (t'.bar b).exp = (t.bar b).exp - 1 ∧
            (t'.bar b).arr = if g.bars.getD b .none = .arrived then (t.bar b).arr - 1 else (t.bar b).arr) ∧
  (∀ (s : State) g gid since rest, (s.core s.arg.a).allocWait = (gid, since) :: rest → s.groups.find gid = some g →
    g.st = .waitAlloc → g.poolWant (s.rminOf g) ≤ s.poolFree s.arg.a →
    ∃ u h, exec .rowGrant s = .next u ∧ SameOutside s u ∧ u.groups.find gid = some h ∧ h.st = .ready ∧ h.spilled = [] ∧
      (0 < g.wanted → h.granted = true) ∧ h.rows = g.rows ∧ h.clause = g.clause ∧
      ∀ w ∈ (u.core (gid / 128)).allocWait, w.1 ≠ gid) ∧
  (∀ (s : State) g gid since rest, (s.core s.arg.a).allocWait = (gid, since) :: rest → s.groups.find gid = some g →
    since + 10000 ≤ s.time → (s.core s.arg.a).freedAt + 10000 ≤ s.time →
    let want := g.poolWant (s.rminOf g)
    (want ≤ s.poolFree s.arg.a → exec .rowSpill s = .next s) ∧
    (∀ v h t s1, s.poolFree s.arg.a < want → s.rowVictim s.arg.a gid [] = some v → s.groups.find v = some h →
      s.teams.find h.team = some t → s.spillGroup v h t = .ok () s1 → want ≤ s1.poolFree s.arg.a →
      exec .rowSpill s = .next s1 ∧ ∃ y, s1.groups.find v = some y ∧ y.rows = h.rows ∧
        ∀ k ∈ (h.rows.keys.filter fun k => ! h.spilled.contains k).reverse.take (h.held - s.rminOf h), k ∈ y.spilled)) ∧
  (∀ (s : State) g, s.groups.find s.arg.a = some g → ∃ u h, exec .rowDrowsy s = .next u ∧ SameOutside s u ∧
    u.cores = s.cores ∧ u.groups.find s.arg.a = some h ∧ h.rows = g.rows ∧ h.sregs = g.sregs ∧
    ((g.rows.find s.arg.b).isSome → s.arg.b ∉ g.spilled → s.arg.b ∈ h.drowsy) ∧
    ∀ k, k ≠ s.arg.a → u.groups.find k = s.groups.find k) ∧
  (∀ (s : State) g, s.dev.st = .ready → s.groups.find s.arg.a = some g → s.arg.b < 64 → s.arg.c < 32 →
    ∃ u, exec .debugRegisterRead s = .next u ∧ SameOutside { s with responses := u.responses } u ∧ u.groups = s.groups ∧
      u.responses.head?.map (fun r => (r.status, r.value)) = some
        (if (g.rows.find s.arg.b).isSome then (.ok, toBytes 4 (lane ((g.view s.tick).vreg s.arg.b) s.arg.c).toNat)
         else (.unalloc, [0, 0, 0, 0])))

/-- R120, R121, R224, R252, R258: a leader and its shadow that differ, or a leader that holds an operation for more than
4 µs, take SHADOW, and resume at their region entries; RETN is published within the rules of R224; a mirrored store is
acknowledged, or given up after 30 µs with CHKIV.MIRROR; a port's entry arrives, and a port wait past PORTTO traps PORTS with
SUB 1 in the lanes that still wait. -/
def Obligations.CoreEvents : Prop :=
  (∀ (s : State) g h t l, s.groups.find s.arg.a = some g → s.groups.find (twinOf s.arg.a) = some h →
    twinOf s.arg.a ≠ s.arg.a → h.team = g.team → s.teams.find g.team = some t → t.st = .running →
    s.launches.find t.launch = some l → l.handler ≠ exitPc → g.hmode = false → h.hmode = false →
    g.st ≠ .retiring → g.st ≠ .stopped → h.st ≠ .retiring → h.st ≠ .stopped →
    (s.mismatched s.arg.a = true → ∃ u, exec .shadowMismatch s = .next u ∧ u.mem = s.mem ∧
      InShadowTrap u s.arg.a g l.handler ∧ InShadowTrap u (twinOf s.arg.a) h l.handler) ∧
    (g.heldOp.isSome → g.matched = false → g.shadow = false → g.heldAt + 4000 < s.time →
      ∃ u, exec .shadowLagTimeout s = .next u ∧ u.mem = s.mem ∧
        InShadowTrap u s.arg.a g l.handler ∧ InShadowTrap u (twinOf s.arg.a) h l.handler)) ∧
  (∀ s : State,
    let us := s.arg.b
    let tj := s.arg.c
    let old := (s.core s.arg.a).retnUs
    let lawful := 100 ≤ us ∧ us < 2 ^ 20 ∧ tj < 256 ∧ (tj ≤ 95 → 200 ≤ us) ∧ old ≤ us + old / 8
    (¬ lawful → exec .retnPublish s = .next s) ∧
    (lawful → ∃ u, exec .retnPublish s = .next u ∧ SameOutside s u ∧ u.groups = s.groups ∧
      (u.core s.arg.a).retnUs = us ∧ (u.core s.arg.a).retnTj = tj ∧ (u.core s.arg.a).sp = (s.core s.arg.a).sp ∧
      ∀ k, k ≠ s.arg.a → u.core k = s.core k)) ∧
  (∀ s : State, (s.mirrors.map (·.1)).Nodup → ∃ u, exec .mirrorAcknowledgement s = .next u ∧ SameOutside { s with mirrors := u.mirrors } u ∧
    u.groups = s.groups ∧ u.mirrors.find s.arg.a = none ∧ ∀ k, k ≠ s.arg.a → u.mirrors.find k = s.mirrors.find k) ∧
  (∀ (s : State) m since l, s.mirrors.find s.arg.a = some m → m.since = some since → since + 30000 ≤ s.time →
    s.launches.find m.launch = some l → l.hasEnded = false → (s.mirrors.map (·.1)).Nodup →
    ∃ u, exec .mirrorAckTimeout s = .next u ∧ u.mem = s.mem ∧ u.mirrors.find s.arg.a = none ∧
      (u.launches.find m.launch).map (·.chkiv) = some (l.chkiv ||| 0x02)) ∧
  (∀ (s : State) g, s.groups.find s.arg.a = some g → ∃ u h, exec .portEntryArrival s = .next u ∧ SameOutside s u ∧
    u.groups.find s.arg.a = some h ∧ h.rows = g.rows ∧
    (s.arg.flag = true → h.ports = g.ports ∧ (h.lag.find s.arg.b).getD 0 = (g.lag.find s.arg.b).getD 0 - 1) ∧
    (s.arg.flag = false → h.lag = g.lag ∧ (h.queue s.arg.b).map (·.val) = (g.queue s.arg.b).map (·.val) ∧
      ((∀ x ∈ g.queue s.arg.b, x.arrived = true) → h.queue s.arg.b = g.queue s.arg.b) ∧
      (∀ as x bs, g.queue s.arg.b = as ++ x :: bs → (∀ y ∈ as, y.arrived = true) → x.arrived = false →
        h.queue s.arg.b = as ++ { x with arrived := true } :: bs))) ∧
  (∀ (s : State) g c t l b a lim ph, s.groups.find s.arg.a = some g → g.wait = some ⟨.port, b, a, lim, ph⟩ → g.clause = some c →
    s.teams.find g.team = some t → s.launches.find t.launch = some l → g.st = .waiting → ph / 8 % 2 = 0 →
    cfgPortto g.ctxcfg ≠ 0 → cfgPortto g.ctxcfg * 1000 < lim →
    (∃ n < 32, inMask c.active n = true ∧ (arrivedVals g (ph % 8) n).length < ph / 16) →
    exec .portTimeout s = .next (trapHere s s.arg.a c ⟨0x30, 1, 0,
      maskOf fun n => inMask c.active n && decide ((arrivedVals g (ph % 8) n).length < ph / 16)⟩))

/-- R183, R258, R321, R341, R345, R151: a group that waits at its instruction runs it again when its event comes: the event
answers what the instruction answers there. -/
def Sys2Proof.Claims.WaitsRunAgain : Prop :=
  ∀ (s : State) g c t l, s.groups.find s.arg.a = some g → g.st = .waiting → g.clause = some c → s.teams.find g.team = some t →
    s.launches.find t.launch = some l →
    let now : State := { s with cur := some s.arg.a }
    let again := fun (ev i : Instr) (u : State) => ∃ v, exec ev s = .next v ∧ exec i u = .next v
    (∀ i k, c.instr = .ok (i, k) →
      (g.wait.map (·.kind) = some .bcwait → ∀ f, i = .bcwait f → again .bcwaitMet i now) ∧
      (g.wait.map (·.kind) = some .sleep → ∀ f, i = .sleep f → again .sleepExpiry i now) ∧
      (g.wait.map (·.kind) = some .signal → ∀ f, i = .sigwait f → again .signalObserved i now) ∧
      (g.wait.map (·.kind) = some .port → ∀ f, i = .npush f ∨ i = .npop f ∨ i = .npeek f → again .portWaitMet i now) ∧
      (g.wait.map (·.kind) = some .stageQueue → ∀ f, i = .sqadd f ∨ i = .sqtake f → again .stageQueueWaitMet i now) ∧
      (g.wait.map (·.kind) = some .lid → ∀ f, i = .acq f → again .lidGrant i
        { s.modGroup s.arg.a (fun g => { g with wait := g.wait.map fun w => { w with phase := 1 } }) with cur := some s.arg.a }))

/-! ## The device, its services and its contexts -/

namespace Sys2Proof.Claims

open Sys2Proof Sys2Proof.Machine

/-- The event answers a status with a value, and nothing else changes. -/
def Answers (i : Instr) (s : State) (st : Status) (v : List Byte) : Prop :=
  ∃ u, exec i s = .next u ∧ SameOutside { s with responses := u.responses } u ∧ u.cores = s.cores ∧ u.groups = s.groups ∧
    u.responses = ⟨st, v, []⟩ :: s.responses

/-- The event is accepted with a value: it answers OK, leaves memory, the groups and the launches as they are, and the rest
as `p` says. -/
def Accepts (i : Instr) (s : State) (v : List Byte) (p : State → Prop) : Prop :=
  ∃ u, exec i s = .next u ∧ u.responses = ⟨.ok, v, []⟩ :: s.responses ∧ u.mem = s.mem ∧ u.groups = s.groups ∧
    u.launches = s.launches ∧ u.teams = s.teams ∧ u.cores = s.cores ∧ p u

/-- The device has been reset: bring-up begins with step 1, nothing is left of memory, contexts, launches and groups, and the
fuses and images stay (R17, R23). -/
def Restarted (s u : State) : Prop :=
  u.dev.st = .bringup ∧ u.dev.step = 1 ∧ u.dev.devstat = 0x10 ∧ u.dev.fuses = s.dev.fuses ∧ u.dev.images = s.dev.images ∧
    u.mem = [] ∧ u.ctxs = [] ∧ u.queues = [] ∧ u.launches = [] ∧ u.teams = [] ∧ u.groups = [] ∧ u.cores = [] ∧
    u.clusters = [] ∧ u.copies = [] ∧ u.peers = []

/-- The typical time of a bring-up step in milliseconds (R18). -/
def typicalMs (step : Nat) : Nat :=
  if step ≤ 1 then 5 else if step = 2 then 60 else if step = 3 then 150 else if step = 4 then 80 else if step = 5 then 120
  else if step = 6 then 1795 else if step = 7 then 150 else if step = 8 then 40 else 0

/-- The failing case that a step's report names (R19). -/
def stepFailure (r : StepReport) (step : Nat) : Option Nat :=
  if step = 1 ∧ r.fuseOk = false then some 5
  else if step = 2 then
    match r.image with
    | some (_, false) => some 1
    | some (v, true) => if v < Config.rollbackCounter then some 2 else none
    | none => none
  else if step = 3 ∧ r.homeChannelsLock = false then some 4
  else if step = 4 ∧ (r.lanes.any fun p => 4 < ((r.lanes.filter fun q => q.1 == p.1).map (·.2)).eraseDups.length) then some 4
  else none

/-- The events that are service requests of the driver (R16, R20). -/
def serviceRequests : List Instr :=
  [.tsBankFence, .tsBankRetire, .hbmStackRetire, .firmwareUpdate, .profileWrite, .contextCreate, .contextDestroy, .ctxcfgSet,
   .tensorCreate, .tensorDestroy, .decodeSessionOpen, .decodeSessionClose, .taskQueueCreate, .taskQueueDestroy, .queueCreate,
   .queueActivate, .queueSuspend, .queueResume, .queueDestroy, .channelDieRetire, .retirecntSet, .debugRegisterRead]

end Sys2Proof.Claims

/-- R16 to R20, R163, R415: the device's life. Power and reset start bring-up anew. A step ends well and the next begins, or
the device is READY with EPOCH 1 and TIME 0; a failing case, a floor that is not met and a step that takes more than four
times its time fail it with their codes. An error of the control die in READY fails it with code 6 and every living context
faults. Requests are answered NOTREADY before READY and not at all in OFF. -/
def Sys2Proof.Claims.DeviceLife : Prop :=
  (∀ s : State, (s.dev.st ≠ .off → exec .powerGood s = .next s) ∧
    (s.dev.st = .off → ∃ u, exec .powerGood s = .next u ∧ Restarted s u) ∧
    ∃ u, exec .reset s = .next u ∧ Restarted s u) ∧
  (∀ (s : State) r, s.dev.st = .bringup → s.arg.body = .step r →
    let n := s.dev.step
    let late := 4000000 * typicalMs n < s.time - s.dev.stepAt
    let fails := fun i code => ∃ u, exec i s = .next u ∧ u.dev.st = .failed ∧ u.dev.failStep = n ∧ u.dev.failCode = code ∧
      u.mem = s.mem
    (late → fails .bringupStepEnd 3 ∧ fails .bringupStepTimeout 3) ∧
    (¬ late → exec .bringupStepTimeout s = .next s ∧
      (∀ code, stepFailure r n = some code → fails .bringupStepEnd code) ∧
      (stepFailure r n = none → r.failed = [] → n ≠ 1 ∨ s.dev.fuses = [] →
        (s.floorsMet = false → fails .bringupStepEnd 4) ∧
        (s.floorsMet = true → ∃ u, exec .bringupStepEnd s = .next u ∧ u.mem = s.mem ∧
          (n < 8 → u.dev.degraded = (s.dev.degraded || decide (n = 4 ∧ r.lanes ≠ [])) ∧ u.dev.st = .bringup ∧ u.dev.step = n + 1 ∧ u.dev.stepAt = s.time ∧ u.time = s.time) ∧
          (8 ≤ n → u.dev.st = .ready ∧ u.dev.epoch = 1 ∧ u.time = 0 ∧ u.dev.chLive = s.chLiveNow ∧
            u.dev.degraded = s.degradedNow ∧
            ∀ k, (u.dev.profiles.find k).isSome ↔ k = 0 ∨ k = 1 ∨ k = 7))))) ∧
  (∀ s : State, s.dev.st = .ready → ∃ u, exec .controlDieError s = .next u ∧ u.dev.st = .failed ∧ u.dev.failCode = 6 ∧
    u.copies = [] ∧ ∀ k c, s.ctxs.find k = some c → c.st ≠ .free → c.st ≠ .destroyed → (u.ctx k).st = .faulted) ∧
  (∀ s : State, s.dev.st ≠ .ready → exec .controlDieError s = .next s) ∧
  (∀ s : State, ∀ i ∈ serviceRequests, (s.dev.st = .off → exec i s = .next s) ∧
    (s.dev.st = .bringup ∨ s.dev.st = .failed → Answers i s .notReady [])) ∧
  (∀ s : State, (s.dev.st = .bringup → s.arg.a < 1024 → Accepts .deviceNumberAssign s [] fun u =>
      u.dev.devNum = s.arg.a ∧ u.dev.bridge = s.arg.flag) ∧
    (s.dev.st = .bringup → 1024 ≤ s.arg.a → Answers .deviceNumberAssign s .badReq []) ∧
    (s.dev.st = .ready → Answers .deviceNumberAssign s .badState [])) ∧
  (∀ s : State, s.arg.a < 4 → ∃ u, exec .coreClockThrottle s = .next u ∧ (u.tower s.arg.a).throttled = s.arg.flag ∧
    u.mem = s.mem ∧ u.groups = s.groups ∧ u.cores = s.cores ∧ u.dev = s.dev)

/-- R21, R22, R24, R25, R421: service actions. An action does what it does to its part when it completes, with the step of
EPOCH; a stack's retirement completes only once nothing of the stack is in use, and excludes the others of its tower with BUSY. An image that
does not verify or is too old is refused. The attestation report carries version, key size, nonce and EPOCH under its
signature, and the management window shows DEVSTAT and the report. -/
def Sys2Proof.Claims.ServiceActions : Prop :=
  (∀ s : State, s.dev.st = .ready →
    let p : PartRef := ⟨.tsBank, s.arg.a⟩
    let q : PartRef := ⟨.hbmStack, s.arg.a⟩
    (256 ≤ s.arg.a → Answers .tsBankFence s .badReq [] ∧ Answers .tsBankRetire s .badReq []) ∧
    (16 ≤ s.arg.a → Answers .hbmStackRetire s .badReq []) ∧
    (s.arg.a < 256 → p ∈ s.dev.mapped → Answers .tsBankFence s .badState [] ∧ Answers .tsBankRetire s .badState []) ∧
    (s.arg.a < 256 → p ∈ s.dev.fenced → Answers .tsBankFence s .badState []) ∧
    (s.arg.a < 256 → p ∉ s.dev.mapped → s.excluded p = true → Answers .tsBankRetire s .busy [] ∧
      (p ∉ s.dev.fenced → Answers .tsBankFence s .busy [])) ∧
    (s.arg.a < 256 → p ∉ s.dev.mapped → s.excluded p = false →
      let asks := fun (i : Instr) (a : Action) => Accepts i s [] fun u => u.dev.actions = s.dev.actions ++ [⟨p, a⟩] ∧
        u.dev.mapped = s.dev.mapped ∧ u.dev.fenced = s.dev.fenced ∧ u.dev.epoch = s.dev.epoch
      (p ∉ s.dev.fenced → asks .tsBankFence .fence) ∧ asks .tsBankRetire .retire) ∧
    (s.arg.a < 16 → q ∉ s.dev.mapped → (∃ a ∈ s.dev.actions, partTower a.part = s.arg.a / 4) →
      Answers .hbmStackRetire s .busy []) ∧
    (s.arg.a < 16 → q ∉ s.dev.mapped → (∀ a ∈ s.dev.actions, partTower a.part ≠ s.arg.a / 4) →
      Accepts .hbmStackRetire s [] fun u => u.dev.actions = s.dev.actions ++ [⟨q, .retire⟩] ∧ u.dev.mapped = s.dev.mapped)) ∧
  (∀ (s : State) p a, s.dev.st = .ready → s.arg.body = .part p → s.firstAction p = some a →
    let done := fun (q : State → Prop) => ∃ u, exec .serviceActionComplete s = .next u ∧ u.dev.epoch = s.dev.epoch + 1 ∧
      u.dev.actions = s.dev.actions.erase ⟨p, a⟩ ∧ u.mem = s.mem ∧ u.groups = s.groups ∧ u.launches = s.launches ∧ q u
    (p.kind = .tsBank → a = .fence → done fun u => p ∈ u.dev.fenced ∧ u.dev.mapped = s.dev.mapped ∧ u.dev.degraded = true) ∧
    (p.kind = .tsBank → a = .retire → done fun u => p ∈ u.dev.mapped ∧ p ∉ u.dev.fenced ∧ u.dev.degraded = true) ∧
    (p.kind = .hbmStack → a = .retire → s.stackUsed p.idx = true → exec .serviceActionComplete s = .next s) ∧
    (p.kind = .hbmStack → a = .retire → s.stackUsed p.idx = false → done fun u => p ∈ u.dev.mapped ∧ p ∈ u.dev.fuses ∧ u.dev.degraded = true) ∧
    (∀ i, p.kind = .firmware → a = .update i → s.updating p = true → done fun u => i ∈ u.dev.images) ∧
    (p.kind = .bus → a = .recalibrate → done fun u => (u.bus p.idx).trained = s.time)) ∧
  (∀ (s : State) i, s.dev.st = .ready → s.arg.body = .image i → i.core < 16 → i.kind < 4 →
    (Config.sigVerifies i.digest i.signature = false → Answers .firmwareUpdate s .sigFail []) ∧
    (Config.sigVerifies i.digest i.signature = true →
      (i.version < Config.rollbackCounter → Answers .firmwareUpdate s .rollback []) ∧
      (Config.rollbackCounter ≤ i.version → s.excluded ⟨.firmware, i.core⟩ = false →
        Accepts .firmwareUpdate s [] fun u => u.dev.actions = s.dev.actions ++ [⟨⟨.firmware, i.core⟩, .update i⟩]))) ∧
  (∀ (s : State) n, s.dev.st ≠ .off → s.arg.body = .nonce n → ∃ v : List Byte, v.length = 384 ∧
    v.take 8 = [1, 0, 0, 0, 0x80, 1, 0, 0] ∧ (v.drop 8).take 32 = toBytes 32 n.toNat ∧
    (v.drop 312).take 8 = toBytes 8 (s.dev.epoch % 2 ^ 32) ∧ v.drop 320 = toBytes 64 (Config.sign (v.take 320)).toNat ∧
    Accepts .attestationRequest s v fun u => u.dev.report = v) ∧
  ∀ s : State, (s.dev.st = .off → exec .managementWindowRead s = .next s) ∧ (s.dev.st ≠ .off →
    (s.arg.a = 0 → Answers .managementWindowRead s .ok (toBytes 8 s.dev.devstat)) ∧
    (0x40 ≤ s.arg.a → s.arg.a < 0x1C0 → s.arg.a % 8 = 0 →
      Answers .managementWindowRead s .ok (sliceBytes s.dev.report (s.arg.a - 0x40) 8)) ∧
    (s.arg.a % 8 ≠ 0 ∨ 0x1C0 ≤ s.arg.a → Answers .managementWindowRead s .faultResponse []))

/-- R50, R86 to R89, R109, R368, R371 to R373, R457: profiles and contexts, tensors and decode sessions. A profile that a
living context uses is not replaced, a malformed one is refused. A context begins CREATED with the values of its request, is
DESTROYED when asked, and FREE once nothing of it is left; PARKED for 100 ms it is evicted, and until then its parked rows
are renewed. A tensor takes a free range that reads as zero, and goes once no copy names it; sessions open and close. -/
def Obligations.ContextServices : Prop :=
  (∀ (s : State) d, s.dev.st = .ready → s.arg.body = .profile d →
    let used := ∃ p ∈ s.ctxs, p.2.st ≠ .free ∧ p.2.st ≠ .destroyed ∧ p.2.profile = s.arg.a
    let bad := d.getLsbD 127 = true ∧ badProfile d = true
    (8 ≤ s.arg.a → Answers .profileWrite s .badReq []) ∧
    (s.arg.a < 8 → bad → Answers .profileWrite s .badProf []) ∧
    (s.arg.a < 8 → ¬ bad → used → Answers .profileWrite s .inUse []) ∧
    (s.arg.a < 8 → ¬ bad → ¬ used → Accepts .profileWrite s [] fun u => u.dev.profiles.find s.arg.a = some d ∧
      ∀ k, k ≠ s.arg.a → u.dev.profiles.find k = s.dev.profiles.find k)) ∧
  (∀ (s : State) r, s.dev.st = .ready → s.arg.body = .create r →
    let v := r.ctxcfg.toNat
    let good := r.ptRoot % 65536 = 0 ∧ spaceOf r.ptRoot = .hbm ∧ v / 2 ^ 20 % 2 ^ 4 = 0 ∧ v / 2 ^ 30 = 0 ∧ r.profile < 8 ∧
      r.saveBase + r.saveSize ≤ 2 ^ 52 ∧ r.snapBase + r.snapSize ≤ 2 ^ 52
    let valid := (s.dev.profiles.findD r.profile 0).getLsbD 127 = true
    (64 ≤ r.ctx → Answers .contextCreate s .badReq []) ∧
    (r.ctx < 64 → (s.ctx r.ctx).st ≠ .free → Answers .contextCreate s .busy []) ∧
    (r.ctx < 64 → (s.ctx r.ctx).st = .free → ¬ good → Answers .contextCreate s .badReq []) ∧
    (r.ctx < 64 → (s.ctx r.ctx).st = .free → good → ¬ valid → Answers .contextCreate s .badProf []) ∧
    (r.ctx < 64 → (s.ctx r.ctx).st = .free → good → valid → Accepts .contextCreate s [] fun u =>
      let c := u.ctx r.ctx
      c.st = .created ∧ c.ptRoot = r.ptRoot ∧ c.profile = r.profile ∧ c.codeBase = r.codeBase ∧ c.saveBase = r.saveBase ∧
      c.saveSize = r.saveSize ∧ c.snapBase = r.snapBase ∧ c.snapSize = r.snapSize ∧ c.lids = [] ∧ c.seals = [] ∧
      c.chkAcc = 0 ∧ c.tensors = [] ∧ c.ctxcfg.toNat = v % 2 ^ 7 + 1000 * 2 ^ 8 + r.ctx * 2 ^ 24 ∧
      ∀ k, k ≠ r.ctx → u.ctx k = s.ctx k)) ∧
  (∀ (s : State) v, s.dev.st = .ready → s.arg.body = .dword v → s.arg.a < 64 →
    let bad := v.toNat / 2 ^ 20 % 2 ^ 4 ≠ 0 ∨ v.toNat / 2 ^ 30 ≠ 0
    let alive := (s.ctx s.arg.a).st ≠ .free ∧ (s.ctx s.arg.a).st ≠ .destroyed
    (bad → Answers .ctxcfgSet s .badReq []) ∧ (¬ bad → ¬ alive → Answers .ctxcfgSet s .badState []) ∧
    (¬ bad → alive → Accepts .ctxcfgSet s [] fun u => (u.ctx s.arg.a).ctxcfg.toNat = v.toNat % 2 ^ 20 + s.arg.a * 2 ^ 24 ∧
      (u.ctx s.arg.a).st = (s.ctx s.arg.a).st ∧ ∀ k, k ≠ s.arg.a → u.ctx k = s.ctx k)) ∧
  (∀ s : State, s.dev.st = .ready →
    let c := s.arg.a
    let alive := (s.ctx c).st ≠ .free ∧ (s.ctx c).st ≠ .destroyed
    (64 ≤ c → Answers .contextDestroy s .badReq []) ∧ (c < 64 → ¬ alive → Answers .contextDestroy s .badState []) ∧
    (c < 64 → alive → ∃ u, exec .contextDestroy s = .next u ∧ u.responses.head? = some ⟨.ok, [], []⟩ ∧
      (u.ctx c).st = .destroyed ∧ (u.ctx c).lids = [])) ∧
  (∀ s : State,
    ((s.ctx s.arg.a).st ≠ .destroyed ∨ s.released s.arg.a = false → exec .contextReleased s = .next s) ∧
    ((s.ctx s.arg.a).st = .destroyed → s.released s.arg.a = true → ∃ u, exec .contextReleased s = .next u ∧
      u.ctx s.arg.a = { freshCtx with tensorGen := (s.ctx s.arg.a).tensorGen } ∧
      ∀ k x, x ∈ ((u.tower k).sessions.map (·.2)) → x.ctx ≠ s.arg.a)) ∧
  (∀ s : State,
    ((s.ctx s.arg.a).st ≠ .parked ∨ s.time < (s.ctx s.arg.a).parkedSince + 100000000 → exec .parkTimeout s = .next s) ∧
    ((s.ctx s.arg.a).st = .parked → (s.ctx s.arg.a).parkedSince + 100000000 ≤ s.time →
      (∀ p ∈ s.teams, p.2.ctx = s.arg.a → p.2.onCores = true) →
      ∃ u, exec .parkTimeout s = .next u ∧ u.mem = s.mem ∧ (u.ctx s.arg.a).st = .evicted)) ∧
  (∀ s : State, ∃ u, exec .parkRenewal s = .next u ∧ u.mem = s.mem ∧ u.groups = s.groups ∧
    ∀ k p t row, p ∈ (s.core k).bufs → p.2.parked = true → s.teams.find p.2.team = some t → t.ctx = s.arg.a →
      p.2.base ≤ row → row < p.2.base + p.2.rows → ((s.core k).row row).st = .stamped →
      s.time - ((s.core k).row row).stamp ≤ min p.2.tag (s.core k).retnUs * 1000 →
      ((u.core k).row row).stamp = s.time ∧ ((u.core k).row row).data = ((s.core k).row row).data) ∧
  (∀ (s : State) r, s.dev.st = .ready → s.arg.body = .tensor r →
    let c := s.ctx r.ctx
    let size := (tensorFor r 0 0).size
    let n := (size + 262143) / 262144 * 262144
    (tensorBad r = true → Answers .tensorCreate s .badReq []) ∧
    (tensorBad r = false → c.st = .free ∨ c.st = .destroyed → Answers .tensorCreate s .badState []) ∧
    (tensorBad r = false → c.st ≠ .free → c.st ≠ .destroyed →
      ((∀ k < 1024, (c.tensors.find k).isSome) → Answers .tensorCreate s .noSpace []) ∧
      (∀ k < 1024, c.tensors.find k = none → (∀ j < k, (c.tensors.find j).isSome) →
        firstGap n 0 (s.tsUsed r.tower) + n ≤ 2 ^ 36 →
        ∃ (a gen : Nat) (v : List Byte), v = toBytes 4 (k + gen * 2 ^ 24) ∧ 0 < gen ∧ gen < 256 ∧
          Accepts .tensorCreate s v fun u => ∃ x, (u.ctx r.ctx).tensors.find k = some x ∧ x.start = a ∧ x.gen = gen ∧
            x.dims = r.dims ∧ x.esz = r.esz ∧ x.size = size ∧
            (∀ p ∈ s.tsUsed r.tower, a + n ≤ p.1 ∨ p.1 + p.2 ≤ a) ∧
            ∀ j < n, Mem.get (u.tower r.tower).ts (a + j) = 0))) ∧
  (∀ s : State, s.dev.st = .ready →
    let c := s.ctx s.arg.a
    (c.tensors.find s.arg.b = none → Answers .tensorDestroy s .badReq []) ∧
    (∀ x, c.tensors.find s.arg.b = some x → x.destroying = true → Answers .tensorDestroy s .badState []) ∧
    (∀ x, c.tensors.find s.arg.b = some x → x.destroying = false → (∀ p ∈ c.tensors, p.2.destroying = false) →
      (c.tensors.map (·.1)).Pairwise (· < ·) →
      ((∀ p ∈ s.copies, p.2.names s.arg.a s.arg.b = false) → Accepts .tensorDestroy s [] fun u =>
        (u.ctx s.arg.a).tensors.find s.arg.b = none) ∧
      ((∃ p ∈ s.copies, p.2.names s.arg.a s.arg.b = true) → ∃ u, exec .tensorDestroy s = .next u ∧ u.responses = s.responses ∧
        ((u.ctx s.arg.a).tensors.find s.arg.b).map (·.destroying) = some true))) ∧
  (∀ (s : State) r, s.dev.st = .ready → s.arg.body = .session r →
    let good := r.tower < 4 ∧ r.ctx < 64 ∧ 1 ≤ r.w ∧ r.w ≤ 8192 ∧ 1 ≤ r.h ∧ r.h ≤ 8192 ∧ 0 < r.len ∧ r.va + r.len ≤ 2 ^ 52
    (¬ good → Answers .decodeSessionOpen s .badReq []) ∧
    (good → (s.ctx r.ctx).st ≠ .free → (s.ctx r.ctx).st ≠ .destroyed →
      ((∀ k < 64, ((s.tower r.tower).sessions.find k).isSome) → Answers .decodeSessionOpen s .tooMany []) ∧
      (∀ k < 64, (s.tower r.tower).sessions.find k = none → (∀ j < k, ((s.tower r.tower).sessions.find j).isSome) →
        Accepts .decodeSessionOpen s [BitVec.ofNat 8 k] fun u => (u.tower r.tower).sessions.find k =
          some { ctx := r.ctx, hevc := r.hevc, tenBit := r.tenBit, va := r.va, len := r.len, w := r.w, h := r.h }))) ∧
  ∀ s : State, s.dev.st = .ready →
    ((s.tower s.arg.a).sessions.find s.arg.b = none → Answers .decodeSessionClose s .badReq []) ∧
    (((s.tower s.arg.a).sessions.find s.arg.b).isSome → ((s.tower s.arg.a).sessions.map (·.1)).Nodup →
      Accepts .decodeSessionClose s [] fun u => (u.tower s.arg.a).sessions.find s.arg.b = none)

/-! ## What the driver does about pages -/

namespace Sys2Proof.Claims

open Sys2Proof Sys2Proof.Machine

/-- The event answers a status, and the rest is as `p` says. -/
def Served (i : Instr) (s : State) (st : Status) (p : State → Prop) : Prop :=
  ∃ u, exec i s = .next u ∧ u.responses.head? = some ⟨st, [], []⟩ ∧ p u

/-- The event takes place, and the state after it is as `p` says. -/
def Occurs (i : Instr) (s : State) (p : State → Prop) : Prop := ∃ u, exec i s = .next u ∧ p u

/-- The interrupts after FREECNT or RESERVE of a tower changed to what `u` has: one more when FREECNT came down to RESERVE
and the driver was not told yet (R294). -/
def ReserveTold (s u : State) (t : Nat) : Prop :=
  u.irqs = if (u.tower t).freeList.length ≤ (u.tower t).reserve ∧ (s.tower t).reserveTold = false then .reserve t :: s.irqs
    else s.irqs

/-- Nothing waits for the driver: no write at a home, no write of a front end, no end sequence and no prologue (R144, R281,
R284, R369). -/
def NothingHeld (s : State) : Prop := s.held = [] ∧ s.fronts = [] ∧ s.ends = [] ∧ ∀ p ∈ s.teams, p.2.binds = []

/-- The frames of a range of addresses are NORMAL (R281). -/
def NormalFrames (s : State) (a n : Nat) : Prop := ∀ x, a ≤ x → x < a + n → (s.frame x).st = .normal

/-- A frame of the compressed window, or of HBM in a stack that is not mapped out (R19, R281). -/
def FrameAt (s : State) (pa : Nat) : Prop :=
  pa % 65536 = 0 ∧ (spaceOf pa = .window ∨ (spaceOf pa = .hbm ∧ (⟨.hbmStack, pa / 2 ^ 36⟩ : PartRef) ∉ s.dev.mapped))

/-- No byte of a range is one of a frame table (R281). -/
def OffTables (s : State) (a n : Nat) : Prop := ∀ j < n, s.tableByte (a + j) = none

end Sys2Proof.Claims

/-- R283, R284: the fault ring of a context is given by its driver, records that fit are written into it in order and the
driver's HEAD makes room. RESOLVE names a page of 64 KiB, or the one of 2 MiB around it; with OK it replays what the page held
and lets its waiting groups try again; with FAIL the groups that wait on a page take the cause as they try, if they need this
one. A malformed request is refused. -/
def Sys2Proof.Claims.FaultRings : Prop :=
  (∀ s : State, s.dev.st = .ready →
    let c := s.arg.a
    let b := s.arg.b
    let k := s.arg.c
    let good := c < 64 ∧ 6 ≤ k ∧ k ≤ 16 ∧ b % 32 = 0 ∧ b + 32 * 2 ^ k ≤ 2 ^ 40
    let alive := (s.ctx c).st ≠ .free ∧ (s.ctx c).st ≠ .destroyed
    (¬ good → Answers .faultRingSet s .badReq []) ∧ (good → ¬ alive → Answers .faultRingSet s .badState []) ∧
    (good → alive → Served .faultRingSet s .ok fun u =>
      (∃ r, (u.ctx c).ring = some r ∧ r.addr = b ∧ r.k = k ∧ r.head = 0 ∧
        ((∀ f ∈ (s.ctx c).faults, f.written = true) → r.tail = 0 ∧ u.mem = s.mem) ∧
        (∀ f, (s.ctx c).faults = [f] → f.written = false → f.record.length = 32 → Memory.wf s.mem = true →
          Roomy s → NormalFrames s b 32 →
          r.tail = 1 ∧ ∀ j < 32, Mem.get u.mem (b + j) = if 12 ≤ j ∧ j < 16 then 0 else f.record.getD j 0)) ∧
      ((∀ f ∈ (s.ctx c).faults, f.record.length = 32) → (s.ctx c).faults.length ≤ 256 → Roomy s → NormalFrames s b (32 * 2 ^ k) →
        ∀ a, a < b ∨ b + 32 * 2 ^ k ≤ a → Mem.get u.mem a = Mem.get s.mem a) ∧ u.groups = s.groups ∧ u.launches = s.launches)) ∧
  (∀ s : State,
    ((s.ctx s.arg.a).ring = none → exec .faultRingHeadAdvance s = .next s) ∧
    ∀ r, (s.ctx s.arg.a).ring = some r →
      (s.arg.b < r.head ∨ r.tail < s.arg.b → exec .faultRingHeadAdvance s = .next s) ∧
      (r.head ≤ s.arg.b → s.arg.b ≤ r.tail → Occurs .faultRingHeadAdvance s fun u => u.groups = s.groups ∧
        ∃ q, (u.ctx s.arg.a).ring = some q ∧ q.addr = r.addr ∧ q.k = r.k ∧ q.head = s.arg.b ∧ r.tail ≤ q.tail ∧
          ((∀ f ∈ (s.ctx s.arg.a).faults, f.record.length = 32) → (s.ctx s.arg.a).faults.length ≤ 256 → Roomy s →
            NormalFrames s r.addr (32 * 2 ^ r.k) → r.addr % 32 = 0 → r.addr + 32 * 2 ^ r.k ≤ 2 ^ 40 → ∀ a, a < r.addr ∨ r.addr + 32 * 2 ^ r.k ≤ a → Mem.get u.mem a = Mem.get s.mem a))) ∧
  ∀ s : State, s.dev.st = .ready →
    let c := s.arg.a
    let page := s.arg.b / 65536
    let big := s.bigPage c page = true
    let on := fun (n : Nat) => n = page ∨ (big ∧ n / 32 = page / 32)
    let waits := fun (ok : Nat → Prop) (g : Group) => g.st = .waiting ∧ (∃ t, s.teams.find g.team = some t ∧ t.ctx = c) ∧
      ∃ va k a b n ph, g.wait = some ⟨.page va k, a, b, n, ph⟩ ∧ ok (va / 65536)
    (64 ≤ c ∨ 2 ^ 52 ≤ s.arg.b → Answers .resolve s .badReq []) ∧
    (c < 64 → s.arg.b < 2 ^ 52 → s.arg.flag = true → NothingHeld s →
      ((∀ p ∈ s.cores, ∀ x ∈ (s.core p.1).log, x.ctx ≠ c ∨ ¬ on (x.vline / 512) ∨ x.reserve = true) →
        Served .resolve s .ok fun u => u.mem = s.mem ∧ (∀ f ∈ (u.ctx c).faults, on f.page → f.kind = 5) ∧
          ∀ k g, s.groups.find k = some g → ∃ h, u.groups.find k = some h ∧ h.rows = g.rows ∧ h.sregs = g.sregs ∧
            h.clause = g.clause ∧ (waits on g → h.st = .ready ∧ h.wait = none) ∧ (¬ waits on g → h = g)) ∧
      (∀ k core x pa e s1, s.cores = [(k, core)] → core.log = [x] → x.ctx = c → on (x.vline / 512) → x.reserve = false →
        x.red = none →
        (s.forgetFault c (s.pageUnits c page)).reach (k / 8) c (cfgPriv (s.ctx c).ctxcfg) .store (x.vline * 128) 128 = (.ok pa e, s1) →
        spaceOf pa = .hbm →
        Served .resolve s .ok fun u => u.mem = (s1.performLogged k x pa e).mem ∧ (u.core k).log = [])) ∧
    (c < 64 → s.arg.b < 2 ^ 52 → s.arg.flag = false → NothingHeld s → s.copies = [] → s.clusters = [] →
      (∀ p ∈ s.cores, (s.core p.1).log = []) → (∀ p ∈ s.groups, p.2.ops = []) →
      Served .resolve s .ok fun u => u.mem = s.mem ∧ (∀ f ∈ (u.ctx c).faults, on f.page → f.kind = 5) ∧
        ∀ k g, s.groups.find k = some g → ∃ h, u.groups.find k = some h ∧ h.rows = g.rows ∧ h.sregs = g.sregs ∧
          (waits (fun _ => True) g → h.st = .ready ∧
            (big → h.wait = g.wait.map fun w => { w with lim := page / 32 * 32, phase := 2 }) ∧
            (¬ big → h.wait = g.wait.map fun w => { w with lim := page, phase := 1 })) ∧
          (¬ waits (fun _ => True) g → h = g))

/-- R293, R294: the chunks of a tower. The driver fills its free list with chunks of NORMAL frames of its HBM that it does not
hold, takes the first of them back, and sets RESERVE, not below 49,152 while a window frame is COMPRESSED; when FREECNT comes
down to RESERVE the driver is interrupted once. Above RESERVE + 1,024 what the reserve held tries again. HOTIDLE has 1 to
1,023 µs. -/
def Sys2Proof.Claims.ChunksOfATower : Prop :=
  (∀ s : State, s.dev.st = .ready →
    let t := s.arg.a
    let w := s.tower t
    let cs := (List.range s.arg.c).map fun k => s.arg.b + 2048 * k
    let fits := ∀ c ∈ cs, c < 2 ^ 40 ∧ c / 2 ^ 38 = t ∧ c % 2048 = 0 ∧
      (⟨.hbmStack, c / 2 ^ 36⟩ : PartRef) ∉ s.dev.mapped ∧ (s.frame c).st = .normal ∧ c ∉ w.freeList ∧
      w.chunks.find c = none
    (4 ≤ t ∨ ¬ fits → Answers .chunkListFill s .badReq []) ∧
    (t < 4 → fits → Accepts .chunkListFill s [] fun u => (u.tower t).freeList = w.freeList ++ cs ∧ ReserveTold s u t) ∧
    (4 ≤ t → Answers .chunkListDrain s .badReq [] ∧ Answers .reserveSet s .badReq []) ∧
    (t < 4 → Accepts .chunkListDrain s ((w.freeList.take s.arg.b).flatMap (toBytes 8)) fun u =>
      (u.tower t).freeList = w.freeList.drop s.arg.b ∧ ReserveTold s u t) ∧
    (let full := s.arg.b < 49152 ∧ ∃ p ∈ w.frames, p.2.st = .compressed
     (t < 4 → full → Answers .reserveSet s .badRes []) ∧
     (t < 4 → ¬ full → Accepts .reserveSet s [] fun u => (u.tower t).reserve = s.arg.b ∧ (u.tower t).freeList = w.freeList ∧
       ReserveTold s u t)) ∧
    (4 ≤ t ∨ s.arg.b < 1 ∨ 1023 < s.arg.b → Answers .hotidleSet s .badReq []) ∧
    (t < 4 → 1 ≤ s.arg.b → s.arg.b ≤ 1023 → Accepts .hotidleSet s [] fun u => (u.tower t).hotIdle = s.arg.b)) ∧
  (∀ s : State,
    let w := s.tower s.arg.a
    (w.freeList.length ≤ w.reserve + 1024 → exec .chunkReserveReplay s = .next s) ∧
    (w.reserve + 1024 < w.freeList.length → (∀ p ∈ s.cores, ∀ x ∈ (s.core p.1).log, x.reserve = false) →
      Occurs .chunkReserveReplay s fun u => u.mem = s.mem ∧ u.cores = s.cores ∧ ∀ k g, s.groups.find k = some g →
        ∃ h, u.groups.find k = some h ∧ h.rows = g.rows ∧ h.sregs = g.sregs ∧
          (∀ n, g.wait = some n → g.st = .waiting → n.kind = .reserve → n.lim = s.arg.a →
            h.st = .ready ∧ h.wait = some { n with phase := 1 }) ∧
          (g.wait = none ∨ g.st ≠ .waiting → h = g))) ∧
  ∀ s : State,
    let key := s.arg.a * 128
    (s.l2 key = none → exec .l2EvictionWriteback s = .next s) ∧
    ((s.l2 key).isSome → spaceOf key = .hbm → ((s.tower (homeTower key)).l2.map (·.1)).Pairwise (· < ·) →
      Occurs .l2EvictionWriteback s fun u => u.mem = s.mem ∧ u.poison = s.poison ∧ u.groups = s.groups ∧ u.l2 key = none ∧
        ∀ b, b / 128 ≠ s.arg.a → spaceOf b = .hbm → u.l2 b = s.l2 b)

/-- R281, R294, R297, R298, R299: frames. The driver places a tower's frame table before the first context and sets entries;
RECODE, MIGRATE and RELEASE take frames of the right states only. MIGRATE leaves the bytes of an uncompressed frame at its
new place and forwards to it; a frame that a tower has no chunks for is not encoded; a window frame becomes COMPRESSED with
its line map; RELEASE makes a forwarded frame NORMAL once no RDC holds a line of it. -/
def Sys2Proof.Claims.FramesMove : Prop :=
  (∀ (s : State) t base, s.dev.st = .ready → s.arg.body = .frame (.place t base) →
    let good := t < 4 ∧ base % 16 = 0 ∧ t * 2 ^ 38 ≤ base ∧ base + 2 ^ 27 ≤ (t + 1) * 2 ^ 38 ∧
      (⟨.hbmStack, base / 2 ^ 36⟩ : PartRef) ∉ s.dev.mapped
    let early := ∀ p ∈ s.ctxs, p.2.st = .free
    (¬ good → Answers .frameTableSet s .badReq []) ∧ (good → ¬ early → Answers .frameTableSet s .badState []) ∧
    (good → early → Accepts .frameTableSet s [] fun u => (u.tower t).frameBase = some base ∧
      (u.tower t).frames = (s.tower t).frames)) ∧
  (∀ (s : State) pa state ptr, s.dev.st = .ready → s.arg.body = .frame (.setEntry pa state ptr) →
    (¬ FrameAt s pa ∨ 3 < state → Answers .frameTableSet s .badReq []) ∧
    (∀ st, FrameAt s pa → s.frameEntry pa state ptr = some st → NothingHeld s →
      Served .frameTableSet s .ok fun u => (u.frame pa).st = st ∧ (u.frame pa).ptr = ptr ∧
        (spaceOf pa = .hbm → u.mem = s.mem) ∧ u.launches = s.launches)) ∧
  (∀ s : State, s.dev.st = .ready →
    let src := s.arg.a
    let dst := s.arg.b
    let frame := FrameAt s
    let st := fun pa => (s.frame pa).st
    let map := s.arg.c % 4096 = 0 ∧ spaceOf s.arg.c = .hbm ∧ (⟨.hbmStack, s.arg.c / 2 ^ 36⟩ : PartRef) ∉ s.dev.mapped ∧
      homeTower s.arg.c = homeTower dst
    (¬ frame src ∨ ¬ frame dst ∨ spaceOf src = spaceOf dst → Answers .recode s .badReq []) ∧
    (¬ frame src ∨ ¬ frame dst ∨ spaceOf src ≠ spaceOf dst ∨ src = dst → Answers .migrate s .badReq []) ∧
    (frame src → frame dst → spaceOf src ≠ spaceOf dst →
      (st dst ≠ .normal → Answers .recode s .badState []) ∧
      (st dst = .normal → spaceOf src = .window → st src ≠ .compressed → Answers .recode s .badState []) ∧
      (st dst = .normal → spaceOf src = .window → st src = .compressed → NothingHeld s → Served .recode s .ok fun u =>
        (u.frame src).st = .normal ∧ (u.frame dst).st = .normal ∧ u.launches = s.launches) ∧
      (st dst = .normal → spaceOf src = .hbm → st src ≠ .normal → Answers .recode s .badState []) ∧
      (st dst = .normal → spaceOf src = .hbm → st src = .normal → ¬ map → Answers .recode s .badReq []) ∧
      (st dst = .normal → spaceOf src = .hbm → st src = .normal → map →
        (512 ≤ (s.tower (homeTower dst)).freeList.length → Roomy s → NothingHeld s → Served .recode s .ok fun u => (u.frame dst).st = .compressed ∧
          (u.frame dst).ptr = s.arg.c ∧ (u.frame src).st = .normal ∧ 49152 ≤ (u.tower (homeTower dst)).reserve) ∧
        ((s.tower (homeTower dst)).freeList = [] → Roomy s → OffTables s src 65536 → (∃ j < 65536, Mem.get s.mem (src + j) ≠ 0) →
          Answers .recode s .noSpace []))) ∧
    (frame src → frame dst → spaceOf src = spaceOf dst → src ≠ dst →
      (st dst ≠ .normal → Answers .migrate s .badState []) ∧
      (st dst = .normal → spaceOf src = .hbm → st src ≠ .normal → Answers .migrate s .badState []) ∧
      (st dst = .normal → spaceOf src = .hbm → st src = .normal → Memory.wf s.mem = true → Roomy s →
        NothingHeld s → OffTables s src 65536 → Served .migrate s .ok fun u =>
        (u.frame src).st = .forward ∧ (u.frame src).ptr = dst ∧
        (∀ j < 65536, Mem.get u.mem (dst + j) = Mem.get s.mem (src + j)) ∧
        ∀ a, a < dst ∨ dst + 65536 ≤ a → Mem.get u.mem a = Mem.get s.mem a) ∧
      (st dst = .normal → spaceOf src = .window → st src ≠ .compressed → Answers .migrate s .badState []) ∧
      (st dst = .normal → spaceOf src = .window → st src = .compressed → ¬ map → Answers .migrate s .badReq [])) ∧
    (¬ frame src → Answers .release s .badReq []) ∧ (frame src → st src ≠ .forward → Answers .release s .badState []) ∧
    (frame src → st src = .forward → NothingHeld s → Served .release s .ok fun u => (u.frame src).st = .normal ∧ (u.frame src).ptr = 0 ∧
      ∀ t < 4, ∀ r ∈ (u.tower t).rdc, r.pline / 512 ≠ src / 65536))

/-- R280: the retirement of an L2 slice. Of a tower's slices one retires at a time, and forty stay. The slice's entries go to
the others, VER advances, lines that it still holds are handed to their new owners, and once it holds none it is off, its
fuse is written and EPOCH advances. -/
def Sys2Proof.Claims.SliceRetires : Prop :=
  (∀ s : State, s.dev.st = .ready →
    let t := s.arg.a / 48
    let k := s.arg.a % 48
    let w := s.tower t
    let st := fun n => w.slices.findD n .active
    let p : PartRef := ⟨.l2Slice, s.arg.a⟩
    let actives := (List.range 48).filter fun n => st n == .active
    (192 ≤ s.arg.a → Answers .sliceRetire s .badReq []) ∧
    (s.arg.a < 192 → s.excluded p = true → Answers .sliceRetire s .busy []) ∧
    (s.arg.a < 192 → s.excluded p = false →
      (st k ≠ .active → Answers .sliceRetire s .badState []) ∧
      (st k = .active → (∃ q ∈ w.slices, q.2 = .stub) → Answers .sliceRetire s .busy []) ∧
      (st k = .active → (∀ q ∈ w.slices, q.2 ≠ .stub) → actives.length ≤ 40 → Answers .sliceRetire s .floor []) ∧
      (st k = .active → (∀ q ∈ w.slices, q.2 ≠ .stub) → 40 < actives.length → Accepts .sliceRetire s [] fun u =>
        let x := u.tower t
        x.slices.find k = some .stub ∧ x.ver = (w.ver + 1) % 4 ∧ x.sliceOld = w.sliceMap ∧ x.l2 = w.l2 ∧
        u.dev.actions = s.dev.actions ++ [⟨p, .retire⟩] ∧
        ∀ e < 768, (w.entry e ≠ k → x.entry e = w.entry e) ∧ (w.entry e = k → x.entry e ∈ actives ∧ x.entry e ≠ k)))) ∧
  (∀ s : State,
    let t := s.arg.a / 48
    let k := s.arg.a % 48
    let pa := s.arg.b * 128
    let old := (s.tower t).sliceOld.findD (sliceIdx pa) (sliceIdx pa % 48)
    let owned := (s.tower t).slices.findD k .active = .stub ∧ homeTower pa = t ∧ old = k
    (¬ owned → exec .sliceForward s = .next s ∧ exec .sliceHandover s = .next s) ∧
    (owned → ∀ l, s.l2 pa = some l →
      (l.slice = k → Occurs .sliceForward s fun u => u.mem = s.mem ∧ u.l2 pa = some { l with slice := s.sliceFor pa }) ∧
      (l.slice = k → Occurs .sliceHandover s fun u => u.mem = s.mem ∧ u.l2 pa = some { l with slice := s.sliceFor pa }) ∧
      (l.slice ≠ k → exec .sliceForward s = .next s)) ∧
    (owned → s.l2 pa = none → exec .sliceForward s = .next s ∧ (spaceOf pa = .hbm → Roomy s → Occurs .sliceHandover s fun u =>
      u.mem = s.mem ∧ ∃ l, u.l2 pa = some l ∧ l.slice = s.sliceFor pa ∧ l.dirty = false))) ∧
  ∀ s : State,
    let t := s.arg.a / 48
    let k := s.arg.a % 48
    let p : PartRef := ⟨.l2Slice, s.arg.a⟩
    let empty := ∀ l ∈ (s.tower t).l2, l.2.slice ≠ k
    (s.dev.st ≠ .ready ∨ (s.tower t).slices.findD k .active ≠ .stub ∨ ¬ empty → exec .sliceOff s = .next s) ∧
    (s.dev.st = .ready → (s.tower t).slices.findD k .active = .stub → empty → Occurs .sliceOff s fun u => u.mem = s.mem ∧ u.groups = s.groups ∧
      (u.tower t).slices.find k = some .off ∧ p ∈ u.dev.mapped ∧ p ∈ u.dev.fuses ∧
      u.dev.epoch = s.dev.epoch + 1 ∧ u.dev.degraded = true ∧
      u.dev.actions = s.dev.actions.erase ⟨p, .retire⟩)

/-! ## The links -/

namespace Sys2Proof.Claims

open Sys2Proof Sys2Proof.Machine

/-- A peer's request receives a fault response with a SUB, which the service cores log; nothing else changes (R424). -/
def FaultsPeer (s : State) (r : InboundReq) (sub : Nat) : Prop :=
  Occurs .inboundRequest s fun u => u.responses = ⟨.faultResponse, [BitVec.ofNat 8 sub], []⟩ :: s.responses ∧
    u.svcLog = .peer r.dev s.dev.devNum r.addr sub :: s.svcLog ∧ u.mem = s.mem ∧ u.poison = s.poison ∧ u.groups = s.groups

/-- A peer's request is performed: it answers `v` with `marks`, and memory and marks are as `p` says. -/
def ServesPeer (s : State) (v : List Byte) (marks : List Bool) (p : State → Prop) : Prop :=
  Occurs .inboundRequest s fun u => u.responses = ⟨.ok, v, marks⟩ :: s.responses ∧ u.svcLog = s.svcLog ∧
    u.groups = s.groups ∧ u.cores = s.cores ∧ u.launches = s.launches ∧ p u

/-- A port goes to a state; the other ports stay in theirs. -/
def PortGoes (s u : State) (p : Nat) (st : PortSt) : Prop :=
  (u.link p).st = st ∧ (∀ q, q ≠ p → u.link q = s.link q) ∧ u.mem = s.mem ∧ u.groups = s.groups ∧ u.launches = s.launches

/-- The requests that a port carried and that are not answered leave it for another UP port of their trunk, or none if there is
none; the others stay (R414, R427). -/
def FlitsMove (s u : State) (p : Nat) : Prop :=
  ∀ k r, s.peers.find k = some r → ∃ x, u.peers.find k = some x ∧ { x with port := none } = { r with port := none } ∧
    (r.port ≠ some p ∨ r.done = true → x = r) ∧
    (r.port = some p → r.done = false → x.port ≠ some p ∧ ∀ q, x.port = some q →
      (u.link q).st = .up ∧ Config.portHop q = Config.nextHop r.dev)

/-- The requests that the trunk of a port held leave through an UP port of it; those that a port carries stay (R414, R427). -/
def FlitsLeave (s u : State) (p : Nat) : Prop :=
  ∀ k r, s.peers.find k = some r → ∃ x, u.peers.find k = some x ∧ { x with port := none } = { r with port := none } ∧
    (r.port ≠ none ∨ r.done = true → x = r) ∧
    (r.port = none → r.done = false → Config.portHop p = Config.nextHop r.dev →
      ∃ q, x.port = some q ∧ (u.link q).st = .up ∧ Config.portHop q = Config.nextHop r.dev)

end Sys2Proof.Claims

/-- R415, R417, R419, R420, R424: what peers may do. The driver writes the window and inbound tables, a window with a
reserved field is refused. A request receives a fault response with SUB 5 outside READY, 3 for a window address, 1 outside
the inbound ranges, 2 for a write where they do not admit one; an admitted read, write or atomic of a line of HBM is
performed at home, with the poison marks of the bytes read and written. One whose home is HELD waits. A message request is unsupported. -/
def Sys2Proof.Claims.PeersAtHome : Prop :=
  (∀ (s : State) v, s.dev.st = .ready → s.arg.body = .dword v →
    let n := v.toNat
    let bad := n / 2 ^ 4 % 2 ^ 4 ≠ 0 ∨ n / 2 ^ 18 % 2 ^ 18 ≠ 0 ∨ 3 < n / 2 % 8
    (2048 ≤ s.arg.a → Answers .windowTableWrite s .badReq []) ∧
    (s.arg.a < 2048 → bad → Answers .windowTableWrite s .badWin []) ∧
    (s.arg.a < 2048 → ¬ bad → Accepts .windowTableWrite s [] fun u => u.dev.windows.find s.arg.a = some v ∧
      ∀ k, k ≠ s.arg.a → u.dev.windows.find k = s.dev.windows.find k)) ∧
  (∀ (s : State) e, s.dev.st = .ready → s.arg.body = .inboundEntry e →
    (256 ≤ s.arg.a → Answers .inboundTableWrite s .badReq []) ∧
    (s.arg.a < 256 → Accepts .inboundTableWrite s [] fun u => u.dev.inbound.find s.arg.a = some e ∧
      ∀ k, k ≠ s.arg.a → u.dev.inbound.find k = s.dev.inbound.find k)) ∧
  (∀ s : State, (s.dev.st = .off → exec .inboundMessageRequest s = .next s) ∧ (s.dev.st ≠ .off →
    exec .inboundMessageRequest s = .next { s with
      svcLog := .message s.arg.a :: s.svcLog, responses := ⟨.unsupported, [], []⟩ :: s.responses })) ∧
  ∀ (s : State) r, s.arg.body = .inbound r →
    let covers := fun (e : InboundEntry) => e.base * 65536 ≤ r.addr ∧ r.addr + r.size ≤ (e.base + e.len) * 65536
    let some_ := ∃ p ∈ s.dev.inbound, covers p.2
    let writable := ∃ p ∈ s.dev.inbound, covers p.2 ∧ p.2.w = true
    (s.dev.st = .off → exec .inboundRequest s = .next s) ∧
    (s.dev.st = .bringup ∨ s.dev.st = .failed → FaultsPeer s r 5) ∧
    (s.dev.st = .ready → spaceOf r.addr = .window → FaultsPeer s r 3) ∧
    (s.dev.st = .ready → spaceOf r.addr = .hbm ∨ spaceOf r.addr = .plain → ¬ some_ → FaultsPeer s r 1) ∧
    (s.dev.st = .ready → spaceOf r.addr = .reserved ∨ spaceOf r.addr = .link → FaultsPeer s r 1) ∧
    (s.dev.st = .ready → spaceOf r.addr = .hbm ∨ spaceOf r.addr = .plain → some_ → ¬ writable → r.op ≠ .read →
      FaultsPeer s r 2) ∧
    (s.dev.st = .ready → spaceOf r.addr = .hbm → writable → s.stackGone r.addr = false → inboundForm r = true →
      s.home 8 r.addr = .held → s.time ≤ (s.lastFrame 8 r.addr).since + 200000 → exec .inboundRequest s = .next s) ∧
    (∀ q, s.dev.st = .ready → spaceOf r.addr = .hbm → some_ → s.stackGone r.addr = false → s.home 8 r.addr = .here q →
      (∀ j < r.size, s.home 8 (r.addr + j) = .here (q + j)) → Roomy s →
      spaceOf q = .hbm → q % 128 = r.addr % 128 → r.addr % 128 + r.size ≤ 128 → Memory.wf s.mem = true →
      (r.op = .read → 1 ≤ r.size → r.addr % upPow2 r.size + r.size ≤ upPow2 r.size →
        ServesPeer s (s.homeBytes q r.size)
          ((List.range r.size).map fun j => s.poisoned (q + j)) fun u => u.mem = s.mem ∧ u.poison = s.poison) ∧
      (∀ bs ms, writable → r.op = .write bs ms → bs.length = r.size → 1 ≤ r.size →
        r.addr % upPow2 r.size + r.size ≤ upPow2 r.size → ServesPeer s [] [] fun u =>
          (∀ j < r.size, Mem.get u.mem (q + j) = bs.getD j 0 ∧ (ms.getD j false = true → u.poisoned (q + j) = true)) ∧
          ∀ a, a < q ∨ q + r.size ≤ a → Mem.get u.mem a = Mem.get s.mem a) ∧
      (∀ op w x y, writable → r.op = .atomic op w x y → 0x09 ≤ op → op ≤ 0x12 → r.size = (if w then 8 else 4) →
        r.addr % r.size = 0 → s.poisoned q = false →
        let old := ofBytes (s.homeBytes q r.size)
        ServesPeer s (toBytes r.size old) [] fun u =>
          Mem.getBytes u.mem q r.size = toBytes r.size (atomOp op r.size old (x.toNat % 2 ^ (8 * r.size)) (y.toNat % 2 ^ (8 * r.size))) ∧
          ∀ a, a < q ∨ q + r.size ≤ a → Mem.get u.mem a = Mem.get s.mem a))

/-- R358, R416, R424: a request to a peer that receives a fault response, or none within 200 µs, fails: whoever waits for its
data, a load, a task or an operation under a counter, finds PEERF with the response's SUB, or PEERT, in its place; the block
of 256 bytes that a copy reads is lost; any other request sets PEERPOST of its launch, or of its context once the launch is
gone. A request that a trunk without an UP port holds gets no response. The service cores log each. -/
def Sys2Proof.Claims.PeersFail : Prop :=
  ∀ s : State,
    let id := s.arg.a
    let fails := fun i code sub (r : PeerReq) =>
      (r.kind = .opRead → r.gid = goneGid → NothingHeld s) → Occurs i s fun u => u.mem = s.mem ∧ u.groups = s.groups ∧
        u.svcLog = .peer s.dev.devNum r.dev ((s.window r.pa).toNat / 2 ^ 36 * 2 ^ 36 + r.pa % 2 ^ 36) sub :: s.svcLog ∧
        (∀ k, k ≠ id → u.peers.find k = s.peers.find k) ∧
        (r.kind ∈ [.load, .taskRead, .opRead] → u.peers.find id = some { r with done := true, cause := code + 256 * sub }) ∧
        (r.kind ∉ [.load, .taskRead, .opRead] → (s.peers.map (·.1)).Nodup → u.peers.find id = none) ∧
        (∀ x, r.kind = .copyRead → s.copies.find r.owner = some x →
          u.copies.find r.owner = some { x with linkBad := r.pa / 256 :: x.linkBad } ∧ u.launches = s.launches) ∧
        (∀ l, r.kind ∈ [.posted, .copyWrite, .taskWrite] → s.launches.find r.launch = some l → l.hasEnded = false →
          u.launches.find r.launch = some { l with chkiv := l.chkiv ||| 0x04 }) ∧
        (r.kind ∈ [.posted, .copyWrite, .taskWrite] → s.launches.find r.launch = none →
          (u.ctx r.ctx).chkAcc = (s.ctx r.ctx).chkAcc ||| 0x04)
    (s.peers.find id = none → exec .peerFaultResponse s = .next s ∧ exec .peerTimeout s = .next s) ∧
    ∀ r, s.peers.find id = some r →
      (r.done = true → exec .peerFaultResponse s = .next s ∧ exec .peerTimeout s = .next s) ∧
      (s.arg.b ∉ [1, 2, 3, 5] ∨ r.port = none ∨ r.when + 200000 < s.time → exec .peerFaultResponse s = .next s) ∧
      (r.done = false → r.port ≠ none → s.time ≤ r.when + 200000 → s.arg.b ∈ [1, 2, 3, 5] → fails .peerFaultResponse 0x15 s.arg.b r) ∧
      (s.time < r.when + 200000 → exec .peerTimeout s = .next s) ∧
      (r.done = false → r.when + 200000 ≤ s.time → fails .peerTimeout 0x16 1 r)

/-- R22, R426, R427: the states of a link port. A port trains, is UP, retrains after an error for 1 ms at most, and is fenced
by the third failure of its training in a row, with an interrupt; the driver fences, returns and retires it. What it carried
leaves by another UP port of the trunk, and what the trunk held leaves as a port joins. On a FAILED device nothing happens. -/
def Sys2Proof.Claims.PortLife : Prop :=
  ∀ s : State, (s.links.map (·.1)).Pairwise (· < ·) →
    let p := s.arg.a
    let x := s.link p
    let part : PartRef := ⟨.linkPort, p⟩
    let alive := s.dev.st ≠ .failed
    let only := fun i (ok : Prop) => (¬ ok ∨ ¬ alive → exec i s = .next s)
    only .portTrained (p < 64 ∧ x.st = .training) ∧
    only .trainingTimeout (p < 64 ∧ x.st = .training ∧ x.since + 10000000 ≤ s.time) ∧
    only .linkErrorRetrain (p < 64 ∧ x.st = .up) ∧
    only .retrainDone (p < 64 ∧ x.st = .retrain ∧ s.time ≤ x.since + 1000000) ∧
    only .retrainTimeout (p < 64 ∧ x.st = .retrain ∧ x.since + 1000000 ≤ s.time) ∧
    (alive → p < 64 → x.st = .training →
      Occurs .portTrained s (fun u => PortGoes s u p .up ∧ (u.link p).fails = 0 ∧ (u.link p).returning = false ∧
        FlitsLeave s u p ∧ (x.returning = false → u.dev = s.dev) ∧
        (x.returning = true → part ∉ u.dev.fenced ∧ (s.dev.st = .ready → u.dev.epoch = s.dev.epoch + 1) ∧
          u.dev.actions = s.dev.actions.erase ⟨part, .restore⟩)) ∧
      (x.since + 10000000 ≤ s.time → x.fails + 1 < 3 → Occurs .trainingTimeout s fun u => PortGoes s u p .training ∧
        (u.link p).fails = x.fails + 1 ∧ (u.link p).since = s.time ∧ u.dev = s.dev ∧ u.irqs = s.irqs) ∧
      (x.since + 10000000 ≤ s.time → 3 ≤ x.fails + 1 → Occurs .trainingTimeout s fun u => PortGoes s u p .fenced ∧
        part ∈ u.dev.fenced ∧ u.irqs = .linkFenced p :: s.irqs ∧ FlitsMove s u p ∧
        (s.dev.st = .ready → u.dev.epoch = s.dev.epoch + 1 ∧ u.dev.degraded = true))) ∧
    (alive → p < 64 → x.st = .up → Occurs .linkErrorRetrain s fun u => PortGoes s u p .retrain ∧ (u.link p).since = s.time ∧
      FlitsMove s u p ∧ u.dev = s.dev) ∧
    (alive → p < 64 → x.st = .retrain → s.time ≤ x.since + 1000000 → Occurs .retrainDone s fun u => PortGoes s u p .up ∧
      FlitsLeave s u p ∧ u.dev = s.dev) ∧
    (alive → p < 64 → x.st = .retrain → x.since + 1000000 ≤ s.time → Occurs .retrainTimeout s fun u =>
      PortGoes s u p .training ∧ (u.link p).fails = 0 ∧ (u.link p).since = s.time ∧ u.dev = s.dev) ∧
    (s.dev.st = .ready →
      (64 ≤ p → ∀ i ∈ ([.linkFence, .linkReturn, .linkRetire] : List Instr), Answers i s .badReq []) ∧
      (p < 64 → s.excluded part = true → ∀ i ∈ ([.linkFence, .linkReturn, .linkRetire] : List Instr), Answers i s .busy []) ∧
      (p < 64 → s.excluded part = false →
        let living := x.st = .up ∨ x.st = .retrain ∨ x.st = .training
        (¬ living → Answers .linkFence s .badState []) ∧
        (living → Served .linkFence s .ok fun u => PortGoes s u p .fenced ∧ part ∈ u.dev.fenced ∧
          u.dev.epoch = s.dev.epoch + 1 ∧ u.dev.degraded = true ∧ FlitsMove s u p) ∧
        (x.st ≠ .fenced → Answers .linkReturn s .badState [] ∧ Answers .linkRetire s .badState []) ∧
        (x.st = .fenced →
          Served .linkReturn s .ok (fun u => PortGoes s u p .training ∧ (u.link p).returning = true ∧
            (u.link p).since = s.time ∧ u.dev.actions = s.dev.actions ++ [⟨part, .restore⟩] ∧ u.dev.epoch = s.dev.epoch) ∧
          Served .linkRetire s .ok fun u => PortGoes s u p .retired ∧ part ∈ u.dev.mapped ∧ part ∉ u.dev.fenced ∧
            u.dev.fuses = s.dev.fuses ∧ u.dev.epoch = s.dev.epoch + 1)))

/-! ## The stack, the loss of parts, channel dies -/

namespace Sys2Proof.Claims

open Sys2Proof Sys2Proof.Machine

/-- A bus goes to a state that `x` gives; the other buses, memory and the groups stay. -/
def BusGoes (s u : State) (b : Nat) (x : Bus) : Prop :=
  u.bus b = x ∧ (∀ k, k / 1984 ≠ b / 1984 ∨ k % 1984 ≠ b % 1984 → u.bus k = s.bus k) ∧ u.mem = s.mem ∧ u.groups = s.groups ∧
    u.launches = s.launches

/-- The engine or core of a bus, by its number within its tower; none for a tensor-store bus (R428). -/
def busOwner (n : Nat) : Option (Nat × Nat × Nat) :=
  if n < 192 then some (0, n / 16, n % 16 / 2) else if n < 288 then some (0, (n - 192) / 8, (n - 192) % 8)
  else if n < 1824 then some (1, (n - 288) / 16, 0) else none

/-- A bus is lost: no retries and no action of it are left, the transfer log tells, and the engine or core that it serves is
fenced; EPOCH advances in READY, once for the bus and once for each part fenced with it (R435, R437; DEDUCED: log entry
63). -/
def BusIsLost (s u : State) (b : Nat) : Prop :=
  (u.bus b).st = .lost ∧ (u.bus b).retries = [] ∧ (⟨s.time, b / 1984, 3, b % 1984, 0xFF, 0, 0⟩ : XferLog) ∈ u.xferLog ∧
    (∀ a ∈ u.dev.actions, a.part ≠ ⟨.bus, b⟩) ∧
    s.dev.fenced.length ≤ u.dev.fenced.length ∧
    (s.dev.st = .ready → u.dev.epoch + s.dev.fenced.length = s.dev.epoch + 1 + u.dev.fenced.length ∧ u.dev.degraded = true) ∧
    (∀ cl eng, busOwner (b % 1984) = some (0, cl, eng) →
      ((u.cluster (12 * (b / 1984) + cl)).engines.findD eng freshEngine).fenced = true ∧
      ∀ q ∈ (u.cluster (12 * (b / 1984) + cl)).queues, (∀ t ∈ q.2.tasks, t.st = .running → t.eng = eng → t.worked = true) ∧
        (∀ p ∈ q.2.aids, p.2.1 ≠ eng) ∧ ∀ p ∈ q.2.bids, p.2.1 ≠ eng) ∧
    (∀ core x, busOwner (b % 1984) = some (1, core, x) → (⟨.core, 96 * (b / 1984) + core⟩ : PartRef) ∈ u.dev.fenced)

/-- The retries of a lane of a bus that are less than a second old (R434). -/
def recentRetries (s : State) (b lane : Nat) : Nat :=
  ((s.bus b).retries.filter fun r => r.1 == lane && decide (s.time - r.2 < 1000000000)).length

/-- A lane that cannot be replaced: a strobe, or every spare is in use (R429, R430). -/
def noSpareFor (x : Bus) (lane : Nat) : Prop := lane = 64 ∨ lane = 65 ∨ 4 ≤ x.swapped.length

/-- Every launch that still has a team to place fits its tower (R134). -/
def AllFit (s : State) : Prop := ∀ x ∈ s.launches, s.stillPlaces x.1 x.2 = true → s.towerHolds x.2 = true

end Sys2Proof.Claims

/-- R21, R431 to R436, R439: a vertical bus falls due, retrains while no other of its core or engine does, and returns to
service. A retry is attributed to its lanes and logged; the third of a lane that cannot be replaced, and the sixteenth
failure in a row, lose the bus; a lane with three, or one that a swap names, is repaired in its turn: the bus quiesces, is repaired onto
a spare and returns, or is lost. -/
def Sys2Proof.Claims.VerticalBuses : Prop :=
  ∀ s : State,
    let b := s.arg.a
    let x := s.bus b
    let part : PartRef := ⟨.bus, b⟩
    let serving := x.st = .service ∨ x.st = .due
    let sibling := ∃ k, k / 1984 = b / 1984 ∧ k ≠ b ∧ busOwner (b % 1984) ≠ none ∧ busOwner (k % 1984) = busOwner (b % 1984) ∧
      (s.bus k).st = .retrain
    (b < 7936 → x.st = .service → Occurs .busRetrainDue s fun u => BusGoes s u b { x with st := .due, dueAt := s.time }) ∧
    (7936 ≤ b ∨ x.st ≠ .service → exec .busRetrainDue s = .next s) ∧
    (b < 7936 → x.st = .due → ¬ sibling → Occurs .busRetrainStart s fun u => BusGoes s u b { x with st := .retrain }) ∧
    (7936 ≤ b ∨ x.st ≠ .due ∨ sibling → exec .busRetrainStart s = .next s) ∧
    (b < 7936 → x.st = .retrain → Occurs .busRetrainDone s fun u =>
      BusGoes s u b { x with st := .service, trained := s.time } ∧
      u.xferLog = ⟨s.time, b / 1984, 2, b % 1984, 0xFF, 0, 0⟩ :: s.xferLog) ∧
    (7936 ≤ b ∨ x.st ≠ .retrain → exec .busRetrainDone s = .next s) ∧
    (∀ l, s.arg.body = .nats [l] → l < 70 → b < 7936 → serving →
      let n := recentRetries s b l + 1
      let fails := if s.arg.flag = true then x.fails + 1 else 1
      let lost := 16 ≤ fails ∨ (noSpareFor x l ∧ 3 ≤ n)
      (lost → Occurs .burstRetry s fun u => BusIsLost s u b) ∧
      (¬ lost → Occurs .burstRetry s fun u => BusGoes s u b { x with
          retries := (l, s.time) :: x.retries.filter (fun r => decide (s.time - r.2 < 1000000000)), fails := fails } ∧
        u.xferLog = ⟨s.time, b / 1984, 0, b % 1984, l, s.arg.b % 2, min n 255⟩ :: s.xferLog)) ∧
    (7936 ≤ b ∨ ¬ serving → exec .burstRetry s = .next s ∧ exec .laneRepairStart s = .next s) ∧
    (let asked := s.firstAction part = some (.swap s.arg.b)
     let due := s.excluded part = false ∧ (asked ∨ (s.firstAction part = none ∧ 3 ≤ recentRetries s b s.arg.b))
     (b < 7936 → serving → ¬ due → exec .laneRepairStart s = .next s) ∧
     (b < 7936 → serving → due → noSpareFor x s.arg.b → Occurs .laneRepairStart s fun u => BusIsLost s u b) ∧
     (b < 7936 → serving → due → ¬ noSpareFor x s.arg.b → Occurs .laneRepairStart s fun u =>
       BusGoes s u b { x with st := .quiesce, repairing := s.arg.b } ∧
       u.dev.actions = if asked then s.dev.actions else s.dev.actions ++ [⟨part, .repair⟩])) ∧
    (b < 7936 → x.st = .quiesce → Occurs .quiesceDone s fun u => BusGoes s u b { x with st := .repair }) ∧
    (7936 ≤ b ∨ x.st ≠ .quiesce → exec .quiesceDone s = .next s) ∧
    (7936 ≤ b ∨ x.st ≠ .repair → exec .repairDone s = .next s) ∧
    (b < 7936 → x.st = .repair → s.arg.flag = false → Occurs .repairDone s fun u => BusIsLost s u b) ∧
    (b < 7936 → x.st = .repair → s.arg.flag = true → Occurs .repairDone s fun u =>
      BusGoes s u b { x with st := .service, swapped := x.swapped ++ [x.repairing], trained := s.time
                             retries := x.retries.filter (fun r => r.1 != x.repairing) } ∧
      u.xferLog = ⟨s.time, b / 1984, 1, b % 1984, x.repairing, 0, min (recentRetries s b x.repairing) 255⟩ :: s.xferLog ∧
      (s.dev.st = .ready → u.dev.epoch = s.dev.epoch + 1)) ∧
    (s.dev.st = .ready →
      (7936 ≤ b ∨ 70 ≤ s.arg.b → Answers .busLaneRecalibrate s .badReq []) ∧
      (b < 7936 → s.arg.b < 70 → x.st = .lost ∨ (s.arg.flag = true ∧ noSpareFor x s.arg.b) →
        Answers .busLaneRecalibrate s .badState []) ∧
      (b < 7936 → s.arg.b < 70 → x.st ≠ .lost → s.arg.flag = false ∨ ¬ noSpareFor x s.arg.b →
        (s.excluded part = true → Answers .busLaneRecalibrate s .busy []) ∧
        (s.excluded part = false → Accepts .busLaneRecalibrate s [] fun u =>
          u.dev.actions = s.dev.actions ++ [⟨part, if s.arg.flag = true then .swap s.arg.b else .recalibrate⟩])))

/-- R17, R125, R437, R438, R440 to R442: a part of a READY device that is lost is fenced, EPOCH advances and DEGRADED is set;
what it serves goes with it. The patrol logs a corrected error, and marks the sector of an uncorrectable one. A home channel
gets its token back, and loses a ring; a slice whose channel has fewer than twelve wavelengths is asked to retire. -/
def Sys2Proof.Claims.PartsAreLost : Prop :=
  (∀ (s : State) p, s.arg.body = .part p →
    let gone := p ∈ s.dev.fenced ∨ p ∈ s.dev.mapped
    let count := if p.kind = .core then 384 else if p.kind = .channelDie then 32 else if p.kind = .l2Slice then 192
      else if p.kind = .hbmStack then 16 else if p.kind = .linkPort then 64 else if p.kind = .tsBank then 256
      else if p.kind = .bus then 7936 else if p.kind = .spadLayer then 4
      else if p.kind = .spadBank then 6144 else 16
    (s.dev.st ≠ .ready ∨ count ≤ p.idx ∨ gone → exec .partLost s = .next s) ∧
    (s.dev.st = .ready → p.idx < count → ¬ gone →
      (p.kind = .tsBank → Occurs .partLost s fun u => u.mem = s.mem ∧ u.groups = s.groups ∧ u.dev.fenced = p :: s.dev.fenced ∧
        u.dev.epoch = s.dev.epoch + 1 ∧ u.dev.degraded = true) ∧
      (p.kind = .hbmStack → Occurs .partLost s fun u => u.mem = s.mem ∧ u.groups = s.groups ∧ u.dev.mapped = p :: s.dev.mapped ∧
        u.dev.epoch = s.dev.epoch + 1 ∧ u.dev.degraded = true) ∧
      (p.kind = .linkPort → Occurs .partLost s fun u => u.mem = s.mem ∧ u.groups = s.groups ∧ p ∈ u.dev.fenced ∧
        (u.link p.idx).st = .fenced ∧ u.irqs = .linkFenced p.idx :: s.irqs ∧ u.dev.epoch = s.dev.epoch + 1) ∧
      (p.kind = .bus → (s.bus p.idx).st ≠ .lost → Occurs .partLost s fun u => BusIsLost s u p.idx) ∧
      (p.kind = .core → (∀ x ∈ s.teams, p.idx ∉ x.2.cores) → AllFit (s.fencePart p) → (∀ b ∈ (s.core p.idx).bufs, b.2.parked = false) →
        Occurs .partLost s fun u => u.mem = s.mem ∧ u.groups = s.groups ∧ p ∈ u.dev.fenced ∧
          u.dev.epoch = s.dev.epoch + 1 ∧ u.dev.degraded = true) ∧
      (∀ n t, p.kind = .core → s.teams = [(n, t)] → p.idx ∈ t.cores → t.onCores = true →
        (∀ b ∈ (s.core p.idx).bufs, b.2.parked = false) →
        let v := (s.fencePart p).faultTeam n 0 0 0xFFFFFFFF 0 p.idx 1
        AllFit v → Occurs .partLost s fun u => u.mem = v.mem ∧ u.groups = v.groups ∧ u.launches = v.launches ∧ p ∈ u.dev.fenced) ∧
      (∀ n l, p.kind = .core → s.teams = [] → s.launches = [(n, l)] → (∀ b ∈ (s.core p.idx).bufs, b.2.parked = false) →
        s.stillPlaces n l = true → (s.fencePart p).towerHolds l = false → Occurs .partLost s fun u => u.mem = s.mem ∧
          u.launches = [(n, { l with st := .draining, endv := 3, footprint := [], drainAt := s.time, info := ⟨0, 0, 0, 0, 0xFFFFFFFF, 0, p.idx, 1⟩ })]) ∧
      (p.kind = .spadBank → Occurs .partLost s fun u => p ∈ u.dev.fenced ∧ (⟨.core, p.idx / 16⟩ : PartRef) ∈ u.dev.fenced ∧
        u.dev.degraded = true) ∧
      (p.kind = .spadLayer → Occurs .partLost s fun u => p ∈ u.dev.fenced ∧ u.dev.degraded = true ∧
        ∀ k < 96, (⟨.core, 96 * p.idx + k⟩ : PartRef) ∈ u.dev.fenced ∨ (⟨.core, 96 * p.idx + k⟩ : PartRef) ∈ u.dev.mapped) ∧
      (p.kind = .channelDie → Occurs .partLost s fun u => u.mem = s.mem ∧ u.groups = s.groups ∧ p ∈ u.dev.fenced ∧
        u.dev.epoch = s.dev.epoch + 1 ∧
        (s.retireAnswer p.idx = .ok → (u.tower (p.idx / 8)).dies.find (p.idx % 8) = some .retiring)) ∧
      (p.kind = .l2Slice → Occurs .partLost s fun u => u.mem = s.mem ∧ u.groups = s.groups ∧ p ∈ u.dev.fenced ∧
        u.dev.epoch = s.dev.epoch + 1 ∧
        (s.sliceAnswer p.idx = .ok → (u.tower (p.idx / 48)).slices.find (p.idx % 48) = some .stub)))) ∧
  (∀ (s : State) e, s.arg.body = .errors [e] → s.arg.a < 4 → e.layer < 4 → e.bank < 16 → e.word < 512 → e.row < 262144 →
    let sector := (4096 * (64 * e.row + 16 * e.layer + e.bank) + 8 * e.word) / 32
    Occurs .patrolScrub s fun u => u.mem = s.mem ∧ u.groups = s.groups ∧
      (∃ l, u.arrayLog = l :: s.arrayLog ∧ l.time = s.time ∧ l.tower = s.arg.a ∧ l.layer = e.layer ∧ l.bank = e.bank ∧
        l.row = e.row ∧ l.word = e.word ∧ l.core = 0xFF ∧ (∀ b, e.bit = some b → b < 72 → l.kind = 2 ∧ l.bit = b) ∧
        (e.bit = none → l.kind = 1 ∧ l.bit = 0xFF)) ∧
      (e.bit = none → sector ∈ (u.tower s.arg.a).tsPoison) ∧
      ∀ k, k ≠ sector ∨ e.bit ≠ none → (k ∈ (u.tower s.arg.a).tsPoison ↔ k ∈ (s.tower s.arg.a).tsPoison)) ∧
  (∀ s : State, s.arg.a < 240 → Occurs .tokenRegenerate s fun u => u.mem = s.mem ∧ u.groups = s.groups ∧ u.dev = s.dev ∧
    ∃ l, (u.tower (s.arg.a / 60)).lights.find (s.arg.a % 60) = some l ∧ l.tokenLost = false) ∧
  ∀ (s : State) ch, s.arg.body = .nats [ch] → s.arg.a < 4 → ch < 60 →
    let lost := (((s.tower s.arg.a).lights.find ch).map (·.lostRings)).getD 0
    Occurs .heaterTrim s fun u => u.mem = s.mem ∧ u.groups = s.groups ∧
      (∃ l, (u.tower s.arg.a).lights.find ch = some l ∧ l.lostRings = lost + 1) ∧
      (48 ≤ ch ∨ lost < 6 → u.dev = s.dev ∧ (u.tower s.arg.a).slices = (s.tower s.arg.a).slices) ∧
      (ch < 48 → 6 ≤ lost → s.sliceAnswer (48 * s.arg.a + ch) = .ok → (u.tower s.arg.a).slices.find ch = some .stub)

/-- R13, R16, R22, R23, R406 to R408: the retirement of a channel die. Of a tower's eight one may go, and one at a time; it is
RETIRING until no task runs on its tower, in REBUILD until the tower's accumulators are rebuilt, and then gated off: its fuse
is written and EPOCH advances. Outside READY it stays as it is. -/
def Sys2Proof.Claims.ChannelDies : Prop :=
  (∀ s : State, s.dev.st = .ready →
    let t := s.arg.a / 8
    let part : PartRef := ⟨.channelDie, s.arg.a⟩
    let st := fun d => if (⟨.channelDie, 8 * t + d⟩ : PartRef) ∈ s.dev.mapped then DieSt.retired else (s.tower t).dies.findD d .live
    let moving := ∃ d < 8, st d = .retiring ∨ st d = .rebuild
    (32 ≤ s.arg.a → Answers .channelDieRetire s .badReq []) ∧
    (s.arg.a < 32 → moving ∨ s.stackRetiring t = true → Answers .channelDieRetire s .busy []) ∧
    (s.arg.a < 32 → ¬ moving → s.stackRetiring t = false →
      (st (s.arg.a % 8) = .retired → Answers .channelDieRetire s .badState []) ∧
      (st (s.arg.a % 8) = .live → (∃ d < 8, st d ≠ .live) → Answers .channelDieRetire s .floor []) ∧
      ((∀ d < 8, st d = .live) → Accepts .channelDieRetire s [] fun u =>
        (u.tower t).dies.find (s.arg.a % 8) = some .retiring ∧ u.dev.actions = s.dev.actions ++ [⟨part, .retire⟩] ∧
        u.dev.mapped = s.dev.mapped)) ∧
    (4 ≤ s.arg.a ∨ 65535 < s.arg.b → Answers .retirecntSet s .badReq []) ∧
    (s.arg.a < 4 → s.arg.b ≤ 65535 → Accepts .retirecntSet s [] fun u => (u.tower s.arg.a).retireCnt = s.arg.b)) ∧
  (∀ s : State,
    let t := s.arg.a
    let ds := (s.tower t).dies
    ((∀ d ∈ ds, d.2 ≠ .retiring) → exec .dieRebuild s = .next s) ∧
    (s.tasksRun t = true ∨ s.dev.st ≠ .ready → exec .dieRebuild s = .next s) ∧
    (∀ d, ds.find? (fun x => x.2 == .retiring) = some (d, .retiring) → s.tasksRun t = false →
      s.dev.st = .ready → Occurs .dieRebuild s fun u => u.mem = s.mem ∧ u.groups = s.groups ∧ u.dev = s.dev ∧
        (u.tower t).dies.find d = some .rebuild ∧
        ∀ k c, s.clusters.find k = some c → (k / 12 = t → (u.cluster k).arm = none) ∧ (k / 12 ≠ t → u.cluster k = c))) ∧
  ∀ s : State,
    let t := s.arg.a
    let ds := (s.tower t).dies
    ((∀ d ∈ ds, d.2 ≠ .rebuild) ∨ s.dev.st ≠ .ready → exec .dieRetired s = .next s) ∧
    (∀ d, ds.find? (fun x => x.2 == .rebuild) = some (d, .rebuild) → s.dev.st = .ready → Occurs .dieRetired s fun u =>
      let part : PartRef := ⟨.channelDie, 8 * t + d⟩
      u.mem = s.mem ∧ u.groups = s.groups ∧ (u.tower t).dies.find d = some .retired ∧ part ∈ u.dev.mapped ∧
      part ∈ u.dev.fuses ∧ u.dev.actions = s.dev.actions.erase ⟨part, .retire⟩ ∧
      u.dev.epoch = s.dev.epoch + 1 ∧ u.dev.chLive ≤ s.chLiveNow)

/-! ## Tile tasks -/

namespace Sys2Proof.Claims

open Sys2Proof Sys2Proof.Machine

/-- The task that a reference names is as `p` says. -/
def TaskIs (u : State) (r : TaskRef) (p : Task → Prop) : Prop := ∃ q t, u.taskAt r = some (q, t) ∧ p t

/-- The task comes to an end with a code of R388, which its STATUS takes; memory and the groups stay. -/
def TaskEndsWith (i : Instr) (s : State) (r : TaskRef) (t : Task) (code : Nat) : Prop :=
  Occurs i s fun u => u.mem = s.mem ∧ u.groups = s.groups ∧
    TaskIs u r fun x => x = { t with st := .ended, status := t.status ||| BitVec.ofNat 64 code }

/-- Whether an earlier record orders a later one of its queue before it (R383). -/
def ordersBefore (a b : Rec) : Prop :=
  let adds := fun (r : Rec) => r.kind = 3 ∨ r.kind = 4
  let usesA := fun (r : Rec) => r.kind ≠ 0 ∧ r.kind ≠ 2
  let usesB := fun (r : Rec) => r.kind = 2 ∨ r.kind = 3 ∨ r.kind = 4
  (b.dtag0 ≠ 0 ∧ a.tag = b.dtag0) ∨ (b.dtag1 ≠ 0 ∧ a.tag = b.dtag1) ∨
  (usesA a ∧ usesA b ∧ a.aid = b.aid ∧ ¬ (adds a ∧ adds b)) ∨
  (a.bid = b.bid ∧ ((b.kind = 2 ∧ usesB a) ∨ (adds b ∧ a.kind = 2)))

/-- A profile whose channels can represent integers (R44, R49). -/
def runSound (r : Run) : Prop :=
  r.mods.length ≤ 8 ∧ (∀ m ∈ r.mods, 2 ≤ m ∧ m ≤ 256) ∧ r.mods.Pairwise Nat.Coprime ∧ 1 ≤ r.ninfo ∧ r.ninfo ≤ r.mods.length

end Sys2Proof.Claims

/-- R378, R379, R383, R385: task queues. A context has one queue on a cluster, a cluster eight; a queue is destroyed once it
is empty. A record enters the window of 64, or ends BADTASK; it becomes READY when no earlier record orders it and its signal
is at most 0. -/
def Sys2Proof.Claims.TaskQueues : Prop :=
  (∀ (s : State) r, s.dev.st = .ready → s.arg.body = .taskQueue r →
    let qs := (s.cluster r.cluster).queues
    let good := r.ctx < 64 ∧ r.cluster < 48 ∧ r.ring % 4096 = 0 ∧ 6 ≤ r.logsz ∧ r.logsz ≤ 12
    let full := 8 ≤ qs.length ∨ ∃ q ∈ qs, q.2.ctx = r.ctx
    (¬ good → Answers .taskQueueCreate s .badReq []) ∧ (good → full → Answers .taskQueueCreate s .tooMany []) ∧
    (good → ¬ full → Accepts .taskQueueCreate s [] fun u => ∃ k q, k < 8 ∧ qs.find k = none ∧
      (u.cluster r.cluster).queues.find k = some q ∧ q.ctx = r.ctx ∧ q.ring = r.ring ∧ q.logsz = r.logsz ∧ q.head = 0 ∧
      q.tail = 0 ∧ q.tasks = [] ∧ ∀ j, j ≠ k → (u.cluster r.cluster).queues.find j = qs.find j)) ∧
  (∀ s : State, s.dev.st = .ready →
    let qs := (s.cluster s.arg.a).queues
    (qs.find s.arg.b = none → Answers .taskQueueDestroy s .badReq []) ∧
    (∀ q, qs.find s.arg.b = some q → q.tasks = [] → (s.ctx q.ctx).st ≠ .destroyed → (qs.map (·.1)).Nodup →
      Served .taskQueueDestroy s .ok fun u => u.mem = s.mem ∧ u.groups = s.groups ∧
        (u.cluster s.arg.a).queues.find s.arg.b = none) ∧
    (∀ q, qs.find s.arg.b = some q → q.tasks ≠ [] → Occurs .taskQueueDestroy s fun u => u.mem = s.mem ∧
      u.groups = s.groups ∧ u.responses = s.responses ∧
      (u.cluster s.arg.a).queues.find s.arg.b = some { q with destroying := true })) ∧
  ∀ (s : State) r q t, s.arg.body = .task r → s.taskAt r = some (q, t) →
    let f := t.fields
    let badSignal := fun (a : Nat) => a ≠ 0 ∧ (2 ^ 52 ≤ a ∨ a % 8 ≠ 0)
    let ordered := ∃ a ∈ q.tasks, a.n < t.n ∧ ordersBefore a.fields f
    (t.st ≠ .queued ∨ t ∉ q.tasks.take 64 → exec .taskWindowEntry s = .next s) ∧
    (t.st = .queued → t ∈ q.tasks.take 64 →
      (f.bad = true ∨ badSignal f.dsig ∨ badSignal f.sig → Occurs .taskWindowEntry s fun u =>
        TaskIs u r fun x => x = { t with st := .ended, status := t.status ||| 4 }) ∧
      (f.bad = false → f.dsig = 0 → f.sig = 0 → Occurs .taskWindowEntry s fun u => u.mem = s.mem ∧
        TaskIs u r fun x => x = { t with st := .waiting })) ∧
    (t.st ≠ .waiting ∨ ordered → exec .taskReady s = .next s) ∧
    (t.st = .waiting → ¬ ordered →
      (f.dsig = 0 → Occurs .taskReady s fun u => u.mem = s.mem ∧
        TaskIs u r fun x => x = { t with st := .ready, order := s.fresh }) ∧
      (∀ pa e s1 h, f.dsig ≠ 0 → AtHome s1 pa h →
        s.reach r.cluster q.ctx (cfgPriv (s.ctx q.ctx).ctxcfg) .engineRead f.dsig 8 = (.ok pa e, s1) →
        s1.taskAt r = some (q, t) →
        ((BitVec.ofNat 64 (wordAt s1 h)).toInt ≤ 0 → Occurs .taskReady s fun u => TaskIs u r fun x => x.st = .ready) ∧
        (0 < (BitVec.ofNat 64 (wordAt s1 h)).toInt → Occurs .taskReady s fun u => TaskIs u r fun x => x.st = .waiting)))

/-- R374, R377, R384, R385, R389, R390: a READY task starts when it is its queue's turn and its unit and slots are free, which
are then bound to its ids. It ends RANGE if its bound exceeds the profile's range, BINDX if an id that must be bound is not
or its engine is fenced, FAULT with the cause if a page or a tensor fails; it holds for a page that is not present. Nothing
starts on a tower whose die retires. -/
def Sys2Proof.Claims.TaskStarts : Prop :=
  ∀ (s : State) r q t, s.arg.body = .task r → s.taskAt r = some (q, t) →
    let c := s.cluster r.cluster
    let f := t.fields
    let run := s.taskRun r.cluster q.ctx
    let paused := ∃ d ∈ (s.tower (r.cluster / 12)).dies, d.2 = .retiring ∨ d.2 = .rebuild
    let range := f.dbnd ≠ 0 ∧ run.top < 2 ^ f.dbnd
    let k := if f.kind = 5 ∨ f.kind = 7 then AccKind.engineWrite else AccKind.engineRead
    let priv := cfgPriv (s.ctx q.ctx).ctxcfg
    (t.st ≠ .ready ∨ paused → exec .taskStart s = .next s) ∧
    (t.st = .ready → ¬ paused →
      (range → TaskEndsWith .taskStart s r t 2) ∧
      (¬ range → (f.kind = 3 ∨ f.kind = 4 ∨ f.kind = 5 ∨ f.kind = 7) → q.aids.find f.aid = none →
        TaskEndsWith .taskStart s r t 3) ∧
      (¬ range → (f.kind = 3 ∨ f.kind = 4) → q.bids.find f.bid = none → TaskEndsWith .taskStart s r t 3) ∧
      (∀ e n, ¬ range → f.kind = 3 ∨ f.kind = 4 ∨ f.kind = 5 ∨ f.kind = 7 → q.aids.find f.aid = some (e, n) →
        (c.engines.findD e freshEngine).fenced = true ∨ (f.eng < 8 ∧ f.eng ≠ e) → TaskEndsWith .taskStart s r t 3) ∧
      (¬ range → c.bindx q f = false →
        (c.isNext r.queue q t = false → exec .taskStart s = .next s) ∧
        (c.isNext r.queue q t = true →
          (∀ l s1 code sub, s.walkRanges r.cluster q.ctx priv k f.ranges.1 = (l, s1) → firstFault l = some (code, sub) →
            s1.taskAt r = some (q, t) → Occurs .taskStart s fun u =>
              TaskIs u r fun x => x = { t with st := .ended
                                               status := t.status ||| BitVec.ofNat 64 (5 + code * 2 ^ 16 + sub * 2 ^ 24) }) ∧
          (∀ sub, f.ranges.1 = [] → s.tensorFault q.ctx f = some sub →
            TaskEndsWith .taskStart s r t (5 + 0x17 * 2 ^ 16 + sub * 2 ^ 24)) ∧
          (∀ s1 s2, s.walkRanges r.cluster q.ctx priv k f.ranges.1 = ([], s1) → s1.tensorFault q.ctx f = none →
            s1.rangesHere r.cluster q.ctx priv k f.ranges.1 = (false, s2) → s2.taskAt r = some (q, t) →
            Occurs .taskStart s fun u => TaskIs u r fun x => x = { t with hold := true }) ∧
          (∀ e a b, f.ranges.1 = [] → s.tensorFault q.ctx f = none → c.slotsFor q f = some (e, a, b) →
            Occurs .taskStart s fun u => u.mem = s.mem ∧ u.groups = s.groups ∧ (u.cluster r.cluster).lastQ = r.queue ∧
              (TaskIs u r fun x => x = { t with st := .running, eng := e, aslot := a, bslot := b }) ∧
              ∃ z, (u.cluster r.cluster).queues.find r.queue = some z ∧
                (f.needsA = true → z.aids.find f.aid = some (e, a)) ∧ (f.needsB = true → z.bids.find f.bid = some (e, b)))))) ∧
    ((s.tensorFault q.ctx f).isSome → f.kind = 2) ∧
    (∀ x, f.kind = 2 → f.tensor = true → (s.ctx q.ctx).tensorOf (f.x20 % 2 ^ 32) = some x → x.esz = 4 → 2 ≤ x.ndim →
      x.dim 0 < 256 * f.kb * f.m ∨ x.dim 1 ≤ f.x20 / 2 ^ 32 % 2 ^ 16 + 1 → s.tensorFault q.ctx f = some 2)

/-- R377, R385 to R387: the work of tasks. Only a RUNNING task of its kind whose buses are free is worked. NOTE does nothing
more, ZERO sets its rows, LOADB leaves the mantissas of its blocks in every channel, MMA of a row adds its products, DRAIN and
ACCST write what their rows hold, ACCLD adds a tile. The task is then done with its bits of STATUS. -/
def Obligations.TaskWork : Prop :=
  (∀ (s : State) k r q t, s.workOf k = some (r, q, t) ↔ s.arg.body = .task r ∧ s.taskAt r = some (q, t) ∧ t.st = .running ∧
    t.worked = false ∧ t.fields.kind = k ∧ (t.eng < 8 → ∀ b ∈ engineBuses r.cluster t.eng,
      (s.bus b).st ≠ .retrain ∧ (s.bus b).st ≠ .quiesce ∧ (s.bus b).st ≠ .repair)) ∧
  (∀ s : State, ∀ p ∈ ([(.note, 0), (.zero, 1), (.loadb, 2), (.mma, 3), (.mmag, 4), (.drain, 5), (.accld, 6), (.accst, 7)] :
      List (Instr × Nat)), s.workOf p.2 = none → exec p.1 s = .next s) ∧
  ∀ (s : State) r q t,
    let c := s.cluster r.cluster
    let f := t.fields
    let slot := c.aslot t.eng t.aslot
    let run := s.taskRun r.cluster q.ctx
    let done := fun (u : State) (m : DWord) => TaskIs u r fun x => x.worked = true ∧ x.st = .running ∧
      x.status = t.status ||| m ||| 1
    (s.workOf 0 = some (r, q, t) → Occurs .note s fun u => u.mem = s.mem ∧ u.groups = s.groups ∧ done u 0) ∧
    (s.workOf 1 = some (r, q, t) → f.emode < 2 → Occurs .zero s fun u => u.mem = s.mem ∧ u.groups = s.groups ∧ done u 0 ∧
      ∀ n, ((u.cluster r.cluster).aslot t.eng t.aslot).row n =
        if f.row0 ≤ n ∧ n < f.row0 + f.nrows then
          { res := [], eref := if f.emode = 0 then none else some (BitVec.ofNat 16 (f.p0 / 2 ^ 16)).toInt, bnd := 0, ovr := false }
        else slot.row n) ∧
    (∀ img ex, s.workOf 2 = some (r, q, t) → s.loadbBytes r q t = (some (img, ex), s) → Occurs .loadb s fun u =>
      u.mem = s.mem ∧ u.groups = s.groups ∧
      done u (if marked img = true ∨ marked ex = true ∨ 0xFF ∈ plain ex then 0x100 else 0) ∧
      let b := (u.cluster r.cluster).bslot t.eng t.bslot
      b.kb = f.kb ∧ b.mb = f.m ∧ b.lost = false ∧ ∀ j < 256, ∀ k < f.kb, ∀ i < 32,
        let e := ((plain ex).getD (j * f.kb + k) 0).toNat
        b.eb.findD (256 * k + j) 0 = e ∧ b.res.findD (256 * (32 * k + i) + j) 0 =
          run.re8 ((blockMants f.m (plain img) ((j * f.kb + k) * 4 * f.m) e).getD i 0)) ∧
    (s.workOf 3 = some (r, q, t) → f.nrows = 1 →
      let a := s.readA (8 * r.cluster + f.pad) t 0
      let o := mmaRow run (c.bslot t.eng t.bslot) f.kb f.m a.1 (slot.row f.row0)
      a.2.2 = none → Occurs .mma s fun u => u.mem = s.mem ∧ u.groups = s.groups ∧
        (∀ n, ((u.cluster r.cluster).aslot t.eng t.aslot).row n = if n = f.row0 then o.row else slot.row n) ∧
        done u ((if a.2.1 = true ∨ o.poison = true then 0x100 else 0) ||| (if o.inexact = true then 0x10 else 0) |||
          if o.ovr = true then 0x100000020 else 0)) ∧
    (∀ n, s.workOf 4 = some (r, q, t) → f.nrows = 1 → s.mmaRows (8 * r.cluster + f.pad) t = ([(0, n)], false, none) →
      let a := s.readA (8 * r.cluster + f.pad) t n
      let o := mmaRow run (c.bslot t.eng t.bslot) f.kb f.m a.1 (slot.row f.row0)
      Occurs .mmag s fun u => u.mem = s.mem ∧ u.groups = s.groups ∧
        ∀ n, ((u.cluster r.cluster).aslot t.eng t.aslot).row n = if n = f.row0 then o.row else slot.row n) ∧
    (∀ tile, s.workOf 6 = some (r, q, t) → f.nrows = 1 →
      s.engineBytes (q.agent r t.launch) 4 f.x20 2048 = (some tile, s) →
      let beyond := run.top < (slot.row f.row0).bnd + 2 ^ f.p0
      Occurs .accld s fun u => u.mem = s.mem ∧ u.groups = s.groups ∧
        let row := ((u.cluster r.cluster).aslot t.eng t.aslot).row f.row0
        (beyond → row = { slot.row f.row0 with ovr := true }) ∧
        (¬ beyond → row.bnd = (slot.row f.row0).bnd + 2 ^ f.p0 ∧ row.eref = (slot.row f.row0).eref ∧
          ∀ j < 256, ∀ m, run.mods[0]? = some m → m ≤ 256 → 1 ≤ m →
            re8Byte (row.res.getD j 0) 0 = (re8Byte ((slot.row f.row0).res.getD j 0) 0 + ((plain tile).getD j 0).toNat) % m)) ∧
    (∀ rows v s1 s2 s3 s4 w, s.workOf 7 = some (r, q, t) → s.drainPass r q t = (rows, v, s1) →
      let out := spread (accstTile run f.nrows rows)
      s.taskPut r q t f.x20 out = (some s2, s3) → s1.taskPut r q v f.x20 out = (some s4, w) →
      (s4.taskAt r).isSome → Occurs .accst s fun u => u.mem = s4.mem ∧ u.groups = s4.groups ∧
        TaskIs u r fun x => x = { v with worked := true, status := v.status ||| 1 }) ∧
    (∀ rows v s1, s.workOf 5 = some (r, q, t) → f.global = false → s.drainPass r q t = (rows, v, s1) →
      let out := lastOf s.tick (rows.flatMap fun p => drainRow f p.1 p.2.1.eref p.2.1.ovr p.2.2)
      let o := s1.taskPad r q v out
      (o.2.taskAt r).isSome → o.1.n = r.n → Occurs .drain s fun u => u.mem = o.2.mem ∧ u.cores = o.2.cores ∧
        TaskIs u r fun x => x = { o.1 with worked := true, status := o.1.status ||| 1 })

/-- R45, R48, R394 to R397: residues. An integer of the range that a profile represents reads back from its element, and the
RCU finds its element clean; a corrected value differs from what was read in the one channel that it names. -/
def Obligations.ResiduesAreExact : Prop :=
  ∀ run : Run, runSound run →
    (∀ x : Int, -((run.big / 2 : Nat) : Int) ≤ x → x ≤ run.top → run.value (run.re8 x) = x ∧ run.rcu (run.re8 x) = .clean x) ∧
    (∀ (x : Int) (c m : Nat), run.mods[c]? = some m → re8Byte (run.re8 x) c = (x % (m : Int)).toNat) ∧
    (∀ (y : DWord) x e, run.rcu y = .corrected x e → e < run.mods.length ∧ x ≤ run.top ∧
      ∀ c m : Nat, c ≠ e → run.mods[c]? = some m → re8Byte y c = (x % (m : Int)).toNat) ∧
    (∀ (y : DWord) x, run.rcu y = .clean x → x ≤ run.top ∧ ∀ c m : Nat, run.mods[c]? = some m → re8Byte y c = (x % (m : Int)).toNat)

/-- R386: the accumulation is exact. A row that holds integers, to which an MMA whose products all reach its ERef adds within
its bound, holds the integers plus the exact sums of products; they stay within the bound, and the bound within the
profile's range. A row whose bound would leave the range keeps what it holds and is marked OVERRANGE. -/
def Obligations.MmaIsExact : Prop :=
  ∀ (run : Run) kb ma mb (img ex : List Byte) (a : ARowIn) (row : ARow) er (x : Nat → Int), runSound run →
    let b := loadedB run kb mb img ex
    let o := mmaRow run b kb ma a row
    let ea := fun k => a.exps.getD k 0
    let eb := fun j k => (ex.getD (j * kb + k) 0).toNat
    let am := fun k i => (a.mants.getD k []).getD i 0
    let bm := fun j k i => (blockMants mb img ((j * kb + k) * 4 * mb) (eb j k)).getD i 0
    let live := fun j k => ea k ≠ 0 ∧ ea k ≠ 255 ∧ eb j k ≠ 0 ∧ eb j k ≠ 255
    let sh := fun (j k : Nat) => ((ea k : Int) - (ma - 2)) + ((eb j k : Int) - (mb - 2)) - er
    let sum := fun j => ((List.range kb).map fun k =>
      if live j k then ((List.range 32).map fun i => am k i * bm j k i).sum * 2 ^ (sh j k).toNat else 0).sum
    row.eref = some er → (∀ j < 256, row.res.getD j 0 = run.re8 (x j)) →
    (o.ovr = true → o.row = { row with ovr := true }) ∧
    (o.ovr = false → (∀ j < 256, ∀ k < kb, live j k → 0 ≤ sh j k) → o.inexact = false ∧ o.row.eref = some er ∧
      (∀ j < 256, o.row.res.getD j 0 = run.re8 (x j + sum j)) ∧
      (row.bnd ≤ run.top → (∀ j < 256, (x j).natAbs ≤ row.bnd) →
        o.row.bnd ≤ run.top ∧ ∀ j < 256, (x j + sum j).natAbs ≤ o.row.bnd))

/-- R378, R384, R388, R416: the end of a task. It waits until what it wrote through a link has been accepted. Its STATUS is written into its record, its launch takes the bits of CHKIV, its signal
goes down by one, the ids that it releases are free, and HEAD goes on to the next record that has not ended. -/
def Sys2Proof.Claims.TaskEnds : Prop :=
  ∀ (s : State) r q t, s.arg.body = .task r → s.taskAt r = some (q, t) →
    let f := t.fields
    let finished := t.st = .ended ∨ (t.st = .running ∧ t.worked = true)
    let ring := s.ringPlace r.cluster q.ctx (q.ring + 64 * (t.n % 2 ^ q.logsz) + 0x38)
    let out := ∃ p ∈ s.peers, p.2.kind = .taskWrite ∧ p.2.owner = taskId r
    (¬ finished ∨ out → exec .taskEnd s = .next s) ∧
    (finished → ¬ out → t.failed = [] → ring.1 = none → exec .taskEnd s = .next ring.2) ∧
    (∀ pa s1 s2 sg h, finished → ¬ out → t.failed = [] → ring = (some pa, s1) → s1.sigPlace r.cluster q.ctx f.sig = (some sg, s2) →
      AtHome s2 pa h → Memory.wf s2.mem = true → t.status &&& 0x1F0 = 0 → t.spoor = 0 →
      (s2.cluster r.cluster).queues.find r.queue = some q → ((s2.cluster r.cluster).queues.map (·.1)).Nodup →
      let s3 := (s2.putHome pa (toBytes 8 t.status.toNat)).setChk t.launch 0
      wordAt s3 h = t.status.toNat ∧
      Occurs .taskEnd s fun u => u.taskAt r = none ∧
        (sg = none → u.mem = s3.mem) ∧
        (∀ a h2, sg = some a → spaceOf a = .hbm →
          let b := s3.expel (8 * r.cluster) a
          AtHome b a h2 → Memory.wf b.mem = true → wordAt u h2 = (wordAt b h2 + (2 ^ 64 - 1)) % 2 ^ 64) ∧
        (q.destroying = false → ∃ z, (u.cluster r.cluster).queues.find r.queue = some z ∧
          z.tasks = q.tasks.filter (fun x => x.n != r.n) ∧ z.head = ((z.tasks.head?.map (·.n)).getD q.tail) ∧ z.tail = q.tail ∧
          ((q.aids.map (·.1)).Nodup → (q.bids.map (·.1)).Nodup →
            (f.rela = true → f.aid ≤ 127 → z.aids.find f.aid = none) ∧
            (f.relb = true → f.bid ≤ 127 → z.bids.find f.bid = none)))) ∧
    (∀ w : DWord, chkOfStatus w =
      (if w.getLsbD 7 || w.getLsbD 8 then 0x01 else 0) ||| (if w.getLsbD 4 then 0x10 else 0) |||
      (if w.getLsbD 5 then 0x20 else 0) ||| (if w.getLsbD 6 then (0x08 : BitVec 8) else 0))

/-! ## Queues, launches, the dispatcher, saving -/

namespace Sys2Proof.Claims

open Sys2Proof Sys2Proof.Machine

/-- A queue goes to a state with an error code, the rest of it staying. -/
def QueueGoes (s u : State) (n : Nat) (q : Queue) (st : QueueSt) (err : Nat) : Prop :=
  (u.queues.find n = some { q with st := st, err := err }) ∧ u.groups = s.groups ∧ u.teams = s.teams

/-- A launch has ended, with END and REASON. -/
def LaunchEnded (u : State) (n : Nat) (st : LaunchSt) (endv reason : Nat) : Prop :=
  ∃ l, u.launches.find n = some l ∧ l.st = st ∧ l.endv = endv ∧ l.reason = reason

/-- A block of a launch or one of its parents is cancelled; nothing is cancelled without a block. -/
def NotCancelled (l : Launch) : Prop := field l.record 0x10 8 = 0

/-- The team is to leave the cores: its groups have a halt without a cause on its way, unless they have stopped or retire. -/
def ToldToStop (s u : State) (team : Nat) (t : Team) (why : HaltWhy) : Prop :=
  u.teams.find team = some { t with st := .stopping why, stoppedAt := s.time } ∧ u.mem = s.mem ∧
    ∀ k g, s.groups.find k = some g → k ≠ 2 ^ 64 → ∃ h, u.groups.find k = some h ∧
      (g.team ≠ team → h = g) ∧
      (g.team = team → g.st ≠ .stopped → g.st ≠ .retiring → h.halt = some (decide (g.halt = some true)) ∧ h.st = g.st ∧ h.pcv = g.pcv)

end Sys2Proof.Claims

/-- R127 to R131, R457: queues. A context has sixteen, the device 1,024; a queue is CREATED by a well-formed request, becomes
ACTIVE with HEAD and TAIL as its driver set them, is suspended and resumed, which observes TAIL again, and is destroyed at once or once its launches have
ended. TAIL beyond the ring or behind HEAD suspends it with its error and an interrupt. -/
def Sys2Proof.Claims.QueueLife : Prop :=
  (∀ (s : State) r, s.dev.st = .ready → s.arg.body = .queue r →
    let c := (s.ctx r.ctx).st
    let admits := c = .created ∨ c = .resident ∨ c = .parked ∨ c = .evicted
    let live := fun (p : Nat × Queue) => p.2.st != .destroyed
    let full := 16 ≤ s.queues.countP (fun p => live p && p.2.ctx == r.ctx) ∨ 1024 ≤ s.queues.countP live
    let formed := 4 ≤ r.logsz ∧ r.logsz ≤ 16 ∧ r.prio ≤ 3 ∧ r.tower ≤ 3 ∧ r.ring % 64 = 0 ∧ r.qcb % 128 = 0
    let n := 64 * 2 ^ r.logsz
    let ring := s.translated (12 * r.tower) r.ctx (n / 65536 + 2) r.ring n
    (64 ≤ r.ctx → Answers .queueCreate s .badReq []) ∧
    (r.ctx < 64 → ¬ admits → Answers .queueCreate s .badState []) ∧
    (r.ctx < 64 → admits → full → Answers .queueCreate s .tooMany []) ∧
    (r.ctx < 64 → admits → ¬ full → ¬ formed → Answers .queueCreate s .badQ []) ∧
    (r.ctx < 64 → admits → ¬ full → formed →
      (ring.1 = false → Served .queueCreate s .badQ fun u => u.queues = s.queues) ∧
      (∀ s2, ring.1 = true → ring.2.translated (12 * r.tower) r.ctx 2 r.qcb 128 = (true, s2) → s2.queues = s.queues →
        ∃ u k q, exec .queueCreate s = .next u ∧ u.responses.head? = some ⟨.ok, toBytes 4 k, []⟩ ∧ k < 1024 ∧
          (∀ x, s.queues.find k = some x → x.st = .destroyed) ∧ u.queues.find k = some q ∧ q.st = .created ∧ q.err = 0 ∧
          q.ctx = r.ctx ∧ q.ring = r.ring ∧ q.logsz = r.logsz ∧ q.prio = r.prio ∧ q.tower = r.tower ∧ q.qcb = r.qcb ∧
          q.head = 0 ∧ q.tail = 0 ∧ ∀ j, j ≠ k → u.queues.find j = s.queues.find j))) ∧
  (∀ s : State, s.dev.st = .ready →
    let n := s.arg.a
    (s.queues.find n = none → ∀ i ∈ ([.queueActivate, .queueSuspend, .queueResume, .queueDestroy] : List Instr),
      Answers i s .badReq []) ∧
    ∀ q, s.queues.find n = some q →
      let busy := ∃ p ∈ s.launches, p.2.q = n ∧ p.2.hasEnded = false
      (q.st ≠ .created → Answers .queueActivate s .badState []) ∧
      let head := s.reach (12 * q.tower) q.ctx (cfgPriv (s.ctx q.ctx).ctxcfg) .engineRead (q.qcb + 0x40) 8
      (∀ x y z s1, q.st = .created → head = (.absent x y z, s1) →
        exec .queueActivate s = .next (s1.reportFault q.ctx (q.qcb + 0x40) 3 (96 * q.tower) x y z)) ∧
      (∀ bs s1, q.st = .created → (∀ x y z, head.1 ≠ .absent x y z) →
        head.2.frontGet (q.agent (2 ^ 64)) (q.qcb + 0x40) 8 = .ok bs s1 →
        s1.queues = s.queues → s1.groups = s.groups → s1.teams = s.teams → Served .queueActivate s .ok fun u =>
          QueueGoes s u n { q with head := ofBytes bs, tail := ofBytes bs } .active 0) ∧
      (q.st ≠ .active → Answers .queueSuspend s .badState []) ∧
      (q.st = .active → Served .queueSuspend s .ok fun u => QueueGoes s u n q .suspended q.err) ∧
      (q.st ≠ .suspended ∨ (s.ctx q.ctx).st = .faulted → Answers .queueResume s .badState []) ∧
      (q.st = .suspended → (s.ctx q.ctx).st ≠ .faulted → Served .queueResume s .ok fun u =>
        QueueGoes s u n { q with tail := q.head } .active 0) ∧
      (q.st = .draining ∨ q.st = .destroyed → Answers .queueDestroy s .badState []) ∧
      (q.st = .created ∨ q.st = .active ∨ q.st = .suspended →
        (busy → Served .queueDestroy s .ok fun u => QueueGoes s u n q .draining q.err) ∧
        (¬ busy → Served .queueDestroy s .ok fun u => QueueGoes s u n q .destroyed q.err))) ∧
  ∀ s : State,
    let n := s.arg.a
    (s.queues.find n = none → exec .tailObserve s = .next s) ∧
    ∀ q, s.queues.find n = some q → (q.st ≠ .active → exec .tailObserve s = .next s) ∧
      ∀ bs s1, q.st = .active → s.frontGet (q.agent (2 ^ 64)) q.qcb 8 = .ok bs s1 → s1.queues = s.queues →
        s1.groups = s.groups → s1.teams = s.teams →
        let t := ofBytes bs
        (t < q.head → Occurs .tailObserve s fun u => QueueGoes s u n { q with tail := t } .suspended 2 ∧
          u.irqs = .queueError n :: s1.irqs) ∧
        (q.head + 2 ^ q.logsz < t → Occurs .tailObserve s fun u => QueueGoes s u n { q with tail := t } .suspended 1 ∧
          u.irqs = .queueError n :: s1.irqs) ∧
        (q.head ≤ t → t ≤ q.head + 2 ^ q.logsz → Occurs .tailObserve s fun u => QueueGoes s u n { q with tail := t } .active q.err ∧
          u.irqs = s1.irqs)

/-- R132, R133, R142, R145, R153: the states of a launch. A record that is read is SUBMITTED; it is refused if it is not well
formed or cannot be held, and otherwise ADMITTED, and DISPATCHING once its dependences are met; a cancelled one ends or drains
CANCELLED; one that drains with nothing on its way ends as its END says. -/
def Sys2Proof.Claims.LaunchLife : Prop :=
  (∀ s : State,
    let n := s.arg.a
    (s.queues.find n = none → exec .recordRead s = .next s) ∧
    ∀ q, s.queues.find n = some q → (q.st ≠ .active ∨ q.tail ≤ q.head → exec .recordRead s = .next s) ∧
      ∀ bs s1, q.st = .active → q.head < q.tail → s1.queues = s.queues →
        ({ s with fresh := s.fresh + 1 } : State).frontGet (q.agent s.fresh) (q.ring + 64 * (q.head % 2 ^ q.logsz)) 64 =
          .ok bs s1 → field bs 0x10 8 = 0 →
        Occurs .recordRead s fun u => u.queues.find n = some { q with head := q.head + 1 } ∧ ∃ l,
          u.launches.find s.fresh = some l ∧ l.record = bs ∧ l.st = .submitted ∧ l.q = n ∧ l.ctx = q.ctx ∧ l.tower = q.tower ∧
          l.prio = q.prio ∧ l.chkiv = 0 ∧ l.placed = []) ∧
  (∀ s : State,
    let n := s.arg.a
    (s.launches.find n = none → ∀ i ∈ ([.admission, .dependenceMet, .cancellationObserved, .launchDrained] : List Instr),
      exec i s = .next s) ∧
    ∀ l, s.launches.find n = some l →
      let met := ∀ va ∈ [field l.record 0x18 8, field l.record 0x20 8], va ≠ 0 →
        ∃ b x, s.frontGet (l.agent n) va 8 = .ok b x ∧ (BitVec.ofNat 64 (ofBytes b)).toInt ≤ 0
      let turn := l.inorder = true → ∀ p ∈ s.launches, p.1 ≠ n → p.2.q = l.q → p.2.st = .admitted → l.order ≤ p.2.order
      let cancelled := s.chainCancelled (l.agent n) 1024 (field l.record 0x10 8) = true
      (l.st ≠ .submitted → exec .admission s = .next s) ∧
      (l.st = .submitted → cancelled → Occurs .admission s fun u => LaunchEnded u n .cancelled 2 0) ∧
      (∀ s1, l.st = .submitted → ¬ cancelled → s.readLaunch n l = .ok none s1 → (s1.launches.find n).isSome →
        Occurs .admission s fun u => LaunchEnded u n .refused 4 1) ∧
      (∀ d args sq s1, l.st = .submitted → ¬ cancelled → s.readLaunch n l = .ok (some (d, args, sq)) s1 →
        s1.launches.find n = some l →
        let l2 := { l with desc := d, args := args, sq := sq, order := s1.fresh }
        let s2 : State := { s1 with fresh := s1.fresh + 1, launches := s1.launches.modify n fun x =>
          { x with desc := d, args := args, sq := sq, order := s1.fresh } }
        (s2.refusal n l2 ≠ 0 → Occurs .admission s fun u => LaunchEnded u n .refused 4 (s2.refusal n l2)) ∧
        (s2.refusal n l2 = 0 → Occurs .admission s fun u => u.mem = s1.mem ∧ u.groups = s1.groups ∧ ∃ l3,
          u.launches.find n = some l3 ∧ l3.desc = d ∧ l3.args = args ∧ l3.sq = sq ∧ l3.order = s1.fresh ∧
          l3.st = if field l.record 0x18 8 = 0 ∧ field l.record 0x20 8 = 0 ∧ l.inorder = false then .dispatching else .admitted)) ∧
      (l.st ≠ .admitted ∨ ¬ met ∨ ¬ turn → exec .dependenceMet s = .next s) ∧
      (l.st = .admitted → met → turn → Occurs .dependenceMet s fun u => u.mem = s.mem ∧ u.groups = s.groups ∧
        ∃ l3, u.launches.find n = some l3 ∧ l3.st = .dispatching ∧ { l3 with st := l.st, footprint := l.footprint } = l) ∧
      (l.hasEnded = true ∨ ¬ cancelled → exec .cancellationObserved s = .next s) ∧
      (l.st = .submitted → cancelled → Occurs .cancellationObserved s fun u => LaunchEnded u n .cancelled 2 0) ∧
      (l.st = .admitted ∨ l.st = .dispatching ∨ l.st = .running → cancelled → Occurs .cancellationObserved s fun u =>
        u.mem = s.mem ∧ LaunchEnded u n .draining 2 l.reason) ∧
      (l.st ≠ .draining ∨ s.drained n = false → exec .launchDrained s = .next s) ∧
      (l.st = .draining → s.drained n = true → (∀ p ∈ s.mirrors, p.2.launch ≠ n) → l.endv ∈ [1, 2, 3] →
        Occurs .launchDrained s fun u => LaunchEnded u n
          (if l.endv = 1 then .complete else if l.endv = 2 then .cancelled else .faulted) l.endv l.reason) ∧
      (l.st = .draining → s.drained n = true → (∃ p ∈ s.mirrors, p.2.launch = n ∧ p.2.since = none) →
        Occurs .launchDrained s fun u => (u.launches.find n).map (·.st) = some .draining ∧ ∀ k p, s.mirrors.find k = some p →
          p.launch = n → p.since = none → u.mirrors.find k = some { p with since := some s.time }))

/-- R143, R144: the end sequence of a block whose words are at home. The launch's own block takes STATUS and its detail, one
above it a bit of SUMMARY; COUNT falls by one; where it comes to 0 the block above it follows, and where there is none, or
COUNT is not 0, the sequence is over. Each step is taken once the one before it has been performed; a block that cannot be
reached ends the sequence, and is logged; one that is not there yet makes it wait. -/
def Sys2Proof.Claims.EndSequence : Prop :=
  (∀ l : Launch, l.status.length = 40 ∧ (l.endv < 16 → l.reason < 16 →
    field l.status 0 8 = l.endv + 2 ^ 4 * l.reason + 2 ^ 8 * (l.info.code % 256)) ∧
    (l.info.team < 2 ^ 32 → field l.status 8 4 = l.info.team) ∧ (l.info.group < 2 ^ 16 → field l.status 12 2 = l.info.group) ∧
    (l.info.lane < 2 ^ 8 → field l.status 14 1 = l.info.lane) ∧ (l.info.stage < 2 ^ 8 → field l.status 15 1 = l.info.stage) ∧
    field l.status 16 4 = l.info.pc.toNat ∧ (l.info.part < 2 ^ 16 → field l.status 20 2 = l.info.part) ∧
    (l.info.pkind < 2 ^ 8 → field l.status 22 1 = l.info.pkind) ∧ field l.status 24 8 = l.chkiv.toNat) ∧
  (∀ (s : State) q (bs : List Byte) pa e s1 h, bs.length = 40 →
    s.endPlace q (q.block + 0x18) 40 = (.here pa e, s1) → s1.home 8 (pa / 128 * 128) = .here (h / 128 * 128) →
    h % 128 = pa % 128 → spaceOf h = .hbm → h % 64 = 24 → Roomy s1 → Memory.wf s1.mem = true →
    (s.putStatus q bs).1 = .got 0 ∧
    ∀ a, Mem.get (s.putStatus q bs).2.mem a = if h ≤ a ∧ a < h + 40 then bs.getD (a - h) 0 else Mem.get s1.mem a) ∧
  (∀ (s : State) q va pa e s1 h, s.endPlace q va 8 = (.here pa e, s1) → AtHome s1 pa h → Memory.wf s1.mem = true →
    (let u := s.endAtomic q va 0x09 (BitVec.ofInt 64 (-1))
     u.1 = .got ((wordAt s1 h + (2 ^ 64 - 1)) % 2 ^ 64) ∧ wordAt u.2 h = (wordAt s1 h + (2 ^ 64 - 1)) % 2 ^ 64) ∧
    ∀ b < 64, let u := s.endAtomic q va 0x0F (BitVec.ofNat 64 (2 ^ b))
      u.1 = .got (wordAt s1 h ||| 2 ^ b) ∧ wordAt u.2 h = wordAt s1 h ||| 2 ^ b) ∧
  (∀ (s : State) q l p s1, q.phase = 0 → s.endReady q = (p, s1) → p ≠ .stop → p ≠ .wait →
    (∀ c s2, q.first = true → s1.putStatus q l.status = (.got c, s2) → s.endStep q l = (.go { q with phase := 1 }, s2)) ∧
    (∀ b c s2, q.first = false → q.flag = some b → s1.endAtomic q (q.block + 0x18) 0x0F (BitVec.ofNat 64 (2 ^ b)) = (.got c, s2) →
      s.endStep q l = (.go { q with phase := 1 }, s2)) ∧
    (q.first = false → q.flag = none → s.endStep q l = (.go { q with phase := 1 }, s1))) ∧
  (∀ (s : State) q l c s1, q.phase = 1 → s.endAtomic q q.block 0x09 (BitVec.ofInt 64 (-1)) = (.got c, s1) →
    s.endStep q l = (if c = 0 then .go { q with phase := 2 } else .done, s1)) ∧
  (∀ (s : State) q l b s1, 2 ≤ q.phase → s.endParent q = (.got b, s1) →
    s.endStep q l = (if b = 0 then .done else .go { q with block := b, first := false, phase := 0 }, s1)) ∧
  (∀ (s : State) q l k q2 s1, s.endStep q l = (.go q2, s1) → q2.block = q.block → s.runEnd q l (k + 1) = s1.runEnd q2 l k) ∧
  ∀ (s : State) q l k,
    ((s.endStep q l).1 = .done → (s.runEnd q l (k + 1)).ends = (s.endStep q l).2.ends) ∧
    ((s.endStep q l).1 = .stop → (s.runEnd q l (k + 1)).svcLog = .endBlock q.block :: (s.endStep q l).2.svcLog) ∧
    ((s.endStep q l).1 = .wait → (s.runEnd q l (k + 1)).ends = (s.endStep q l).2.ends ++ [q]) ∧
    (q.phase = 0 → (s.endReady q).1 = .stop → (s.endStep q l).1 = .stop) ∧
    (q.phase = 0 → (s.endReady q).1 = .wait → (s.endStep q l).1 = .wait) ∧
    (q.block % 32 ≠ 0 → (s.endReady q).1 = .stop)

/-- R105, R111, R135, R145 to R147, R150, R256: the dispatcher. With no launch to place a team of it does nothing; the only
DISPATCHING launch of its tower, with a team of one group, has the team placed on the first placement that holds it, its group
ready at the kernel's entry with the arguments in its scalars. A team stuck in SQADD on its output queue is pre-empted, a held one resumed or
cancelled. -/
def Sys2Proof.Claims.DispatcherActs : Prop :=
  (∀ s : State, (∀ p ∈ s.launches, p.2.st ≠ .dispatching ∧ p.2.st ≠ .running) → exec .dispatchTeam s = .next s) ∧
  (∀ (s : State) k q n l slots snap core rest, s.queues = [(k, q)] → s.launches = [(n, l)] → s.teams = [] → q.tower = s.arg.a →
    q.prio < 4 → l.q = k → l.tower = s.arg.a → l.st = .dispatching → l.prio ≠ 0 → l.portMask = 0 → l.redundant = false →
    l.snap = false → l.nbind = 0 → l.nbuf = 0 → l.teamSize = 1 → l.coreCount = 1 → l.perCore = 1 → l.nstage = 1 →
    l.outq 0 = 255 → l.maxt 0 = 0 → l.ended = [] → l.placed = [] → 0 < l.nteams → s.areaSlots l = some (slots, snap) →
    s.placements keepAll (s.heldCores n) l.want = [[core]] :: rest →
    Occurs .dispatchTeam s fun u => ∃ t slot h, u.teams.find s.fresh = some t ∧ t.launch = n ∧ t.ctx = l.ctx ∧ t.num = 0 ∧
      t.st = .running ∧ t.cores = [core] ∧ t.members = [.on (128 * core + slot)] ∧
      (u.launches.find n).map (fun x => (x.st, x.placed)) = some (.running, [(0, 1)]) ∧
      u.groups.find (128 * core + slot) = some h ∧ h.team = s.fresh ∧ h.num = 0 ∧ h.st = .ready ∧ h.hmode = false ∧
      (∀ i < 32, lane h.pcv i = l.entry 0) ∧ h.ctxcfg = (s.ctx l.ctx).ctxcfg ∧ h.rows = [] ∧
      (∀ i < l.args.length, i < 128 → h.sreg i = l.args.getD i 0) ∧
      s.groups.find (128 * core + slot) = none ∧ slot < 128 ∧
      ∀ j, j ≠ 128 * core + slot → u.groups.find j = s.groups.find j) ∧
  (∀ (s : State) t l, s.teams.find s.arg.a = some t → s.launches.find t.launch = some l →
    let stuck := t.st = .running ∧ ∃ p ∈ s.groups, p.2.team = s.arg.a ∧ p.2.addStuck s.time (l.sq.getD (l.outq t.stage) 0) = true
    let reader := if l.outq t.stage = 255 then none else (List.range l.nstage).find? fun k => l.inq k == l.outq t.stage
    (¬ stuck ∨ reader = none → exec .backpressureTimeout s = .next s) ∧
    (∀ k, stuck → reader = some k →
      let room := (∃ p ∈ s.teams, p.2.launch = t.launch ∧ p.2.stage = k ∧ p.2.onCores = true) ∨
        s.placements keepAll (s.heldCores t.launch) l.want ≠ []
      (room → exec .backpressureTimeout s = .next s) ∧
      (¬ room → Occurs .backpressureTimeout s fun u => ToldToStop s u s.arg.a t .backpressure))) ∧
  ∀ s : State, s.dev.st = .ready →
    (s.teams.find s.arg.a = none → Answers .haltResume s .badReq [] ∧ Answers .heldTeamCancel s .badReq []) ∧
    ∀ t, s.teams.find s.arg.a = some t →
      (t.st ≠ .saved .held → Answers .heldTeamCancel s .badState [] ∧
        ((s.launches.find t.launch).isSome → Answers .haltResume s .badState [])) ∧
      (∀ l, t.st = .saved .held → s.launches.find t.launch = some l →
        (l.st = .running → Served .heldTeamCancel s .ok fun u => LaunchEnded u t.launch .draining 2 l.reason) ∧
        (l.portMask = 0 → (s.teams.map (·.1)).Nodup →
          let v : State := { s with teams := s.teams.modify s.arg.a fun x => { x with st := .saved .preempt } }
          exec .haltResume s = .next (v.answer .ok)))

/-- R94, R95, R98, R99, R105 to R107, R109, R125: stopping and saving. A halt without a cause stops a group between clauses
with its frame, one in its handler apart from it; a halt of a trap takes it to its handler with SKIDH; a single step traps
alone. Two microseconds later what a team waits on is deferred, and a team that has stopped, with no release of a barrier due,
is saved and leaves the cores. -/
def Obligations.StopAndSave : Prop :=
  (∀ s : State, (s.groups.find s.arg.a = none → exec .haltArrival s = .next s ∧ exec .sstepTrap s = .next s) ∧
    ∀ g t l, s.groups.find s.arg.a = some g → s.teams.find g.team = some t → s.launches.find t.launch = some l →
      (g.halt = none ∨ g.st = .stopped ∨ g.st = .retiring → exec .haltArrival s = .next s) ∧
      (∀ c, g.st = .ready → g.clause = some c → c.begun = true → exec .haltArrival s = .next s) ∧
      (g.halt = some false → g.postedAdd = none → g.hmode = false → g.st = .ready → g.clause = none → g.hword = 0 → g.stepDue = false →
        t.st = .stopping .preempt →
        Occurs .haltArrival s fun u => u.mem = s.mem ∧ ∃ h, u.groups.find s.arg.a = some h ∧ h.st = .stopped ∧ h.cause = 0 ∧
          h.tword = 0 ∧ h.tmask = 0 ∧ h.pcv = g.pcv ∧ (∀ i < 32, lane h.spcv i = lane g.pcv i) ∧ h.rows = g.rows ∧
          h.sregs = g.sregs ∧ h.ops = g.ops ∧ h.halt = none) ∧
      (g.halt = some false → g.postedAdd = none → g.hmode = true → g.st = .ready → g.clause = none → g.stepDue = false → t.st = .stopping .preempt →
        Occurs .haltArrival s fun u => u.mem = s.mem ∧ ∃ h, u.groups.find s.arg.a = some h ∧ h.st = .stopped ∧
          h.cause = g.cause ∧ h.spcv = g.spcv ∧ h.pcv = g.pcv ∧ h.hword = g.hword ∧ h.hmode = true ∧ h.halt = none) ∧
      (g.halt = some true → g.postedAdd = none → g.hmode = false → g.st = .ready → g.clause = none → g.hword = 0 → g.stepDue = false →
        t.st = .running → l.handler ≠ exitPc →
        Occurs .haltArrival s fun u => u.mem = s.mem ∧ ∃ h, u.groups.find s.arg.a = some h ∧ h.st = .ready ∧ h.hmode = true ∧
          h.cause = 0x70 ∧ h.skidn = g.skid ∧ (∀ i < 32, lane h.spcv i = lane g.pcv i) ∧
          ∀ i < 32, lane h.pcv i = if lane g.pcv i = exitPc then exitPc else l.handler) ∧
      (g.stepDue = false ∨ g.st ≠ .ready ∨ g.clause.isSome → exec .sstepTrap s = .next s) ∧
      (g.stepDue = true → g.st = .ready → g.clause = none → g.hmode = false → t.st = .running → l.handler ≠ exitPc →
        Occurs .sstepTrap s fun u => u.mem = s.mem ∧ ∃ h, u.groups.find s.arg.a = some h ∧ h.st = .ready ∧ h.hmode = true ∧
          h.cause = causeWord 0x61 0 0 g.tmask ∧ h.tmask = g.tmask ∧ h.tword = 0 ∧
          (∀ i < 32, lane h.spcv i = lane g.pcv i) ∧ (∀ i < 32, lane h.pcv i = if lane g.pcv i = exitPc then exitPc else l.handler) ∧
          ∀ k x, k ≠ s.arg.a → s.groups.find k = some x → u.groups.find k = some x)) ∧
  (∀ (s : State) t,
    let n := s.arg.a
    let leaves := (∃ w, t.st = .stopping w ∧ w ≠ .discard) ∧
      (∀ p ∈ s.groups, p.2.team = n → p.2.st = .stopped ∨ p.2.st = .retiring) ∧ t.stoppedAt + 2000 ≤ s.time
    s.teams.find n = some t →
    (¬ leaves → exec .deferralTimeout s = .next s) ∧
    (∀ gid g o m, leaves → s.groups = [(gid, g)] → g.team = n → g.ops = [o] → o.act = .cwait m →
      Occurs .deferralTimeout s fun u => u.mem = s.mem ∧ ∃ h, u.groups.find gid = some h ∧ h.ops = [] ∧
        h.deferred = g.deferred ++ [deferEntry 2 o.opc o.dc o.sz 0 m [] []] ∧ h.dcs = g.dcs)) ∧
  (∀ s : State, s.teams.find s.arg.a = none → exec .deferralTimeout s = .next s ∧ exec .teamSave s = .next s) ∧
  ∀ (s : State) t l, s.teams.find s.arg.a = some t → s.launches.find t.launch = some l →
    let n := s.arg.a
    let all := fun (p : GroupSt → Prop) => ∀ x ∈ s.groups, x.2.team = n → p x.2.st
    let idle := (∀ x ∈ s.groups, x.2.team = n → x.2.ops = []) ∧ (∀ c ∈ s.copies, c.2.team ≠ n) ∧ t.binds = []
    let due := ∃ b ∈ t.bars, b.arr = b.exp ∧ 0 < b.arr
    let saved := fun (u : State) (why : HaltWhy) => (∀ x ∈ u.groups, x.2.team ≠ n) ∧
      (u.teams.find n).map (·.st) = some (.saved why)
    (t.st = .running ∨ t.st = .prologue ∨ t.st = .stopping .discard → exec .teamSave s = .next s) ∧
    (l.portMask = 0 → t.st = .stopping .preempt → ¬ (all (· = .stopped) ∧ idle ∧ ¬ due) → exec .teamSave s = .next s) ∧
    (∀ s1, l.portMask = 0 → t.st = .stopping .preempt → all (· = .stopped) → idle → ¬ due → s.saveTeam n t .preempt = .ok () s1 →
      (s1.teams.find n).isSome → exec .teamSave s = .next s1 ∧ saved s1 .preempt) ∧
    (t.st = .stopping .rollback → all (fun x => x = .stopped ∨ x = .retiring) → Occurs .teamSave s fun u =>
      saved u .rollback ∧ ((s.copies.map (·.1)).Nodup → ∀ c ∈ u.copies, c.2.team ≠ n))

/-- R107, R110, R111, R344: a save record holds its group. A group read from the record of a stopped group has its program
counters, frame, special registers, counters, vector and scalar registers, port queues and deferred operations; a team record
its barriers and byte counters. -/
def Obligations.SaveRecordHolds : Prop :=
  (∀ g b : Group, (g.rows.map (·.1)).Pairwise (· < ·) → (∀ p ∈ g.rows, p.1 < 64) → g.tword < 16 → g.skidn < 64 → g.hword < 16 →
    g.dphase < 32 → (∀ k, g.dc k < 64) → (∀ q < 224, (g.queue q).length ≤ 8 ∧ ∀ e ∈ g.queue q, e.arrived = true) →
    g.cause.toNat < 2 ^ 32 → g.ctxcfg &&& cfgMask = g.ctxcfg → g.deferred.length ≤ 80 → (∀ d ∈ g.deferred, d.length = 128) →
    let r := g.saveRecord
    let h := b.ofRecord r g.rest
    r.length = 0x2240 + 128 * (g.rows.length + g.deferred.length) ∧ h.st = .stopped ∧
    (∀ i < 32, lane h.pcv i = lane g.pcv i ∧ lane h.rev i = lane g.rev i ∧
      (g.hmode = true ∨ g.trapPending = true → lane h.spcv i = lane g.spcv i)) ∧
    h.cause = g.cause ∧ h.tword = g.tword ∧ h.skidn = g.skidn ∧ h.tmask = g.tmask ∧ h.pidx = g.pidx ∧ h.ctxcfg = g.ctxcfg ∧
    h.dphase = g.dphase ∧ h.hmode = g.hmode ∧ h.trapPending = g.trapPending ∧ h.pendHalt = g.pendHalt ∧
    (g.hmode = true → h.hword = g.hword) ∧ (∀ k < 6, h.dc k = g.dc k) ∧ (∀ n < 128, h.sreg n = g.sreg n) ∧
    (∀ v < 64, ∀ i < 32, lane (h.vreg v) i = lane (g.vreg v) i) ∧ h.rows.map (·.1) = g.rows.map (·.1) ∧
    (∀ q < 224, h.queue q = g.queue q) ∧ h.deferred = g.deferred) ∧
  ∀ (t b : Team) gs, (∀ k < 4, (t.bar k).arr < 4096 ∧ (t.bar k).exp < 4096) → (∀ j k, (t.bc j k).1 < 2 ^ 64 ∧ (t.bc j k).2 < 2 ^ 64) →
    (∀ g ∈ gs, g.num < 2048) → (gs.map (·.num)).Nodup →
    let r := t.record gs
    r.length = 4160 ∧ (∀ k < 4, (b.ofRecord r).bar k = t.bar k) ∧ (∀ j < 16, ∀ k < 8, (b.ofRecord r).bc j k = t.bc j k) ∧
    ∀ g ∈ gs, ∀ k < 4, (barsFrom r g.num).getD k .none = g.bar k

namespace Sys2Proof.Claims

open Sys2Proof Sys2Proof.Machine

/-- The words of instructions one after another (R55). -/
def wordsOf (is : List Instr) : List Word := is.flatMap encode

/-- Instructions with words, each a well-formed one. -/
def Encodable (is : List Instr) : Prop := ∀ i ∈ is, i.isEvent = false ∧ i.WellFormed

/-- The header of R54: a length, a class of R69 and bits [13:0] zero. -/
def HeaderGood (w : Word) : Prop := w.toNat / 2 ^ 28 ≠ 0 ∧ w.toNat / 2 ^ 25 % 8 ≤ 3 ∧ w.toNat % 2 ^ 14 = 0

/-- Instructions that may not stand together in a clause of class `cls`: one of another class, or one behind a control
transfer (R55, R69). -/
def IllStructured (cls : Nat) (is : List Instr) : Prop :=
  (∃ i ∈ is, ∃ k, i.cls = some k ∧ k ≠ cls) ∨ ∃ i ∈ is.dropLast, i.isTransfer = true

/-- The opcodes that no table of R70 to R73 assigns. -/
def Unassigned (w : Word) : Prop :=
  let op := w.toNat / 2 ^ 24
  (0x60 ≤ op ∧ op < 0x80) ∨ (0xBC ≤ op ∧ op < 0xC0) ∨ 0xDF ≤ op

/-- An instruction of a row written in hexadecimal words and what stands there. -/
def Reads (ws : List Word) (i : Instr) : Prop := decode ws = .ok (i, [])

/-- Lane `n` of a row that may be read early: the old or the new value. -/
def OldOrNew (old new x : Row) (n : Nat) : Prop := lane x n = lane old n ∨ lane x n = lane new n

end Sys2Proof.Claims

/-- R53, R55, R59 to R67, R70 to R73: decoding the words of a well-formed instruction gives it back with every operand,
whatever follows; and words that decode are those of the well-formed instruction they decode to, so no bit of a word is
dropped. -/
def Obligations.DecodeAndEncodeAgree : Prop :=
  (∀ (i : Instr) rest, i.isEvent = false → i.WellFormed → decode (encode i ++ rest) = .ok (i, rest)) ∧
  ∀ ws (i : Instr) rest, decode ws = .ok (i, rest) → i.isEvent = false ∧ i.WellFormed ∧ encode i ++ rest = ws

/-- R54, R55, R69, R74, R75: the check of a fetched clause. It finds nothing exactly if the header is good and the words
are those of instructions of the clause's class, a control transfer last, none with a reserved field and none privileged
without PRIV; otherwise the highest cause counts, in the order ILLCL, ILLOP, RSVF, PRIV. -/
def Sys2Proof.Claims.ClauseDefects : Prop :=
  ∀ (w : Word) (priv : Bool) (ws : List Word), ws.length ≤ 15 →
    let cls := w.toNat / 2 ^ 25 % 8
    let found := checkClause (headerOf w) priv ws
    (¬ HeaderGood w → found = some 0x01) ∧
    (HeaderGood w →
      (found = none ↔ ∃ is, wordsOf is = ws ∧ Encodable is ∧ ¬ IllStructured cls is ∧
        ∀ i ∈ is, i.rsvf = false ∧ (i.privileged = true → priv = true)) ∧
      (∀ is, wordsOf is = ws → Encodable is →
        (IllStructured cls is → found = some 0x01) ∧
        (¬ IllStructured cls is → (∃ i ∈ is, i.rsvf = true) → found = some 0x03) ∧
        (¬ IllStructured cls is → (∀ i ∈ is, i.rsvf = false) → (∃ i ∈ is, i.privileged = true) → priv = false →
          found = some 0x04)) ∧
      (∀ is x tail, wordsOf is ++ x :: tail = ws → Encodable is → Unassigned x →
        (IllStructured cls is ∨ (∃ i ∈ is, i.isTransfer = true) → found = some 0x01) ∧
        (¬ IllStructured cls is → (∀ i ∈ is, i.isTransfer = false) → found = some 0x02)) ∧
      (∀ is x tail e, wordsOf is ++ x :: tail = ws → Encodable is → decode (x :: tail) = .error e → ¬ Unassigned x →
        e = .truncated ∧ found = some 0x01))

/-- Words that the manual writes out beside its examples decode to the instructions that it names there (R78, R167, R178,
R180, R189, R242, R244, R262, R301, R306, R309, R312, R316, R320). -/
def Obligations.WordsOfTheManual : Prop :=
  Reads [0x2E200094] (.frcp { d := 8, a := 0, la := false, b := 9, lb := false, stall := 4, lit := none }) ∧
  Reads [0x51C2430] (.imad { d := 7, a := 2, la := false, b := 67, lb := false, stall := 0, lit := none }) ∧
  Reads [0x3728B420, 0x80000000] (.bfma2 { v := { d := 10, a := 11, la := false, b := 66, lb := false, stall := 0, lit := none }
                                           rm := 4, sub := 0, k := 0, fl := 0, mbz := 0 }) ∧
  Reads [0x57081FF8, 3] (.srdl { d := 4, a := 7, b := 127, stall := 0, lit := some 3 }) ∧
  Reads [0x44081430] (.smulhN { d := 4, a := 5, b := 6, stall := 0, lit := none }) ∧
  Reads [0x80102144] (.ldg { data := 4, off := 2, base := 10, dc := 1, sz := 0 }) ∧
  Reads [0x86142158] (.sts { data := 5, off := 2, base := 10, dc := 6, sz := 0 }) ∧
  Reads [0x89161108] (.aadd { data := 5, off := 33, base := 8, dc := 2, sz := 0 }) ∧
  Reads [0xA0000298] (.spalloc { data := 0, off := 0, base := 20, dc := 6, sz := 0 }) ∧
  Reads [0xA70C2018] (.npush { data := 3, off := 2, base := 0, dc := 6, sz := 0 }) ∧
  Reads [0x95000218] (.gather { data := 0, off := 0, base := 16, dc := 6, sz := 0 }) ∧
  Reads [0xC30EFFF7] (.brs { reg := 7, cond := 1, off := 0x7FF7 }) ∧
  Reads [0xC550000A] (.call { link := 20, off := 10 }) ∧
  Reads [0xCAFE0000, 0x1F4] (.sleep { p := 127, q := 0, imm := 0, lit := some 0x1F4 }) ∧
  Reads [0xDA891405] (.tlbinv { p := 68, q := 69, imm := 5, lit := none })

/-- R20, R53 to R58, R74, R75, R155, R169: a step first makes groups READY whose wait is over, those that no longer just wait as
they did if tried on the state as it stands (the model's reading, log entry 93). Then a turn of a lathe of a READY device goes
to its eligible group that waited longest.
With its clause's waits met, the instruction that the clause's words hold at its position is executed for it, the clause
first beginning if it has not; with a wait not met the group waits; words that decode to nothing trap. A group without a
clause fetches the one at its issue address. In a device that is not READY no group runs; a turn of an event executes it, in a FAILED device only one that R20 excepts; with no turn
given, a lathe's turn that nothing determines is taken (the model's choice, log entry 1). -/
def Obligations.StepRunsTheInstruction : Prop :=
  (∀ s : State, (s.dev.st ≠ .ready ∨ (∀ p ∈ s.groups, p.2.polls = false) → s.endWaits = s) ∧
    ∀ gid g t, s.dev.st = .ready → s.groups = [(gid, g)] → g.polls = true → lead { s with cur := none } gid = .next t →
      (s.waitOver t gid = false → s.endWaits = s) ∧
      (s.waitOver t gid = true → g.spilled = [] → s.endWaits = { s with groups := [(gid, { g with st := .ready, age := s.tick })] })) ∧
  (∀ (s : State) time core k r gid g, s.turns = .lathe time core k :: r →
    let s0 : State := { s.endWaits with tick := s.tick + 1, turns := r }
    let s1 : State := { s0.passTime time with cur := none }
    s1.dev.st = .ready → s1.pick core k = some gid → s1.groups.find gid = some g →
    s1.time = max s.time time ∧ (time ≤ s.time → s1 = { s0 with cur := none }) ∧
    (g.clause = none → step s = exec .clauseFetch { s1 with arg := { s1.arg with a := gid } }) ∧
    ∀ c, g.clause = some c →
      let met := ∀ d < 6, c.header.getLsbD (19 + d) = true → g.dc d ≤ c.header.toNat / 2 ^ 16 % 8
      (∀ i rest, decode (c.words.drop c.pos) = .ok (i, rest) → c.begun = true → step s = exec i { s1 with cur := some gid }) ∧
      (∀ i rest, decode (c.words.drop c.pos) = .ok (i, rest) → c.begun = false → met →
        step s = exec i { s1.modGroup gid (Group.begin c) with cur := some gid }) ∧
      (c.begun = false → ¬ met → ∃ u h, step s = .next u ∧ u.groups.find gid = some h ∧ h.st = .waiting ∧
        h.wait.map (·.kind) = some .counters ∧ h.clause = some c ∧ h.rows = g.rows ∧ h.sregs = g.sregs) ∧
      (∀ e, decode (c.words.drop c.pos) = .error e → c.begun = true → step s = .next (s1.badWord gid g c e))) ∧
  (∀ (s : State) t i arg r, s.turns = .event t i arg :: r → i.isEvent = true →
    let s1 : State := { ({ s.endWaits with tick := s.tick + 1, turns := r } : State).passTime t with arg := arg, cur := none }
    (s.dev.st ≠ .failed ∨ whileFailed i = true → step s = exec i s1) ∧
    (s.dev.st = .failed → whileFailed i = false → step s = .next s1)) ∧
  (∀ s : State, s.turns = [] → ∃ dt core k,
    step s = takeTurn { s.endWaits with tick := s.tick + 1 } (.lathe (s.time + dt) core k)) ∧
  (∀ (s : State) time core k r, s.turns = .lathe time core k :: r → s.dev.st ≠ .ready →
    ∃ u, step s = .next u ∧ u.mem = s.mem ∧ u.dev = s.dev ∧ u.launches = s.launches ∧ u.turns = r ∧ u.time = max s.time time)

/-- R74, R75: an instruction with a reserved field, or a privileged one without CTXCFG.PRIV, is not executed: its group
traps RSVF or PRIV at its clause's address. -/
def Sys2Proof.Claims.DefectsTrap : Prop :=
  ∀ (i : Instr) s gid g c t l code, i.isEvent = false → s.cur = some gid → s.groups.find gid = some g → g.clause = some c →
    s.teams.find g.team = some t → s.launches.find t.launch = some l → i.defect (cfgPriv g.ctxcfg) = some code →
    exec i s = .next (takeTrap s gid ⟨code, 0, 0, c.active⟩ c.active c.addr 0) ∧
    (code = 0x03 ∨ code = 0x04) ∧ (code = 0x04 → i.privileged = true ∧ cfgPriv g.ctxcfg = false)

/-- R80, R158, R159, R168: what stands between an instruction of shape `sh` and its execution, in this order. A group whose
names were spilled reloads them first; one that would hold more than RMAX rows traps BUDGET; under SBCHK a register that is
too early traps STALLU; one for whose new rows the pool has no room, or others wait, enters WAIT_ALLOC; a full counter
makes it wait. In none of these cases is anything written. -/
def Sys2Proof.Claims.IssueOrder : Prop :=
  ∀ (i : Instr) sh body s gid g c t l, s.cur = some gid → s.groups.find gid = some g → g.clause = some c →
    s.teams.find g.team = some t → s.launches.find t.launch = some l → i.defect (cfgPriv g.ctxcfg) = none →
    let k := (sh.vw.eraseDups.filter fun v => (g.rows.find v).isNone).length
    let held := g.rows.length
    let pool := max (held + k) (s.rminOf g) - max held (s.rminOf g)
    let noRoom := 0 < k ∧ g.granted = false ∧ 0 < pool ∧
      (s.poolFree (gid / 128) < pool ∨ (s.core (gid / 128)).allocWait ≠ [])
    let queued := fun (u : State) => ∃ h, u.groups.find gid = some h ∧ h.st = .waitAlloc ∧ h.clause = g.clause ∧ h.pcv = g.pcv ∧
      h.rows = g.rows ∧ h.sregs = g.sregs ∧ u.mem = s.mem ∧ ∃ w ∈ (u.core (gid / 128)).allocWait, w.1 = gid
    let early := cfgSbchk g.ctxcfg = true ∧ g.tooEarly sh c.active = true
    (g.spilled ≠ [] → g.wait = none → ∃ u, issue i sh body s = .next u ∧ queued u) ∧
    (g.spilled = [] →
      (0 < k → s.rmaxOf g < held + k →
        issue i sh body s = .next (takeTrap s gid ⟨0x05, 0, 0, c.active⟩ c.active c.addr (c.pos + 1))) ∧
      (¬ (0 < k ∧ s.rmaxOf g < held + k) →
        (early → issue i sh body s = .next (takeTrap s gid ⟨0x06, 0, 0, c.active⟩ c.active c.addr (c.pos + 1))) ∧
        (¬ early → noRoom → ∃ u, issue i sh body s = .next u ∧ queued u) ∧
        (¬ early → ¬ noRoom → sh.dc < 6 → 63 ≤ g.dc sh.dc → ∃ u h, issue i sh body s = .next u ∧ u.groups.find gid = some h ∧
          h.st = .waiting ∧ h.wait.map (·.kind) = some .dcFull ∧ h.clause = g.clause ∧ h.rows = g.rows ∧ h.sregs = g.sregs ∧
          h.dcs = g.dcs ∧ u.mem = s.mem)))

/-- R78, R79: what an instruction reads of a register. With nothing on the way it reads the register; a fixed-latency result
that is not due reads, lane by lane, old or new in the lanes that it writes, and a later result of the same register leaves
no other value; a register that counted operations alone are still to write keeps its value outside their lanes. -/
def Obligations.EarlyReads : Prop :=
  ∀ (tick : Nat) (g : Group),
    (g.ops = [] → (∀ h ∈ g.hazards, h.left = 0) → g.view tick = g) ∧
    (∀ h, g.ops = [] → g.hazards = [h] → (g.rows.find h.reg).isSome → 0 < h.left → ∀ n < 32,
      OldOrNew h.old (g.vreg h.reg) ((g.view tick).vreg h.reg) n ∧
      (inMask h.lanes n = false → lane ((g.view tick).vreg h.reg) n = lane (g.vreg h.reg) n)) ∧
    (∀ v, (∀ h ∈ g.hazards, h.reg ≠ v) → ∀ n < 32, (∀ o ∈ g.ops, ∀ p ∈ o.vres, p.1 = v → inMask p.2.2 n = false) →
      lane ((g.view tick).vreg v) n = lane (g.vreg v) n) ∧
    (∀ k, (∀ o ∈ g.ops, ∀ p ∈ o.sres, p.1 ≠ k) → (g.view tick).sreg k = g.sreg k) ∧
    (g.view tick).pcv = g.pcv ∧ (g.view tick).clause = g.clause ∧ (g.view tick).ctxcfg = g.ctxcfg ∧
    (g.view tick).cause = g.cause ∧ (g.view tick).hmode = g.hmode

/-- Every step keeps the canonical form of memory: addresses rising, no byte listed that an unlisted one reads as
(the model's own form of memory, log entry 38). -/
def Obligations.MemoryKeepsItsForm : Prop :=
  ∀ s t : State, Memory.wf s.mem = true → step s = .next t → Memory.wf t.mem = true

/-- R16 to R18: after reset the device is in BRINGUP at step 1 and every other field of DEVSTAT is zero, memory has its
form and reads zero everywhere without poison, and no context, queue, launch, team or group stands. -/
def Obligations.ResetState : Prop :=
  State.reset.dev.st = .bringup ∧ State.reset.dev.devstat = 0x10 ∧ Memory.wf State.reset.mem = true ∧
  (∀ a, Mem.get State.reset.mem a = 0) ∧ (∀ a, State.reset.poisoned a = false) ∧
  (∀ k, State.reset.ctxs.find k = none ∧ State.reset.queues.find k = none ∧ State.reset.launches.find k = none ∧
    State.reset.teams.find k = none ∧ State.reset.groups.find k = none ∧ State.reset.copies.find k = none) ∧
  State.reset.dev.windows = [] ∧ State.reset.dev.inbound = [] ∧ State.reset.time = 0

/-- R118: a single-bit error that is found in a register is corrected and nothing that a program reads changes; a
double-bit error makes its lane read zero, keeps every other lane and register, and sets CHKIV.POISON of the launch (of its
context once the launch has ended). The service cores log either. A FAILED device finds none. That the finding is a turn of its own is the model's
choice (log entry 32). -/
def Obligations.RegisterErrors : Prop :=
  ∀ (s : State) time u gid reg ln double r g t l, s.turns = .upset time u :: r →
    (u = .vector gid reg ln double ∧ reg < 64 ∧ ln < 32 ∧ (g.rows.find reg).isSome ∨ u = .scalar gid (reg - 64) double ∧ 64 ≤ reg ∧ reg < 192 ∧ ln = 0) →
    let s1 : State := { ({ s.endWaits with tick := s.tick + 1, turns := r } : State).passTime time with cur := none }
    s.dev.st ≠ .failed → s1.groups.find gid = some g → s1.teams.find g.team = some t → s1.launches.find t.launch = some l →
    ∃ n h, step s = .next n ∧ n.groups.find gid = some h ∧ n.svcLog = .register gid reg ln :: s1.svcLog ∧
      n.mem = s1.mem ∧ h.pcv = g.pcv ∧ h.clause = g.clause ∧
      (double = false → h = g ∧ n.launches = s1.launches ∧ n.ctxs = s1.ctxs) ∧
      (double = true →
        (∀ v m, m < 32 → lane (h.vreg v) m = if u = .vector gid v m double then 0 else lane (g.vreg v) m) ∧
        (∀ k, h.sreg k = if u = .scalar gid k double then 0 else g.sreg k) ∧
        (l.hasEnded = false → (n.launches.find t.launch).map (·.chkiv) = some (l.chkiv ||| 1)) ∧
        (l.hasEnded = true → (n.ctx l.ctx).chkAcc = (s1.ctx l.ctx).chkAcc ||| 1))

/-! ## Every event completes -/

namespace Sys2Proof.Claims

open Sys2Proof Sys2Proof.Machine

/-- A context that has been created and not destroyed (R87). -/
def Living (s : State) (c : Nat) : Prop := (s.ctx c).st ≠ .free ∧ (s.ctx c).st ≠ .destroyed

/-- The group of an event, with its team and launch. -/
def GroupAt (s : State) (g : Group) (t : Team) (l : Launch) : Prop :=
  s.groups.find s.arg.a = some g ∧ s.teams.find g.team = some t ∧ s.launches.find t.launch = some l

/-- The task of a work event: RUNNING, of a kind, its work not done, the buses of its engine not waiting (R385, R435). -/
def AtWork (s : State) (kind : Nat) (r : TaskRef) (q : TaskQueue) (t : Task) : Prop :=
  s.arg.body = .task r ∧ s.taskAt r = some (q, t) ∧ t.st = .running ∧ t.worked = false ∧ t.fields.kind = kind ∧
    (t.eng < 8 → ∀ b ∈ engineBuses r.cluster t.eng, (s.bus b).st ≠ .retrain ∧ (s.bus b).st ≠ .quiesce ∧ (s.bus b).st ≠ .repair)

/-- The task of a work event has its work done. -/
def Worked (i : Instr) (s : State) (r : TaskRef) : Prop := Occurs i s fun u => TaskIs u r fun x => x.worked = true

/-- An event that runs a waiting instruction again answers the next state of that instruction. -/
def RunsAgain (ev i : Instr) (s : State) : Prop := ∃ v, exec ev s = .next v ∧ exec i { s with cur := some s.arg.a } = .next v

end Sys2Proof.Claims

/-- R50, R87, R88, R368, R371: the driver's requests about profiles, contexts, tensors and sessions complete on a READY
device, for every operand that the rules admit. -/
def Sys2Proof.Claims.EventsOfContexts : Prop :=
  ∀ s : State, s.dev.st = .ready →
    (∀ d, s.arg.body = .profile d → s.arg.a < 8 → (d.getLsbD 127 = true → badProfile d = false) →
      (∀ p ∈ s.ctxs, p.2.profile = s.arg.a → p.2.st = .free ∨ p.2.st = .destroyed) →
      Occurs .profileWrite s fun u => u.dev.profiles.find s.arg.a = some d) ∧
    (∀ r, s.arg.body = .create r → r.ctx < 64 → (s.ctx r.ctx).st = .free → r.ptRoot % 65536 = 0 → spaceOf r.ptRoot = .hbm →
      r.ctxcfg.toNat / 2 ^ 20 % 2 ^ 4 = 0 → r.ctxcfg.toNat / 2 ^ 30 = 0 → r.profile < 8 → r.saveBase + r.saveSize ≤ 2 ^ 52 →
      r.snapBase + r.snapSize ≤ 2 ^ 52 → (s.dev.profiles.findD r.profile 0).getLsbD 127 = true →
      Occurs .contextCreate s fun u => (u.ctx r.ctx).st = .created ∧ (u.ctx r.ctx).ptRoot = r.ptRoot) ∧
    (s.arg.a < 64 → Living s s.arg.a → Occurs .contextDestroy s fun u => (u.ctx s.arg.a).st = .destroyed) ∧
    (∀ v, s.arg.body = .dword v → s.arg.a < 64 → Living s s.arg.a → v.toNat / 2 ^ 20 % 2 ^ 4 = 0 → v.toNat / 2 ^ 30 = 0 →
      Occurs .ctxcfgSet s fun u => (u.ctx s.arg.a).ctxcfg.toNat = v.toNat % 2 ^ 20 + s.arg.a * 2 ^ 24) ∧
    (∀ r k, s.arg.body = .tensor r → tensorBad r = false → Living s r.ctx → k < 1024 → (s.ctx r.ctx).tensors.find k = none →
      (∀ j < k, ((s.ctx r.ctx).tensors.find j).isSome) →
      firstGap (((tensorFor r 0 0).size + 262143) / 262144 * 262144) 0 (s.tsUsed r.tower) +
        ((tensorFor r 0 0).size + 262143) / 262144 * 262144 ≤ 2 ^ 36 →
      Occurs .tensorCreate s fun u => ((u.ctx r.ctx).tensors.find k).map (·.dims) = some r.dims) ∧
    (∀ x, (s.ctx s.arg.a).tensors.find s.arg.b = some x → (∀ p ∈ (s.ctx s.arg.a).tensors, p.2.destroying = false) →
      ((s.ctx s.arg.a).tensors.map (·.1)).Pairwise (· < ·) → (∀ p ∈ s.copies, p.2.names s.arg.a s.arg.b = false) →
      Occurs .tensorDestroy s fun u => (u.ctx s.arg.a).tensors.find s.arg.b = none) ∧
    (∀ r k, s.arg.body = .session r → r.tower < 4 → r.ctx < 64 → 1 ≤ r.w → r.w ≤ 8192 → 1 ≤ r.h → r.h ≤ 8192 → 0 < r.len →
      r.va + r.len ≤ 2 ^ 52 → Living s r.ctx → k < 64 → (s.tower r.tower).sessions.find k = none →
      (∀ j < k, ((s.tower r.tower).sessions.find j).isSome) →
      Occurs .decodeSessionOpen s fun u => ((u.tower r.tower).sessions.find k).map (·.va) = some r.va) ∧
    (((s.tower s.arg.a).sessions.find s.arg.b).isSome → ((s.tower s.arg.a).sessions.map (·.1)).Nodup →
      Occurs .decodeSessionClose s fun u => (u.tower s.arg.a).sessions.find s.arg.b = none) ∧
    (s.arg.a < 64 → 6 ≤ s.arg.c → s.arg.c ≤ 16 → s.arg.b % 32 = 0 → s.arg.b + 32 * 2 ^ s.arg.c ≤ 2 ^ 40 → Living s s.arg.a →
      Occurs .faultRingSet s fun u => ((u.ctx s.arg.a).ring).map (·.addr) = some s.arg.b) ∧
    (∀ r s2, s.arg.body = .queue r → r.ctx < 64 → (s.ctx r.ctx).st ∈ ([.created, .resident, .parked, .evicted] : List CtxSt) →
      s.queues.countP (fun p => p.2.st != .destroyed && p.2.ctx == r.ctx) < 16 →
      s.queues.countP (fun p => p.2.st != .destroyed) < 1024 → 4 ≤ r.logsz → r.logsz ≤ 16 → r.prio ≤ 3 → r.tower ≤ 3 →
      r.ring % 64 = 0 → r.qcb % 128 = 0 →
      (s.translated (12 * r.tower) r.ctx (64 * 2 ^ r.logsz / 65536 + 2) r.ring (64 * 2 ^ r.logsz)).1 = true →
      (s.translated (12 * r.tower) r.ctx (64 * 2 ^ r.logsz / 65536 + 2) r.ring (64 * 2 ^ r.logsz)).2.translated (12 * r.tower) r.ctx
        2 r.qcb 128 = (true, s2) → s2.queues = s.queues →
      Occurs .queueCreate s fun u => ∃ k q, u.queues.find k = some q ∧ q.st = .created ∧ q.ring = r.ring ∧ q.qcb = r.qcb) ∧
    (∀ n q, s.arg.a = n → s.queues.find n = some q →
      (∀ bs s1, q.st = .created →
        (∀ x y z, (s.reach (12 * q.tower) q.ctx (cfgPriv (s.ctx q.ctx).ctxcfg) .engineRead (q.qcb + 0x40) 8).1 ≠ .absent x y z) →
        (s.reach (12 * q.tower) q.ctx (cfgPriv (s.ctx q.ctx).ctxcfg) .engineRead (q.qcb + 0x40) 8).2.frontGet (q.agent (2 ^ 64))
          (q.qcb + 0x40) 8 = .ok bs s1 → s1.queues = s.queues →
        Occurs .queueActivate s fun u => (u.queues.find n).map (·.st) = some .active) ∧
      (q.st = .active → Occurs .queueSuspend s fun u => (u.queues.find n).map (·.st) = some .suspended) ∧
      (q.st = .suspended → (s.ctx q.ctx).st ≠ .faulted → Occurs .queueResume s fun u => (u.queues.find n).map (·.st) = some .active) ∧
      (q.st = .created ∨ q.st = .active ∨ q.st = .suspended → (∀ p ∈ s.launches, p.2.q = n → p.2.hasEnded = true) →
        Occurs .queueDestroy s fun u => (u.queues.find n).map (·.st) = some .destroyed)) ∧
    (∀ t l, s.teams.find s.arg.a = some t → t.st = .saved .held → s.launches.find t.launch = some l →
      (l.portMask = 0 → Occurs .haltResume s fun u => (u.teams.find s.arg.a).map (·.st) = some (.saved .preempt)) ∧
      (l.st = .running → Occurs .heldTeamCancel s fun u => (u.launches.find t.launch).map (·.st) = some .draining)) ∧
    (∀ r, s.arg.body = .taskQueue r → r.ctx < 64 → r.cluster < 48 → r.ring % 4096 = 0 → 6 ≤ r.logsz → r.logsz ≤ 12 →
      (s.cluster r.cluster).queues.length < 8 → (∀ q ∈ (s.cluster r.cluster).queues, q.2.ctx ≠ r.ctx) →
      Occurs .taskQueueCreate s fun u => ∃ k q, (u.cluster r.cluster).queues.find k = some q ∧ q.ctx = r.ctx ∧ q.ring = r.ring) ∧
    (∀ q, (s.cluster s.arg.a).queues.find s.arg.b = some q → q.tasks = [] → (s.ctx q.ctx).st ≠ .destroyed →
      ((s.cluster s.arg.a).queues.map (·.1)).Nodup →
      Occurs .taskQueueDestroy s fun u => (u.cluster s.arg.a).queues.find s.arg.b = none)

/-- R284, R293, R294, R297 to R299, R417, R419, R426, R281: the driver's requests about pages, frames, chunks, windows and
ports complete on a READY device. -/
def Sys2Proof.Claims.EventsOfMemory : Prop :=
  ∀ s : State, s.dev.st = .ready →
    (s.arg.a < 64 → s.arg.b < 2 ^ 52 → s.arg.flag = true → NothingHeld s → (∀ p ∈ s.cores, (s.core p.1).log = []) →
      Occurs .resolve s fun u => ∀ f ∈ (u.ctx s.arg.a).faults, f.page = s.arg.b / 65536 → f.kind = 5) ∧
    (∀ src dst, s.arg.a = src → s.arg.b = dst → FrameAt s src → FrameAt s dst → (s.frame dst).st = .normal → NothingHeld s →
      (spaceOf src = .window → spaceOf dst = .hbm → (s.frame src).st = .compressed →
        Occurs .recode s fun u => (u.frame src).st = .normal) ∧
      (spaceOf src = .hbm → spaceOf dst = .hbm → src ≠ dst → (s.frame src).st = .normal → Memory.wf s.mem = true → Roomy s →
        OffTables s src 65536 → Occurs .migrate s fun u => (u.frame src).st = .forward ∧ (u.frame src).ptr = dst)) ∧
    (FrameAt s s.arg.a → (s.frame s.arg.a).st = .forward → NothingHeld s →
      Occurs .release s fun u => (u.frame s.arg.a).st = .normal) ∧
    (∀ t base, s.arg.body = .frame (.place t base) → t < 4 → base % 16 = 0 → t * 2 ^ 38 ≤ base → base + 2 ^ 27 ≤ (t + 1) * 2 ^ 38 →
      (⟨.hbmStack, base / 2 ^ 36⟩ : PartRef) ∉ s.dev.mapped → (∀ p ∈ s.ctxs, p.2.st = .free) →
      Occurs .frameTableSet s fun u => (u.tower t).frameBase = some base) ∧
    (s.arg.a < 4 →
      ((∀ k < s.arg.c, s.arg.b + 2048 * k < 2 ^ 40 ∧ (s.arg.b + 2048 * k) / 2 ^ 38 = s.arg.a ∧ (s.arg.b + 2048 * k) % 2048 = 0 ∧
          (⟨.hbmStack, (s.arg.b + 2048 * k) / 2 ^ 36⟩ : PartRef) ∉ s.dev.mapped ∧ (s.frame (s.arg.b + 2048 * k)).st = .normal ∧
          s.arg.b + 2048 * k ∉ (s.tower s.arg.a).freeList ∧ (s.tower s.arg.a).chunks.find (s.arg.b + 2048 * k) = none) →
        Occurs .chunkListFill s fun u => (u.tower s.arg.a).freeList =
          (s.tower s.arg.a).freeList ++ (List.range s.arg.c).map fun k => s.arg.b + 2048 * k) ∧
      (Occurs .chunkListDrain s fun u => (u.tower s.arg.a).freeList = (s.tower s.arg.a).freeList.drop s.arg.b) ∧
      (49152 ≤ s.arg.b → Occurs .reserveSet s fun u => (u.tower s.arg.a).reserve = s.arg.b) ∧
      (1 ≤ s.arg.b → s.arg.b ≤ 1023 → Occurs .hotidleSet s fun u => (u.tower s.arg.a).hotIdle = s.arg.b)) ∧
    (∀ v, s.arg.body = .dword v → s.arg.a < 2048 → v.toNat / 2 ^ 4 % 2 ^ 4 = 0 → v.toNat / 2 ^ 18 % 2 ^ 18 = 0 →
      v.toNat / 2 % 8 ≤ 3 → Occurs .windowTableWrite s fun u => u.dev.windows.find s.arg.a = some v) ∧
    (∀ e, s.arg.body = .inboundEntry e → s.arg.a < 256 →
      Occurs .inboundTableWrite s fun u => u.dev.inbound.find s.arg.a = some e) ∧
    ((s.links.map (·.1)).Pairwise (· < ·) → s.arg.a < 64 → s.excluded ⟨.linkPort, s.arg.a⟩ = false →
      ((s.link s.arg.a).st = .up ∨ (s.link s.arg.a).st = .retrain ∨ (s.link s.arg.a).st = .training →
        Occurs .linkFence s fun u => (u.link s.arg.a).st = .fenced) ∧
      ((s.link s.arg.a).st = .fenced → Occurs .linkReturn s fun u => (u.link s.arg.a).st = .training) ∧
      ((s.link s.arg.a).st = .fenced → Occurs .linkRetire s fun u => (u.link s.arg.a).st = .retired))

/-- R87, R145 to R153, R283, R294, R415, R424, R426, R431 to R436, R438, R441, R442: what happens at contexts, launches,
fault rings, chunks, peers, ports, buses and light paths takes place. -/
def Sys2Proof.Claims.EventsOfDevice : Prop :=
  ∀ s : State,
    ((s.ctx s.arg.a).st = .destroyed → s.released s.arg.a = true →
      Occurs .contextReleased s fun u => (u.ctx s.arg.a).st = .free) ∧
    ((s.ctx s.arg.a).st = .parked → (s.ctx s.arg.a).parkedSince + 100000000 ≤ s.time →
      (∀ p ∈ s.teams, p.2.ctx = s.arg.a → p.2.onCores = true) →
      Occurs .parkTimeout s fun u => (u.ctx s.arg.a).st = .evicted) ∧
    (Occurs .parkRenewal s fun u => u.mem = s.mem) ∧
    (∀ n l, s.arg.a = n → s.launches.find n = some l →
      let cancelled := s.chainCancelled (l.agent n) 1024 (field l.record 0x10 8) = true
      (∀ d args sq s1, l.st = .submitted → ¬ cancelled → s.readLaunch n l = .ok (some (d, args, sq)) s1 →
        s1.launches.find n = some l →
        State.refusal { s1 with fresh := s1.fresh + 1, launches := s1.launches.modify n fun x =>
          { x with desc := d, args := args, sq := sq, order := s1.fresh } } n
            { l with desc := d, args := args, sq := sq, order := s1.fresh } = 0 →
        Occurs .admission s fun u => (u.launches.find n).map (·.desc) = some d) ∧
      (l.st = .submitted → cancelled → Occurs .admission s fun u => (u.launches.find n).map (·.st) = some .cancelled) ∧
      (l.st = .admitted → field l.record 0x18 8 = 0 → field l.record 0x20 8 = 0 → l.inorder = false →
        Occurs .dependenceMet s fun u => (u.launches.find n).map (·.st) = some .dispatching) ∧
      (l.st = .admitted ∨ l.st = .dispatching ∨ l.st = .running → cancelled →
        Occurs .cancellationObserved s fun u => (u.launches.find n).map (·.st) = some .draining) ∧
      (l.st = .draining → s.drained n = true → (∀ p ∈ s.mirrors, p.2.launch ≠ n) → l.endv = 1 →
        Occurs .launchDrained s fun u => (u.launches.find n).map (·.st) = some .complete)) ∧
    (∀ q bs s1, s.queues.find s.arg.a = some q → q.st = .active → s1.queues = s.queues →
      (s.frontGet (q.agent (2 ^ 64)) q.qcb 8 = .ok bs s1 → q.head ≤ ofBytes bs → ofBytes bs ≤ q.head + 2 ^ q.logsz →
        Occurs .tailObserve s fun u => (u.queues.find s.arg.a).map (·.tail) = some (ofBytes bs)) ∧
      (q.head < q.tail → ({ s with fresh := s.fresh + 1 } : State).frontGet (q.agent s.fresh)
          (q.ring + 64 * (q.head % 2 ^ q.logsz)) 64 = .ok bs s1 → field bs 0x10 8 = 0 →
        Occurs .recordRead s fun u => (u.launches.find s.fresh).map (·.st) = some .submitted)) ∧
    (∀ r, (s.ctx s.arg.a).ring = some r → r.head ≤ s.arg.b → s.arg.b ≤ r.tail →
      Occurs .faultRingHeadAdvance s fun u => ((u.ctx s.arg.a).ring).map (·.head) = some s.arg.b) ∧
    ((s.tower s.arg.a).reserve + 1024 < (s.tower s.arg.a).freeList.length →
      (∀ p ∈ s.cores, ∀ x ∈ (s.core p.1).log, x.reserve = false) → Occurs .chunkReserveReplay s fun u => u.mem = s.mem) ∧
    ((s.l2 (s.arg.a * 128)).isSome → spaceOf (s.arg.a * 128) = .hbm →
      ((s.tower (homeTower (s.arg.a * 128))).l2.map (·.1)).Pairwise (· < ·) →
      Occurs .l2EvictionWriteback s fun u => u.l2 (s.arg.a * 128) = none) ∧
    (∀ r q, s.dev.st = .ready → s.arg.body = .inbound r → r.op = .read → spaceOf r.addr = .hbm →
      (∃ p ∈ s.dev.inbound, p.2.base * 65536 ≤ r.addr ∧ r.addr + r.size ≤ (p.2.base + p.2.len) * 65536) →
      s.stackGone r.addr = false → s.home 8 r.addr = .here q → spaceOf q = .hbm → 1 ≤ r.size →
      r.addr % upPow2 r.size + r.size ≤ upPow2 r.size → r.addr % 128 + r.size ≤ 128 → Roomy s →
      Occurs .inboundRequest s fun u => (u.responses.head?).map (·.value) = some (s.homeBytes q r.size)) ∧
    (s.dev.st ≠ .off → Occurs .inboundMessageRequest s fun u => u.svcLog = .message s.arg.a :: s.svcLog) ∧
    (∀ r, s.peers.find s.arg.a = some r → r.done = false → r.kind = .load →
      (r.port ≠ none → s.time ≤ r.when + 200000 → s.arg.b ∈ [1, 2, 3, 5] → Occurs .peerFaultResponse s fun u =>
        (u.peers.find s.arg.a).map (·.cause) = some (0x15 + 256 * s.arg.b)) ∧
      (r.when + 200000 ≤ s.time → Occurs .peerTimeout s fun u => (u.peers.find s.arg.a).map (·.cause) = some (0x16 + 256))) ∧
    (s.dev.st ≠ .failed → (s.links.map (·.1)).Pairwise (· < ·) → s.arg.a < 64 →
      ((s.link s.arg.a).st = .training → (Occurs .portTrained s fun u => (u.link s.arg.a).st = .up) ∧
        ((s.link s.arg.a).since + 10000000 ≤ s.time → (s.link s.arg.a).fails + 1 < 3 →
          Occurs .trainingTimeout s fun u => (u.link s.arg.a).fails = (s.link s.arg.a).fails + 1)) ∧
      ((s.link s.arg.a).st = .up → Occurs .linkErrorRetrain s fun u => (u.link s.arg.a).st = .retrain) ∧
      ((s.link s.arg.a).st = .retrain → s.time ≤ (s.link s.arg.a).since + 1000000 →
        Occurs .retrainDone s fun u => (u.link s.arg.a).st = .up) ∧
      ((s.link s.arg.a).st = .retrain → (s.link s.arg.a).since + 1000000 ≤ s.time →
        Occurs .retrainTimeout s fun u => (u.link s.arg.a).st = .training)) ∧
    (s.arg.a < 7936 →
      ((s.bus s.arg.a).st = .service → Occurs .busRetrainDue s fun u => (u.bus s.arg.a).st = .due) ∧
      ((s.bus s.arg.a).st = .due → (∀ k ∈ siblings s.arg.a, (s.bus k).st ≠ .retrain) →
        Occurs .busRetrainStart s fun u => (u.bus s.arg.a).st = .retrain) ∧
      ((s.bus s.arg.a).st = .retrain → Occurs .busRetrainDone s fun u => (u.bus s.arg.a).st = .service) ∧
      (∀ l, s.arg.body = .nats [l] → l < 64 → (s.bus s.arg.a).st = .service → (s.bus s.arg.a).swapped = [] →
        s.arg.flag = false → Occurs .burstRetry s fun u => (u.bus s.arg.a).fails = 1) ∧
      ((s.bus s.arg.a).st = .service → s.excluded ⟨.bus, s.arg.a⟩ = false →
        s.firstAction ⟨.bus, s.arg.a⟩ = some (.swap s.arg.b) → ¬ noSpareFor (s.bus s.arg.a) s.arg.b →
        Occurs .laneRepairStart s fun u => (u.bus s.arg.a).st = .quiesce ∧ (u.bus s.arg.a).repairing = s.arg.b) ∧
      ((s.bus s.arg.a).st = .quiesce → Occurs .quiesceDone s fun u => (u.bus s.arg.a).st = .repair) ∧
      ((s.bus s.arg.a).st = .repair → s.arg.flag = true → Occurs .repairDone s fun u => (u.bus s.arg.a).st = .service)) ∧
    (∀ e, s.arg.body = .errors [e] → s.arg.a < 4 → e.layer < 4 → e.bank < 16 → e.word < 512 → e.row < 262144 →
      Occurs .patrolScrub s fun u => u.arrayLog.length = s.arrayLog.length + 1) ∧
    (s.arg.a < 240 → Occurs .tokenRegenerate s fun u =>
      ((u.tower (s.arg.a / 60)).lights.find (s.arg.a % 60)).map (·.tokenLost) = some false) ∧
    (∀ ch, s.arg.body = .nats [ch] → s.arg.a < 4 → ch < 60 → Occurs .heaterTrim s fun u =>
      ((u.tower s.arg.a).lights.find ch).map (·.lostRings) =
        some ((((s.tower s.arg.a).lights.find ch).map (·.lostRings)).getD 0 + 1)) ∧
    (s.dev.st = .bringup → s.arg.a < 1024 → Occurs .deviceNumberAssign s fun u => u.dev.devNum = s.arg.a) ∧
    (s.arg.a < 4 → Occurs .coreClockThrottle s fun u => (u.tower s.arg.a).throttled = s.arg.flag)

/-- R79, R94, R99, R107, R120, R121, R150, R158, R159, R161, R183, R224, R252, R258, R337, R341, R345: what happens at
groups, their teams and cores takes place. -/
def Sys2Proof.Claims.EventsOfGroups : Prop :=
  (∀ (s : State) g t l, GroupAt s g t l →
    (∀ w ws s1 s2, g.clause = none → g.stepDue = false → g.st = .ready → minPc g.pcv ≠ exitPc →
      s.fetchWords t.launch g (s.arg.a / 128 / 8) t.ctx (s.ctx t.ctx).codeBase [(minPc g.pcv).toNat] = (.ok [w], s1) →
      HeaderGood w → s1.fetchWords t.launch g (s.arg.a / 128 / 8) t.ctx (s.ctx t.ctx).codeBase
        ((List.range (w.toNat / 2 ^ 28)).map fun k => (minPc g.pcv).toNat + 1 + k) = (.ok ws, s2) →
      checkClause (headerOf w) (cfgPriv g.ctxcfg) ws = none →
      Occurs .clauseFetch s fun u => ((u.groups.find s.arg.a).bind (·.clause)).map (·.words) = some ws) ∧
    (g.halt = some false → g.postedAdd = none → g.hmode = false → g.st = .ready → g.clause = none → g.hword = 0 →
      g.stepDue = false → t.st = .stopping .preempt →
      Occurs .haltArrival s fun u => (u.groups.find s.arg.a).map (·.st) = some .stopped) ∧
    (g.stepDue = true → g.st = .ready → g.clause = none → g.hmode = false → t.st = .running → l.handler ≠ exitPc →
      Occurs .sstepTrap s fun u => (u.groups.find s.arg.a).map (·.cause) = some (causeWord 0x61 0 0 g.tmask)) ∧
    (Occurs .rowDrowsy s fun u => (u.groups.find s.arg.a).map (·.rows) = some g.rows) ∧
    (s.mayRelease s.arg.a g = true → (s.groups.map (·.1)).Nodup →
      Occurs .groupRelease s fun u => u.groups.find s.arg.a = none) ∧
    (∀ o, t.st = .running → g.ops.find? (fun x => x.id == s.arg.b) = some o → o.act = .none →
      Occurs .countedOpComplete s fun u => (u.groups.find s.arg.a).map (·.ops) = some (g.ops.filter fun x => x.id != o.id)) ∧
    (∀ h, s.groups.find (twinOf s.arg.a) = some h → twinOf s.arg.a ≠ s.arg.a → h.team = g.team → t.st = .running →
      l.handler ≠ exitPc → g.hmode = false → h.hmode = false → g.st ≠ .retiring → g.st ≠ .stopped → h.st ≠ .retiring →
      h.st ≠ .stopped →
      (s.mismatched s.arg.a = true → Occurs .shadowMismatch s fun u => InShadowTrap u s.arg.a g l.handler) ∧
      (g.heldOp.isSome → g.matched = false → g.shadow = false → g.heldAt + 4000 < s.time →
        Occurs .shadowLagTimeout s fun u => InShadowTrap u s.arg.a g l.handler)) ∧
    (Occurs .portEntryArrival s fun u => (u.groups.find s.arg.a).map (·.rows) = some g.rows) ∧
    (∀ c i k, g.st = .waiting → g.clause = some c → c.instr = .ok (i, k) →
      (∀ f, g.wait.map (·.kind) = some .bcwait → i = .bcwait f → RunsAgain .bcwaitMet i s) ∧
      (∀ f, g.wait.map (·.kind) = some .sleep → i = .sleep f → RunsAgain .sleepExpiry i s) ∧
      (∀ f, g.wait.map (·.kind) = some .signal → i = .sigwait f → RunsAgain .signalObserved i s) ∧
      (∀ f, g.wait.map (·.kind) = some .port → i = .npush f ∨ i = .npop f ∨ i = .npeek f → RunsAgain .portWaitMet i s) ∧
      (∀ f, g.wait.map (·.kind) = some .stageQueue → i = .sqadd f ∨ i = .sqtake f → RunsAgain .stageQueueWaitMet i s) ∧
      (∀ f, g.wait.map (·.kind) = some .lid → i = .acq f → ∃ v, exec .lidGrant s = .next v ∧ exec i
        { s.modGroup s.arg.a (fun g => { g with wait := g.wait.map fun w => { w with phase := 1 } }) with cur := some s.arg.a } =
          .next v)) ∧
    (∀ c b a lim ph, g.wait = some ⟨.port, b, a, lim, ph⟩ → g.clause = some c → g.st = .waiting → ph / 8 % 2 = 0 →
      cfgPortto g.ctxcfg ≠ 0 → cfgPortto g.ctxcfg * 1000 < lim →
      (∃ n < 32, inMask c.active n = true ∧ (arrivedVals g (ph % 8) n).length < ph / 16) →
      l.handler ≠ exitPc → g.hmode = false → t.st = .running →
      Occurs .portTimeout s fun u => (u.groups.find s.arg.a).map (·.hmode) = some true)) ∧
  (∀ (s : State) g gid since rest, (s.core s.arg.a).allocWait = (gid, since) :: rest → s.groups.find gid = some g →
    (g.st = .waitAlloc → g.poolWant (s.rminOf g) ≤ s.poolFree s.arg.a →
      Occurs .rowGrant s fun u => (u.groups.find gid).map (·.st) = some .ready) ∧
    (∀ v h t s1, since + 10000 ≤ s.time → (s.core s.arg.a).freedAt + 10000 ≤ s.time →
      s.poolFree s.arg.a < g.poolWant (s.rminOf g) → s.rowVictim s.arg.a gid [] = some v → s.groups.find v = some h →
      s.teams.find h.team = some t → s.spillGroup v h t = .ok () s1 → g.poolWant (s.rminOf g) ≤ s1.poolFree s.arg.a →
      exec .rowSpill s = .next s1)) ∧
  ∀ s : State,
    (100 ≤ s.arg.b → s.arg.b < 2 ^ 20 → s.arg.c < 256 → (s.arg.c ≤ 95 → 200 ≤ s.arg.b) →
      (s.core s.arg.a).retnUs ≤ s.arg.b + (s.core s.arg.a).retnUs / 8 →
      Occurs .retnPublish s fun u => (u.core s.arg.a).retnUs = s.arg.b ∧ (u.core s.arg.a).retnTj = s.arg.c) ∧
    ((s.mirrors.map (·.1)).Nodup → Occurs .mirrorAcknowledgement s fun u => u.mirrors.find s.arg.a = none) ∧
    (∀ m since, s.mirrors.find s.arg.a = some m → m.since = some since → since + 30000 ≤ s.time →
      (s.mirrors.map (·.1)).Nodup → Occurs .mirrorAckTimeout s fun u => u.mirrors.find s.arg.a = none) ∧
    (∀ x, s.copies.find s.arg.a = some x →
      (x.total ≤ (x.landed.map (·.2)).sum → x.prologue = false → (s.copies.map (·.1)).Nodup →
        (∀ p ∈ s.peers, ¬ (p.2.kind = .copyWrite ∧ p.2.owner = s.arg.a)) →
        Occurs .copyComplete s fun u => u.copies.find s.arg.a = none) ∧
      (∀ l s1 s2 s3, 0 < s.arg.c → s.arg.b + s.arg.c ≤ x.total →
        (∀ p ∈ x.landed, ¬ (p.1 < s.arg.b + s.arg.c ∧ s.arg.b < p.1 + p.2)) → CutsAt s x s.arg.b → CutsAt s x (s.arg.b + s.arg.c) →
        s.piece s.arg.a x s.arg.b s.arg.c = (some l, s1) → s1.putPiece .copyWrite s.arg.a 3 x l = (some s2, s3) →
        Occurs .copyPieceLanded s fun u => u.mem = s2.mem)) ∧
    (Occurs .slotLanded s fun u => u.mem = s.mem) ∧
    (s.dev.st = .ready → ∀ g, s.groups.find s.arg.a = some g → s.arg.b < 64 → s.arg.c < 32 →
      Occurs .debugRegisterRead s fun u => u.responses.length = s.responses.length + 1) ∧
    (∀ k q n l slots snap core rest, s.queues = [(k, q)] → s.launches = [(n, l)] → s.teams = [] → q.tower = s.arg.a →
      q.prio < 4 → l.q = k → l.tower = s.arg.a → l.st = .dispatching → l.prio ≠ 0 → l.portMask = 0 → l.redundant = false →
      l.snap = false → l.nbind = 0 → l.nbuf = 0 → l.teamSize = 1 → l.coreCount = 1 → l.perCore = 1 → l.nstage = 1 →
      l.outq 0 = 255 → l.maxt 0 = 0 → l.ended = [] → l.placed = [] → 0 < l.nteams → s.areaSlots l = some (slots, snap) →
      s.placements keepAll (s.heldCores n) l.want = [[core]] :: rest →
      Occurs .dispatchTeam s fun u => (u.teams.find s.fresh).map (·.st) = some .running) ∧
    (∀ t, s.teams.find s.arg.a = some t → t.onCores = true → (t.bar s.arg.b).arr = (t.bar s.arg.b).exp →
      0 < (t.bar s.arg.b).arr → Occurs .barrierRelease s fun u =>
        (u.teams.find s.arg.a).map (fun t => (t.bar s.arg.b).arr) = some 0) ∧
    (∀ t l op r n, s.teams.find s.arg.a = some t → s.launches.find t.launch = some l → l.redundant = false →
      t.onCores = true → (s.groups.map (·.1)).Nodup → s.joined s.arg.a ≠ [] →
      (s.joined s.arg.a).length = ((s.groupsOf s.arg.a).filter fun p => ! p.2.shadow).length → reductions[op]? = some r →
      (∀ j ∈ s.joined s.arg.a, j.f.imm.toNat % 16 = op) → field l.desc 0x10 2 ≤ 2 ^ n → n = 0 ∨ 2 ^ (n - 1) < field l.desc 0x10 2 →
      Occurs .treduceRelease s fun u => ∀ j ∈ s.joined s.arg.a, ∀ g, s.groups.find j.gid = some g →
        PastInstr u j.gid g j.clause (encode (.treduce j.f)).length) ∧
    (∀ t l, s.teams.find s.arg.a = some t → s.launches.find t.launch = some l →
      (∀ s1, l.portMask = 0 → t.st = .stopping .preempt → (∀ x ∈ s.groups, x.2.team = s.arg.a → x.2.st = .stopped ∧ x.2.ops = []) →
        (∀ c ∈ s.copies, c.2.team ≠ s.arg.a) → t.binds = [] → (∀ b ∈ t.bars, b.arr = b.exp → b.arr = 0) →
        s.saveTeam s.arg.a t .preempt = .ok () s1 → exec .teamSave s = .next s1) ∧
      (t.st = .stopping .rollback → (∀ x ∈ s.groups, x.2.team = s.arg.a → x.2.st = .stopped ∨ x.2.st = .retiring) →
        Occurs .teamSave s fun u => (u.teams.find s.arg.a).map (·.st) = some (.saved .rollback)) ∧
      (∀ gid g o m w, t.st = .stopping w → w ≠ .discard → t.stoppedAt + 2000 ≤ s.time → s.groups = [(gid, g)] →
        g.team = s.arg.a → g.st = .stopped → g.ops = [o] → o.act = .cwait m →
        Occurs .deferralTimeout s fun u => ∃ h, u.groups.find gid = some h ∧ h.ops = [] ∧
          h.deferred = g.deferred ++ [deferEntry 2 o.opc o.dc o.sz 0 m [] []]) ∧
      (∀ k, t.st = .running → (∃ p ∈ s.groups, p.2.team = s.arg.a ∧ p.2.addStuck s.time (l.sq.getD (l.outq t.stage) 0) = true) →
        l.outq t.stage ≠ 255 → (List.range l.nstage).find? (fun k => l.inq k == l.outq t.stage) = some k →
        (∀ p ∈ s.teams, p.2.launch = t.launch → p.2.stage = k → p.2.onCores = false) →
        s.placements keepAll (s.heldCores t.launch) l.want = [] →
        Occurs .backpressureTimeout s fun u => (u.teams.find s.arg.a).map (·.st) = some (.stopping .backpressure)))

/-- R378, R379, R383 to R388: the events of tile tasks take place, and the work of a RUNNING task is done. -/
def Sys2Proof.Claims.EventsOfTasks : Prop :=
  (∀ (s : State) r q t, s.arg.body = .task r → s.taskAt r = some (q, t) →
    (t.st = .queued → t ∈ q.tasks.take 64 → t.fields.bad = false → t.fields.dsig = 0 → t.fields.sig = 0 →
      Occurs .taskWindowEntry s fun u => TaskIs u r fun x => x.st = .waiting) ∧
    (t.st = .waiting → (∀ a ∈ q.tasks, a.n < t.n → ¬ ordersBefore a.fields t.fields) → t.fields.dsig = 0 →
      Occurs .taskReady s fun u => TaskIs u r fun x => x.st = .ready) ∧
    (∀ e a b, t.st = .ready → (∀ d ∈ (s.tower (r.cluster / 12)).dies, d.2 ≠ .retiring ∧ d.2 ≠ .rebuild) →
      (t.fields.dbnd = 0 ∨ 2 ^ t.fields.dbnd ≤ (s.taskRun r.cluster q.ctx).top) → (s.cluster r.cluster).bindx q t.fields = false →
      (s.cluster r.cluster).isNext r.queue q t = true → t.fields.ranges.1 = [] → s.tensorFault q.ctx t.fields = none →
      (s.cluster r.cluster).slotsFor q t.fields = some (e, a, b) →
      Occurs .taskStart s fun u => TaskIs u r fun x => x.st = .running ∧ x.eng = e ∧ x.aslot = a ∧ x.bslot = b) ∧
    (∀ pa s1 s2 h, t.st = .ended ∨ (t.st = .running ∧ t.worked = true) →
      (∀ p ∈ s.peers, ¬ (p.2.kind = .taskWrite ∧ p.2.owner = taskId r)) → t.failed = [] →
      s.ringPlace r.cluster q.ctx (q.ring + 64 * (t.n % 2 ^ q.logsz) + 0x38) = (some pa, s1) →
      s1.sigPlace r.cluster q.ctx t.fields.sig = (some none, s2) → AtHome s2 pa h → Memory.wf s2.mem = true →
      t.status &&& 0x1F0 = 0 → t.spoor = 0 → (s2.cluster r.cluster).queues.find r.queue = some q →
      ((s2.cluster r.cluster).queues.map (·.1)).Nodup →
      Occurs .taskEnd s fun u => u.taskAt r = none)) ∧
  ∀ (s : State) r q t,
    (AtWork s 0 r q t → Worked .note s r) ∧
    (AtWork s 1 r q t → t.fields.emode < 2 → Worked .zero s r) ∧
    (∀ x s1, AtWork s 2 r q t → s.loadbBytes r q t = (some x, s1) → s1.taskAt r = some (q, t) → Worked .loadb s r) ∧
    (AtWork s 3 r q t → Worked .mma s r) ∧
    (AtWork s 4 r q t → Worked .mmag s r) ∧
    (AtWork s 5 r q t → t.fields.global = false → ((s.drainPass r q t).2.2.taskAt r).isSome →
      (((s.drainPass r q t).2.2.taskPad r q (s.drainPass r q t).2.1 (lastOf s.tick ((s.drainPass r q t).1.flatMap fun p =>
        drainRow t.fields p.1 p.2.1.eref p.2.1.ovr p.2.2))).2.taskAt r).isSome → Worked .drain s r) ∧
    (∀ x s1, AtWork s 6 r q t → s.engineBytes (q.agent r t.launch) 4 t.fields.x20 (2048 * t.fields.nrows) = (some x, s1) →
      s1.taskAt r = some (q, t) → Worked .accld s r) ∧
    (∀ rows v s1 s2 s3 s4 w, AtWork s 7 r q t → s.drainPass r q t = (rows, v, s1) →
      let out := spread (accstTile (s.taskRun r.cluster q.ctx) t.fields.nrows rows)
      s.taskPut r q t t.fields.x20 out = (some s2, s3) → s1.taskPut r q v t.fields.x20 out = (some s4, w) →
      (s4.taskAt r).isSome → Worked .accst s r)

/-! ## Statements of several parts -/

/-- R192 to R198, R202: each vector instruction on 32-bit words completes with its value in every active lane,
whatever the operand form, and keeps everything else; the bit-field instructions bit by bit. -/
def Obligations.VectorResult : Prop :=
  Sys2Proof.Claims.VectorTwoSourceResult ∧ Sys2Proof.Claims.VectorComparisonMask ∧ Sys2Proof.Claims.VectorOneSourceResult ∧ Sys2Proof.Claims.VectorThreeSourceResult ∧ Sys2Proof.Claims.BitFieldResult

/-- R218, R219: each scalar instruction completes with its value computed once for the group, and keeps everything
else. -/
def Obligations.ScalarResult : Prop :=
  Sys2Proof.Claims.ScalarTwoSourceResult ∧ Sys2Proof.Claims.ScalarOtherResult

/-- R190, R199 to R211: a floating-point instruction or conversion writes each active lane's value (`FloatResult`),
or, where an enabled exception is raised, traps FPX and writes no lane (`FpxTrap`). -/
def Obligations.FloatingPoint : Prop :=
  Sys2Proof.Claims.FloatResult ∧ Sys2Proof.Claims.FpxTrap

/-- R104, R163 to R167: what SRDSR, SRDL and SFIRST deliver, and what SWRSR and CHKERR change. -/
def Obligations.SpecialRegisters : Prop :=
  Sys2Proof.Claims.SpecialReadResult ∧ Sys2Proof.Claims.SpecialWriteResult

/-- R90 to R97, R100: taking an exception saves the frame and the cause and enters the handler (`TrapEntry`), or,
without a handler or in one, faults the team (`TeamFault`); TRAP and BKPT take it in every active lane
(`SoftwareTrap`). -/
def Obligations.ExceptionEntry : Prop :=
  Sys2Proof.Claims.TrapEntry ∧ Sys2Proof.Claims.TeamFault ∧ Sys2Proof.Claims.SoftwareTrap

/-- R268, R269, R272, R287, R304, R325: the order of an access's checks where the TLB holds its page (`AccessCheck`),
and the walk through the tables (`PageWalk`). -/
def Obligations.Translation : Prop :=
  Sys2Proof.Claims.AccessCheck ∧ Sys2Proof.Claims.PageWalk

/-- R117, R306 to R308, R310, R329: a load whose lanes are granted completes with the bytes at their addresses
(`GlobalLoadResult`), which come from the L1, the RDC or home (`LoadedBytes`). -/
def Obligations.GlobalLoad : Prop :=
  Sys2Proof.Claims.GlobalLoadResult ∧ Sys2Proof.Claims.LoadedBytes

/-- R117, R296, R306, R307, R310: a store whose lanes are granted completes; its bytes stand in the L1
(`GlobalStoreResult`) or at home (`HomeStoreResult`), and every other byte is as it was. -/
def Obligations.GlobalStore : Prop :=
  Sys2Proof.Claims.GlobalStoreResult ∧ Sys2Proof.Claims.HomeStoreResult

/-- R93, R282, R283, R304: a cause in a lane traps the access (`GlobalAccessTrap`), an absent page holds it
(`AbsentPageWait`). -/
def Obligations.GlobalStops : Prop :=
  Sys2Proof.Claims.GlobalAccessTrap ∧ Sys2Proof.Claims.AbsentPageWait

/-- R222, R225, R226, R230, R240: how an access is classified (`ScratchClassification`), and how long a row keeps what
is written (`ScratchRetention`). -/
def Obligations.ScratchRows : Prop :=
  Sys2Proof.Claims.ScratchClassification ∧ Sys2Proof.Claims.ScratchRetention

/-- R228, R229, R244 to R247: what SPALLOC lays out and answers (`BufferAllocation`), and the buffer instructions
(`BufferControl`). -/
def Obligations.Buffers : Prop :=
  Sys2Proof.Claims.BufferAllocation ∧ Sys2Proof.Claims.BufferControl

/-- R235, R248 to R250: CBCFG, CBWAIT and CBREL (`CircularBuffers`), and the sum of the counts (`CircularCounts`). -/
def Obligations.CircularBufferUse : Prop :=
  Sys2Proof.Claims.CircularBuffers ∧ Sys2Proof.Claims.CircularCounts

/-- R251 to R253, R259 to R263: pushes, pops and peeks (`PortTransfer`), NPSTAT (`PortStatus`), and the neighbours
(`PortsAreMutual`). The room behind a retired neighbour is the model's choice (log entry 19). -/
def Obligations.Ports : Prop :=
  Sys2Proof.Claims.PortTransfer ∧ Sys2Proof.Claims.PortStatus ∧ Sys2Proof.Claims.PortsAreMutual

/-- R342, R348 to R351: exchanges and votes (`LaneExchange`), folds over lanes (`LaneFolds`) and over arrays
(`LongFolds`). -/
def Obligations.LaneOperations : Prop :=
  Sys2Proof.Claims.LaneExchange ∧ Sys2Proof.Claims.LaneFolds ∧ Sys2Proof.Claims.LongFolds

/-- R319 to R323: taking and freeing lids (`LidResult`), what it leaves (`LidEffect`), and the bindings (`LidTable`).
-/
def Obligations.Lids : Prop :=
  Sys2Proof.Claims.LidResult ∧ Sys2Proof.Claims.LidEffect ∧ Sys2Proof.Claims.LidTable

/-- R300 to R303, R325, R326: seals (`SealResult`) and the cache instructions (`CacheControl`). The order of SEAL's
refusals is the model's choice (log entry 16). -/
def Obligations.SealsAndCaches : Prop :=
  Sys2Proof.Claims.SealResult ∧ Sys2Proof.Claims.CacheControl

/-- R354 to R356, R364, R374: the memory copies (`MemoryCopyIssue`), the chained and the tensor copies
(`EngineCopyIssue`). -/
def Obligations.CopyIssue : Prop :=
  Sys2Proof.Claims.MemoryCopyIssue ∧ Sys2Proof.Claims.EngineCopyIssue

/-- R235, R341, R357, R359 to R361, R369: copies land and end (`CopyProgress`); CSEAL, CWAIT, BCARM and BCWAIT
(`BatchesAndByteCounters`). -/
def Obligations.CopyCompletion : Prop :=
  Sys2Proof.Claims.CopyProgress ∧ Sys2Proof.Claims.BatchesAndByteCounters

/-- R337 to R339, R342, R343: BAR, BARA and BARW with their release (`TeamBarriers`), TREDUCE with its
(`TeamReduction`). -/
def Obligations.TeamSynchronisation : Prop :=
  Sys2Proof.Claims.TeamBarriers ∧ Sys2Proof.Claims.TeamReduction

/-- R149, R151 to R153: SQADD and SQTAKE (`StageQueues`), LAUNCH and CANCEL (`LaunchAndCancel`). -/
def Obligations.DeviceWork : Prop :=
  Sys2Proof.Claims.StageQueues ∧ Sys2Proof.Claims.LaunchAndCancel

/-- R126, R311 to R315: an atomic on global memory completes lane by lane (`AtomicResult`), reads and replaces its
location at home (`AtomicAtHome`), and does so in a scratchpad (`ScratchAtomicResult`). -/
def Obligations.Atomics : Prop :=
  Sys2Proof.Claims.AtomicResult ∧ Sys2Proof.Claims.AtomicAtHome ∧ Sys2Proof.Claims.ScratchAtomicResult

/-- R79, R151, R155, R158, R159, R161, R168, R183, R258, R321, R341, R345: completions, releases and grants
(`GroupEvents`), and waits that try again (`WaitsRunAgain`). -/
def Obligations.GroupLife : Prop :=
  Sys2Proof.Claims.GroupEvents ∧ Sys2Proof.Claims.WaitsRunAgain

/-- R16 to R22, R24, R25, R163, R415, R421: power, reset, bring-up and failure (`DeviceLife`); service actions,
updates and attestation (`ServiceActions`). -/
def Obligations.DeviceService : Prop :=
  Sys2Proof.Claims.DeviceLife ∧ Sys2Proof.Claims.ServiceActions

/-- R283, R284, R293, R294: fault rings and RESOLVE (`FaultRings`), free lists and RESERVE (`ChunksOfATower`). -/
def Obligations.DriverMemory : Prop :=
  Sys2Proof.Claims.FaultRings ∧ Sys2Proof.Claims.ChunksOfATower

/-- R280, R281, R294, R297 to R299: frame tables, RECODE, MIGRATE and RELEASE (`FramesMove`), and the retirement of a
slice (`SliceRetires`). -/
def Obligations.FramesAndSlices : Prop :=
  Sys2Proof.Claims.FramesMove ∧ Sys2Proof.Claims.SliceRetires

/-- R415 to R417, R419, R420, R424: what peers may do here (`PeersAtHome`), and requests that fail there
(`PeersFail`). -/
def Obligations.Peers : Prop :=
  Sys2Proof.Claims.PeersAtHome ∧ Sys2Proof.Claims.PeersFail

/-- R21, R22, R426, R427, R431 to R436, R439: link ports (`PortLife`) and vertical buses (`VerticalBuses`). -/
def Obligations.BusesAndPorts : Prop :=
  Sys2Proof.Claims.PortLife ∧ Sys2Proof.Claims.VerticalBuses

/-- R13, R16, R17, R22, R23, R125, R406 to R408, R437, R438, R440 to R442: lost parts, patrol, tokens and heaters
(`PartsAreLost`), and the retirement of a channel die (`ChannelDies`). -/
def Obligations.LostParts : Prop :=
  Sys2Proof.Claims.PartsAreLost ∧ Sys2Proof.Claims.ChannelDies

/-- R374, R377 to R379, R383 to R385, R388 to R390: task queues (`TaskQueues`), starting (`TaskStarts`) and ending
(`TaskEnds`) tasks. -/
def Obligations.Tasks : Prop :=
  Sys2Proof.Claims.TaskQueues ∧ Sys2Proof.Claims.TaskStarts ∧ Sys2Proof.Claims.TaskEnds

/-- R127 to R133, R142, R145, R153, R457: queues (`QueueLife`) and launches (`LaunchLife`). -/
def Obligations.QueuesAndLaunches : Prop :=
  Sys2Proof.Claims.QueueLife ∧ Sys2Proof.Claims.LaunchLife

/-- R105, R111, R135, R143 to R147, R150, R256: the end of a launch (`EndSequence`) and the placement of teams
(`DispatcherActs`). -/
def Obligations.Dispatching : Prop :=
  Sys2Proof.Claims.EndSequence ∧ Sys2Proof.Claims.DispatcherActs

/-- R53, R54, R55, R69, R74, R75: a clause is fetched from the issue address, checked as a whole, and stands before
its group or traps with the highest cause among its defects (`ClauseFetch`); the check finds exactly the defects of
R74 (`ClauseDefects`). -/
def Obligations.ClausesAreChecked : Prop :=
  Sys2Proof.Claims.ClauseFetch ∧ Sys2Proof.Claims.ClauseDefects

/-- R74, R75, R80, R158, R159, R168: no instruction with a defect executes (`DefectsTrap`); reload of spilled names,
BUDGET, STALLU, WAIT_ALLOC and a full counter come before an instruction's effect, in this order (`IssueOrder`). -/
def Obligations.IssueChecks : Prop :=
  Sys2Proof.Claims.DefectsTrap ∧ Sys2Proof.Claims.IssueOrder

/-- R50, R79, R87, R88, R94, R99, R107, R120, R121, R127 to R153, R158, R159, R161, R183, R224, R252, R258, R281,
R283, R284, R293, R294, R297 to R299, R337, R341, R342, R345, R368, R371, R378, R379, R383 to R388, R415 to R442:
under conditions on the state and the operands alone, the driver's requests and the machine's events take place. -/
def Obligations.EventsComplete : Prop :=
  Sys2Proof.Claims.EventsOfContexts ∧ Sys2Proof.Claims.EventsOfMemory ∧ Sys2Proof.Claims.EventsOfDevice ∧ Sys2Proof.Claims.EventsOfGroups ∧ Sys2Proof.Claims.EventsOfTasks
end

