-- ==== Sys2Proof/Laws/Tbl.lean ====
section
/-! SUPPORT. Tables, rows and masks: what reading gives after writing. -/

namespace Sys2Proof.Machine

open Sys2Proof

/-! ## Tables -/

@[simp] theorem Tbl.find_nil {α : Type} (n : Nat) : Tbl.find ([] : Tbl α) n = none := rfl

@[simp] theorem Tbl.find_put_self {α : Type} (t : Tbl α) (n : Nat) (v : α) : (t.put n v).find n = some v := by
  induction t with
  | nil => simp [Tbl.put, Tbl.find]
  | cons p t ih =>
    obtain ⟨k, w⟩ := p
    simp only [Tbl.put]
    split
    · simp [Tbl.find]
    · split
      · simp [Tbl.find]
      · have h : k ≠ n := fun h => by simp_all
        simp [Tbl.find, h, ih]

theorem Tbl.find_put_ne {α : Type} (t : Tbl α) {n m : Nat} (v : α) (h : m ≠ n) : (t.put n v).find m = t.find m := by
  induction t with
  | nil => simp [Tbl.put, Tbl.find, Ne.symm h]
  | cons p t ih =>
    obtain ⟨k, w⟩ := p
    simp only [Tbl.put]
    split
    · simp [Tbl.find, Ne.symm h]
    · split
      · next h1 h2 => subst h2; simp [Tbl.find, Ne.symm h]
      · simp [Tbl.find, ih]

theorem Tbl.find_put {α : Type} (t : Tbl α) (n m : Nat) (v : α) :
    (t.put n v).find m = if m = n then some v else t.find m := by
  by_cases h : m = n
  · subst h; simp
  · simp [h, Tbl.find_put_ne t v h]

theorem Tbl.find_del_ne {α : Type} (t : Tbl α) {n m : Nat} (h : m ≠ n) : (t.del n).find m = t.find m := by
  induction t with
  | nil => rfl
  | cons p t ih =>
    obtain ⟨k, w⟩ := p
    by_cases hk : k = n
    · simp [Tbl.del, Tbl.find, hk, Ne.symm h]
    · simp [Tbl.del, Tbl.find, hk, ih]

theorem Tbl.find_modify {α : Type} (t : Tbl α) (n m : Nat) (f : α → α) :
    (t.modify n f).find m = if m = n then (t.find n).map f else t.find m := by
  unfold Tbl.modify
  by_cases h : m = n
  · subst h
    cases hf : t.find m with
    | none => simp [hf]
    | some a => simp
  · cases hf : t.find n with
    | none => simp [h]
    | some a => simp [h, Tbl.find_put_ne t _ h]

@[simp] theorem Tbl.find_modify_self {α : Type} (t : Tbl α) (n : Nat) (f : α → α) :
    (t.modify n f).find n = (t.find n).map f := by simp [Tbl.find_modify]

theorem Tbl.find_modify_ne {α : Type} (t : Tbl α) {n m : Nat} (f : α → α) (h : m ≠ n) :
    (t.modify n f).find m = t.find m := by simp [Tbl.find_modify, h]

/-- A map that keeps the keys acts on each entry. -/
theorem Tbl.find_map {α : Type} (t : Tbl α) (f : Nat → α → α) (m : Nat) :
    Tbl.find (t.map fun p => (p.1, f p.1 p.2)) m = (t.find m).map (f m) := by
  induction t with
  | nil => rfl
  | cons p t ih =>
    obtain ⟨k, w⟩ := p
    by_cases hk : k = m
    · subst hk; simp [Tbl.find]
    · simp only [List.map_cons, Tbl.find, hk, if_false]
      exact ih

theorem Tbl.findD_put_self {α : Type} (t : Tbl α) (n : Nat) (v d : α) : (t.put n v).findD n d = v := by
  simp [Tbl.findD]

theorem Tbl.findD_put_ne {α : Type} (t : Tbl α) {n m : Nat} (v d : α) (h : m ≠ n) : (t.put n v).findD m d = t.findD m d := by
  simp [Tbl.findD, Tbl.find_put_ne t v h]

/-! ## Rows and masks -/

@[simp] theorem lane_rowOf (f : Nat → Word) (l : Nat) : lane (rowOf f) l = if l < 32 then f l else 0 := by
  by_cases h : l < 32
  · simp [lane, rowOf, h]
  · simp [lane, rowOf, h, List.getD_eq_getElem?_getD]

@[simp] theorem lane_zeroRow (l : Nat) : lane zeroRow l = 0 := by
  simp [zeroRow]

theorem lane_mergeRow (m : Word) (a b : Row) (l : Nat) (h : l < 32) :
    lane (mergeRow m a b) l = if inMask m l then lane b l else lane a l := by
  simp [mergeRow, h]

end Sys2Proof.Machine
end

