-- ==== Sys2Proof/Laws/State.lean ====
section
/-! SUPPORT. What each update of the state leaves: one lemma for each field. -/

namespace Sys2Proof.Machine

open Sys2Proof

variable (s : State)

/-! ## modGroup -/

@[simp] theorem State.modGroup_tick (n : Nat) (f : Group → Group) : (s.modGroup n f).tick = s.tick := rfl
@[simp] theorem State.modGroup_time (n : Nat) (f : Group → Group) : (s.modGroup n f).time = s.time := rfl
@[simp] theorem State.modGroup_turns (n : Nat) (f : Group → Group) : (s.modGroup n f).turns = s.turns := rfl
@[simp] theorem State.modGroup_arg (n : Nat) (f : Group → Group) : (s.modGroup n f).arg = s.arg := rfl
@[simp] theorem State.modGroup_cur (n : Nat) (f : Group → Group) : (s.modGroup n f).cur = s.cur := rfl
@[simp] theorem State.modGroup_dev (n : Nat) (f : Group → Group) : (s.modGroup n f).dev = s.dev := rfl
@[simp] theorem State.modGroup_towers (n : Nat) (f : Group → Group) : (s.modGroup n f).towers = s.towers := rfl
@[simp] theorem State.modGroup_clusters (n : Nat) (f : Group → Group) : (s.modGroup n f).clusters = s.clusters := rfl
@[simp] theorem State.modGroup_cores (n : Nat) (f : Group → Group) : (s.modGroup n f).cores = s.cores := rfl
@[simp] theorem State.modGroup_links (n : Nat) (f : Group → Group) : (s.modGroup n f).links = s.links := rfl
@[simp] theorem State.modGroup_ctxs (n : Nat) (f : Group → Group) : (s.modGroup n f).ctxs = s.ctxs := rfl
@[simp] theorem State.modGroup_queues (n : Nat) (f : Group → Group) : (s.modGroup n f).queues = s.queues := rfl
@[simp] theorem State.modGroup_launches (n : Nat) (f : Group → Group) : (s.modGroup n f).launches = s.launches := rfl
@[simp] theorem State.modGroup_teams (n : Nat) (f : Group → Group) : (s.modGroup n f).teams = s.teams := rfl
@[simp] theorem State.modGroup_copies (n : Nat) (f : Group → Group) : (s.modGroup n f).copies = s.copies := rfl
@[simp] theorem State.modGroup_peers (n : Nat) (f : Group → Group) : (s.modGroup n f).peers = s.peers := rfl
@[simp] theorem State.modGroup_mirrors (n : Nat) (f : Group → Group) : (s.modGroup n f).mirrors = s.mirrors := rfl
@[simp] theorem State.modGroup_ends (n : Nat) (f : Group → Group) : (s.modGroup n f).ends = s.ends := rfl
@[simp] theorem State.modGroup_mem (n : Nat) (f : Group → Group) : (s.modGroup n f).mem = s.mem := rfl
@[simp] theorem State.modGroup_poison (n : Nat) (f : Group → Group) : (s.modGroup n f).poison = s.poison := rfl
@[simp] theorem State.modGroup_fresh (n : Nat) (f : Group → Group) : (s.modGroup n f).fresh = s.fresh := rfl
@[simp] theorem State.modGroup_responses (n : Nat) (f : Group → Group) : (s.modGroup n f).responses = s.responses := rfl
@[simp] theorem State.modGroup_irqs (n : Nat) (f : Group → Group) : (s.modGroup n f).irqs = s.irqs := rfl
@[simp] theorem State.modGroup_xferLog (n : Nat) (f : Group → Group) : (s.modGroup n f).xferLog = s.xferLog := rfl
@[simp] theorem State.modGroup_arrayLog (n : Nat) (f : Group → Group) : (s.modGroup n f).arrayLog = s.arrayLog := rfl
@[simp] theorem State.modGroup_svcLog (n : Nat) (f : Group → Group) : (s.modGroup n f).svcLog = s.svcLog := rfl

/-! ## modTeam -/

@[simp] theorem State.modTeam_tick (n : Nat) (f : Team → Team) : (s.modTeam n f).tick = s.tick := rfl
@[simp] theorem State.modTeam_time (n : Nat) (f : Team → Team) : (s.modTeam n f).time = s.time := rfl
@[simp] theorem State.modTeam_turns (n : Nat) (f : Team → Team) : (s.modTeam n f).turns = s.turns := rfl
@[simp] theorem State.modTeam_arg (n : Nat) (f : Team → Team) : (s.modTeam n f).arg = s.arg := rfl
@[simp] theorem State.modTeam_cur (n : Nat) (f : Team → Team) : (s.modTeam n f).cur = s.cur := rfl
@[simp] theorem State.modTeam_dev (n : Nat) (f : Team → Team) : (s.modTeam n f).dev = s.dev := rfl
@[simp] theorem State.modTeam_towers (n : Nat) (f : Team → Team) : (s.modTeam n f).towers = s.towers := rfl
@[simp] theorem State.modTeam_clusters (n : Nat) (f : Team → Team) : (s.modTeam n f).clusters = s.clusters := rfl
@[simp] theorem State.modTeam_cores (n : Nat) (f : Team → Team) : (s.modTeam n f).cores = s.cores := rfl
@[simp] theorem State.modTeam_links (n : Nat) (f : Team → Team) : (s.modTeam n f).links = s.links := rfl
@[simp] theorem State.modTeam_ctxs (n : Nat) (f : Team → Team) : (s.modTeam n f).ctxs = s.ctxs := rfl
@[simp] theorem State.modTeam_queues (n : Nat) (f : Team → Team) : (s.modTeam n f).queues = s.queues := rfl
@[simp] theorem State.modTeam_launches (n : Nat) (f : Team → Team) : (s.modTeam n f).launches = s.launches := rfl
@[simp] theorem State.modTeam_groups (n : Nat) (f : Team → Team) : (s.modTeam n f).groups = s.groups := rfl
@[simp] theorem State.modTeam_copies (n : Nat) (f : Team → Team) : (s.modTeam n f).copies = s.copies := rfl
@[simp] theorem State.modTeam_peers (n : Nat) (f : Team → Team) : (s.modTeam n f).peers = s.peers := rfl
@[simp] theorem State.modTeam_mirrors (n : Nat) (f : Team → Team) : (s.modTeam n f).mirrors = s.mirrors := rfl
@[simp] theorem State.modTeam_ends (n : Nat) (f : Team → Team) : (s.modTeam n f).ends = s.ends := rfl
@[simp] theorem State.modTeam_mem (n : Nat) (f : Team → Team) : (s.modTeam n f).mem = s.mem := rfl
@[simp] theorem State.modTeam_poison (n : Nat) (f : Team → Team) : (s.modTeam n f).poison = s.poison := rfl
@[simp] theorem State.modTeam_fresh (n : Nat) (f : Team → Team) : (s.modTeam n f).fresh = s.fresh := rfl
@[simp] theorem State.modTeam_responses (n : Nat) (f : Team → Team) : (s.modTeam n f).responses = s.responses := rfl
@[simp] theorem State.modTeam_irqs (n : Nat) (f : Team → Team) : (s.modTeam n f).irqs = s.irqs := rfl
@[simp] theorem State.modTeam_xferLog (n : Nat) (f : Team → Team) : (s.modTeam n f).xferLog = s.xferLog := rfl
@[simp] theorem State.modTeam_arrayLog (n : Nat) (f : Team → Team) : (s.modTeam n f).arrayLog = s.arrayLog := rfl
@[simp] theorem State.modTeam_svcLog (n : Nat) (f : Team → Team) : (s.modTeam n f).svcLog = s.svcLog := rfl

/-! ## modLaunch -/

@[simp] theorem State.modLaunch_tick (n : Nat) (f : Launch → Launch) : (s.modLaunch n f).tick = s.tick := rfl
@[simp] theorem State.modLaunch_time (n : Nat) (f : Launch → Launch) : (s.modLaunch n f).time = s.time := rfl
@[simp] theorem State.modLaunch_turns (n : Nat) (f : Launch → Launch) : (s.modLaunch n f).turns = s.turns := rfl
@[simp] theorem State.modLaunch_arg (n : Nat) (f : Launch → Launch) : (s.modLaunch n f).arg = s.arg := rfl
@[simp] theorem State.modLaunch_cur (n : Nat) (f : Launch → Launch) : (s.modLaunch n f).cur = s.cur := rfl
@[simp] theorem State.modLaunch_dev (n : Nat) (f : Launch → Launch) : (s.modLaunch n f).dev = s.dev := rfl
@[simp] theorem State.modLaunch_towers (n : Nat) (f : Launch → Launch) : (s.modLaunch n f).towers = s.towers := rfl
@[simp] theorem State.modLaunch_clusters (n : Nat) (f : Launch → Launch) : (s.modLaunch n f).clusters = s.clusters := rfl
@[simp] theorem State.modLaunch_cores (n : Nat) (f : Launch → Launch) : (s.modLaunch n f).cores = s.cores := rfl
@[simp] theorem State.modLaunch_links (n : Nat) (f : Launch → Launch) : (s.modLaunch n f).links = s.links := rfl
@[simp] theorem State.modLaunch_ctxs (n : Nat) (f : Launch → Launch) : (s.modLaunch n f).ctxs = s.ctxs := rfl
@[simp] theorem State.modLaunch_queues (n : Nat) (f : Launch → Launch) : (s.modLaunch n f).queues = s.queues := rfl
@[simp] theorem State.modLaunch_teams (n : Nat) (f : Launch → Launch) : (s.modLaunch n f).teams = s.teams := rfl
@[simp] theorem State.modLaunch_groups (n : Nat) (f : Launch → Launch) : (s.modLaunch n f).groups = s.groups := rfl
@[simp] theorem State.modLaunch_copies (n : Nat) (f : Launch → Launch) : (s.modLaunch n f).copies = s.copies := rfl
@[simp] theorem State.modLaunch_peers (n : Nat) (f : Launch → Launch) : (s.modLaunch n f).peers = s.peers := rfl
@[simp] theorem State.modLaunch_mirrors (n : Nat) (f : Launch → Launch) : (s.modLaunch n f).mirrors = s.mirrors := rfl
@[simp] theorem State.modLaunch_ends (n : Nat) (f : Launch → Launch) : (s.modLaunch n f).ends = s.ends := rfl
@[simp] theorem State.modLaunch_mem (n : Nat) (f : Launch → Launch) : (s.modLaunch n f).mem = s.mem := rfl
@[simp] theorem State.modLaunch_poison (n : Nat) (f : Launch → Launch) : (s.modLaunch n f).poison = s.poison := rfl
@[simp] theorem State.modLaunch_fresh (n : Nat) (f : Launch → Launch) : (s.modLaunch n f).fresh = s.fresh := rfl
@[simp] theorem State.modLaunch_responses (n : Nat) (f : Launch → Launch) : (s.modLaunch n f).responses = s.responses := rfl
@[simp] theorem State.modLaunch_irqs (n : Nat) (f : Launch → Launch) : (s.modLaunch n f).irqs = s.irqs := rfl
@[simp] theorem State.modLaunch_xferLog (n : Nat) (f : Launch → Launch) : (s.modLaunch n f).xferLog = s.xferLog := rfl
@[simp] theorem State.modLaunch_arrayLog (n : Nat) (f : Launch → Launch) : (s.modLaunch n f).arrayLog = s.arrayLog := rfl
@[simp] theorem State.modLaunch_svcLog (n : Nat) (f : Launch → Launch) : (s.modLaunch n f).svcLog = s.svcLog := rfl

/-! ## modQueue -/

@[simp] theorem State.modQueue_tick (n : Nat) (f : Queue → Queue) : (s.modQueue n f).tick = s.tick := rfl
@[simp] theorem State.modQueue_time (n : Nat) (f : Queue → Queue) : (s.modQueue n f).time = s.time := rfl
@[simp] theorem State.modQueue_turns (n : Nat) (f : Queue → Queue) : (s.modQueue n f).turns = s.turns := rfl
@[simp] theorem State.modQueue_arg (n : Nat) (f : Queue → Queue) : (s.modQueue n f).arg = s.arg := rfl
@[simp] theorem State.modQueue_cur (n : Nat) (f : Queue → Queue) : (s.modQueue n f).cur = s.cur := rfl
@[simp] theorem State.modQueue_dev (n : Nat) (f : Queue → Queue) : (s.modQueue n f).dev = s.dev := rfl
@[simp] theorem State.modQueue_towers (n : Nat) (f : Queue → Queue) : (s.modQueue n f).towers = s.towers := rfl
@[simp] theorem State.modQueue_clusters (n : Nat) (f : Queue → Queue) : (s.modQueue n f).clusters = s.clusters := rfl
@[simp] theorem State.modQueue_cores (n : Nat) (f : Queue → Queue) : (s.modQueue n f).cores = s.cores := rfl
@[simp] theorem State.modQueue_links (n : Nat) (f : Queue → Queue) : (s.modQueue n f).links = s.links := rfl
@[simp] theorem State.modQueue_ctxs (n : Nat) (f : Queue → Queue) : (s.modQueue n f).ctxs = s.ctxs := rfl
@[simp] theorem State.modQueue_launches (n : Nat) (f : Queue → Queue) : (s.modQueue n f).launches = s.launches := rfl
@[simp] theorem State.modQueue_teams (n : Nat) (f : Queue → Queue) : (s.modQueue n f).teams = s.teams := rfl
@[simp] theorem State.modQueue_groups (n : Nat) (f : Queue → Queue) : (s.modQueue n f).groups = s.groups := rfl
@[simp] theorem State.modQueue_copies (n : Nat) (f : Queue → Queue) : (s.modQueue n f).copies = s.copies := rfl
@[simp] theorem State.modQueue_peers (n : Nat) (f : Queue → Queue) : (s.modQueue n f).peers = s.peers := rfl
@[simp] theorem State.modQueue_mirrors (n : Nat) (f : Queue → Queue) : (s.modQueue n f).mirrors = s.mirrors := rfl
@[simp] theorem State.modQueue_ends (n : Nat) (f : Queue → Queue) : (s.modQueue n f).ends = s.ends := rfl
@[simp] theorem State.modQueue_mem (n : Nat) (f : Queue → Queue) : (s.modQueue n f).mem = s.mem := rfl
@[simp] theorem State.modQueue_poison (n : Nat) (f : Queue → Queue) : (s.modQueue n f).poison = s.poison := rfl
@[simp] theorem State.modQueue_fresh (n : Nat) (f : Queue → Queue) : (s.modQueue n f).fresh = s.fresh := rfl
@[simp] theorem State.modQueue_responses (n : Nat) (f : Queue → Queue) : (s.modQueue n f).responses = s.responses := rfl
@[simp] theorem State.modQueue_irqs (n : Nat) (f : Queue → Queue) : (s.modQueue n f).irqs = s.irqs := rfl
@[simp] theorem State.modQueue_xferLog (n : Nat) (f : Queue → Queue) : (s.modQueue n f).xferLog = s.xferLog := rfl
@[simp] theorem State.modQueue_arrayLog (n : Nat) (f : Queue → Queue) : (s.modQueue n f).arrayLog = s.arrayLog := rfl
@[simp] theorem State.modQueue_svcLog (n : Nat) (f : Queue → Queue) : (s.modQueue n f).svcLog = s.svcLog := rfl

/-! ## modCopy -/

@[simp] theorem State.modCopy_tick (n : Nat) (f : Copy → Copy) : (s.modCopy n f).tick = s.tick := rfl
@[simp] theorem State.modCopy_time (n : Nat) (f : Copy → Copy) : (s.modCopy n f).time = s.time := rfl
@[simp] theorem State.modCopy_turns (n : Nat) (f : Copy → Copy) : (s.modCopy n f).turns = s.turns := rfl
@[simp] theorem State.modCopy_arg (n : Nat) (f : Copy → Copy) : (s.modCopy n f).arg = s.arg := rfl
@[simp] theorem State.modCopy_cur (n : Nat) (f : Copy → Copy) : (s.modCopy n f).cur = s.cur := rfl
@[simp] theorem State.modCopy_dev (n : Nat) (f : Copy → Copy) : (s.modCopy n f).dev = s.dev := rfl
@[simp] theorem State.modCopy_towers (n : Nat) (f : Copy → Copy) : (s.modCopy n f).towers = s.towers := rfl
@[simp] theorem State.modCopy_clusters (n : Nat) (f : Copy → Copy) : (s.modCopy n f).clusters = s.clusters := rfl
@[simp] theorem State.modCopy_cores (n : Nat) (f : Copy → Copy) : (s.modCopy n f).cores = s.cores := rfl
@[simp] theorem State.modCopy_links (n : Nat) (f : Copy → Copy) : (s.modCopy n f).links = s.links := rfl
@[simp] theorem State.modCopy_ctxs (n : Nat) (f : Copy → Copy) : (s.modCopy n f).ctxs = s.ctxs := rfl
@[simp] theorem State.modCopy_queues (n : Nat) (f : Copy → Copy) : (s.modCopy n f).queues = s.queues := rfl
@[simp] theorem State.modCopy_launches (n : Nat) (f : Copy → Copy) : (s.modCopy n f).launches = s.launches := rfl
@[simp] theorem State.modCopy_teams (n : Nat) (f : Copy → Copy) : (s.modCopy n f).teams = s.teams := rfl
@[simp] theorem State.modCopy_groups (n : Nat) (f : Copy → Copy) : (s.modCopy n f).groups = s.groups := rfl
@[simp] theorem State.modCopy_peers (n : Nat) (f : Copy → Copy) : (s.modCopy n f).peers = s.peers := rfl
@[simp] theorem State.modCopy_mirrors (n : Nat) (f : Copy → Copy) : (s.modCopy n f).mirrors = s.mirrors := rfl
@[simp] theorem State.modCopy_ends (n : Nat) (f : Copy → Copy) : (s.modCopy n f).ends = s.ends := rfl
@[simp] theorem State.modCopy_mem (n : Nat) (f : Copy → Copy) : (s.modCopy n f).mem = s.mem := rfl
@[simp] theorem State.modCopy_poison (n : Nat) (f : Copy → Copy) : (s.modCopy n f).poison = s.poison := rfl
@[simp] theorem State.modCopy_fresh (n : Nat) (f : Copy → Copy) : (s.modCopy n f).fresh = s.fresh := rfl
@[simp] theorem State.modCopy_responses (n : Nat) (f : Copy → Copy) : (s.modCopy n f).responses = s.responses := rfl
@[simp] theorem State.modCopy_irqs (n : Nat) (f : Copy → Copy) : (s.modCopy n f).irqs = s.irqs := rfl
@[simp] theorem State.modCopy_xferLog (n : Nat) (f : Copy → Copy) : (s.modCopy n f).xferLog = s.xferLog := rfl
@[simp] theorem State.modCopy_arrayLog (n : Nat) (f : Copy → Copy) : (s.modCopy n f).arrayLog = s.arrayLog := rfl
@[simp] theorem State.modCopy_svcLog (n : Nat) (f : Copy → Copy) : (s.modCopy n f).svcLog = s.svcLog := rfl

/-! ## modDev -/

@[simp] theorem State.modDev_tick (f : Device → Device) : (s.modDev f).tick = s.tick := rfl
@[simp] theorem State.modDev_time (f : Device → Device) : (s.modDev f).time = s.time := rfl
@[simp] theorem State.modDev_turns (f : Device → Device) : (s.modDev f).turns = s.turns := rfl
@[simp] theorem State.modDev_arg (f : Device → Device) : (s.modDev f).arg = s.arg := rfl
@[simp] theorem State.modDev_cur (f : Device → Device) : (s.modDev f).cur = s.cur := rfl
@[simp] theorem State.modDev_towers (f : Device → Device) : (s.modDev f).towers = s.towers := rfl
@[simp] theorem State.modDev_clusters (f : Device → Device) : (s.modDev f).clusters = s.clusters := rfl
@[simp] theorem State.modDev_cores (f : Device → Device) : (s.modDev f).cores = s.cores := rfl
@[simp] theorem State.modDev_links (f : Device → Device) : (s.modDev f).links = s.links := rfl
@[simp] theorem State.modDev_ctxs (f : Device → Device) : (s.modDev f).ctxs = s.ctxs := rfl
@[simp] theorem State.modDev_queues (f : Device → Device) : (s.modDev f).queues = s.queues := rfl
@[simp] theorem State.modDev_launches (f : Device → Device) : (s.modDev f).launches = s.launches := rfl
@[simp] theorem State.modDev_teams (f : Device → Device) : (s.modDev f).teams = s.teams := rfl
@[simp] theorem State.modDev_groups (f : Device → Device) : (s.modDev f).groups = s.groups := rfl
@[simp] theorem State.modDev_copies (f : Device → Device) : (s.modDev f).copies = s.copies := rfl
@[simp] theorem State.modDev_peers (f : Device → Device) : (s.modDev f).peers = s.peers := rfl
@[simp] theorem State.modDev_mirrors (f : Device → Device) : (s.modDev f).mirrors = s.mirrors := rfl
@[simp] theorem State.modDev_ends (f : Device → Device) : (s.modDev f).ends = s.ends := rfl
@[simp] theorem State.modDev_mem (f : Device → Device) : (s.modDev f).mem = s.mem := rfl
@[simp] theorem State.modDev_poison (f : Device → Device) : (s.modDev f).poison = s.poison := rfl
@[simp] theorem State.modDev_fresh (f : Device → Device) : (s.modDev f).fresh = s.fresh := rfl
@[simp] theorem State.modDev_responses (f : Device → Device) : (s.modDev f).responses = s.responses := rfl
@[simp] theorem State.modDev_irqs (f : Device → Device) : (s.modDev f).irqs = s.irqs := rfl
@[simp] theorem State.modDev_xferLog (f : Device → Device) : (s.modDev f).xferLog = s.xferLog := rfl
@[simp] theorem State.modDev_arrayLog (f : Device → Device) : (s.modDev f).arrayLog = s.arrayLog := rfl
@[simp] theorem State.modDev_svcLog (f : Device → Device) : (s.modDev f).svcLog = s.svcLog := rfl

/-! ## setTower -/

@[simp] theorem State.setTower_tick (n : Nat) (x : Tower) : (s.setTower n x).tick = s.tick := rfl
@[simp] theorem State.setTower_time (n : Nat) (x : Tower) : (s.setTower n x).time = s.time := rfl
@[simp] theorem State.setTower_turns (n : Nat) (x : Tower) : (s.setTower n x).turns = s.turns := rfl
@[simp] theorem State.setTower_arg (n : Nat) (x : Tower) : (s.setTower n x).arg = s.arg := rfl
@[simp] theorem State.setTower_cur (n : Nat) (x : Tower) : (s.setTower n x).cur = s.cur := rfl
@[simp] theorem State.setTower_dev (n : Nat) (x : Tower) : (s.setTower n x).dev = s.dev := rfl
@[simp] theorem State.setTower_clusters (n : Nat) (x : Tower) : (s.setTower n x).clusters = s.clusters := rfl
@[simp] theorem State.setTower_cores (n : Nat) (x : Tower) : (s.setTower n x).cores = s.cores := rfl
@[simp] theorem State.setTower_links (n : Nat) (x : Tower) : (s.setTower n x).links = s.links := rfl
@[simp] theorem State.setTower_ctxs (n : Nat) (x : Tower) : (s.setTower n x).ctxs = s.ctxs := rfl
@[simp] theorem State.setTower_queues (n : Nat) (x : Tower) : (s.setTower n x).queues = s.queues := rfl
@[simp] theorem State.setTower_launches (n : Nat) (x : Tower) : (s.setTower n x).launches = s.launches := rfl
@[simp] theorem State.setTower_teams (n : Nat) (x : Tower) : (s.setTower n x).teams = s.teams := rfl
@[simp] theorem State.setTower_groups (n : Nat) (x : Tower) : (s.setTower n x).groups = s.groups := rfl
@[simp] theorem State.setTower_copies (n : Nat) (x : Tower) : (s.setTower n x).copies = s.copies := rfl
@[simp] theorem State.setTower_peers (n : Nat) (x : Tower) : (s.setTower n x).peers = s.peers := rfl
@[simp] theorem State.setTower_mirrors (n : Nat) (x : Tower) : (s.setTower n x).mirrors = s.mirrors := rfl
@[simp] theorem State.setTower_ends (n : Nat) (x : Tower) : (s.setTower n x).ends = s.ends := rfl
@[simp] theorem State.setTower_mem (n : Nat) (x : Tower) : (s.setTower n x).mem = s.mem := rfl
@[simp] theorem State.setTower_poison (n : Nat) (x : Tower) : (s.setTower n x).poison = s.poison := rfl
@[simp] theorem State.setTower_fresh (n : Nat) (x : Tower) : (s.setTower n x).fresh = s.fresh := rfl
@[simp] theorem State.setTower_responses (n : Nat) (x : Tower) : (s.setTower n x).responses = s.responses := rfl
@[simp] theorem State.setTower_irqs (n : Nat) (x : Tower) : (s.setTower n x).irqs = s.irqs := rfl
@[simp] theorem State.setTower_xferLog (n : Nat) (x : Tower) : (s.setTower n x).xferLog = s.xferLog := rfl
@[simp] theorem State.setTower_arrayLog (n : Nat) (x : Tower) : (s.setTower n x).arrayLog = s.arrayLog := rfl
@[simp] theorem State.setTower_svcLog (n : Nat) (x : Tower) : (s.setTower n x).svcLog = s.svcLog := rfl

/-! ## modTower -/

@[simp] theorem State.modTower_tick (n : Nat) (f : Tower → Tower) : (s.modTower n f).tick = s.tick := rfl
@[simp] theorem State.modTower_time (n : Nat) (f : Tower → Tower) : (s.modTower n f).time = s.time := rfl
@[simp] theorem State.modTower_turns (n : Nat) (f : Tower → Tower) : (s.modTower n f).turns = s.turns := rfl
@[simp] theorem State.modTower_arg (n : Nat) (f : Tower → Tower) : (s.modTower n f).arg = s.arg := rfl
@[simp] theorem State.modTower_cur (n : Nat) (f : Tower → Tower) : (s.modTower n f).cur = s.cur := rfl
@[simp] theorem State.modTower_dev (n : Nat) (f : Tower → Tower) : (s.modTower n f).dev = s.dev := rfl
@[simp] theorem State.modTower_clusters (n : Nat) (f : Tower → Tower) : (s.modTower n f).clusters = s.clusters := rfl
@[simp] theorem State.modTower_cores (n : Nat) (f : Tower → Tower) : (s.modTower n f).cores = s.cores := rfl
@[simp] theorem State.modTower_links (n : Nat) (f : Tower → Tower) : (s.modTower n f).links = s.links := rfl
@[simp] theorem State.modTower_ctxs (n : Nat) (f : Tower → Tower) : (s.modTower n f).ctxs = s.ctxs := rfl
@[simp] theorem State.modTower_queues (n : Nat) (f : Tower → Tower) : (s.modTower n f).queues = s.queues := rfl
@[simp] theorem State.modTower_launches (n : Nat) (f : Tower → Tower) : (s.modTower n f).launches = s.launches := rfl
@[simp] theorem State.modTower_teams (n : Nat) (f : Tower → Tower) : (s.modTower n f).teams = s.teams := rfl
@[simp] theorem State.modTower_groups (n : Nat) (f : Tower → Tower) : (s.modTower n f).groups = s.groups := rfl
@[simp] theorem State.modTower_copies (n : Nat) (f : Tower → Tower) : (s.modTower n f).copies = s.copies := rfl
@[simp] theorem State.modTower_peers (n : Nat) (f : Tower → Tower) : (s.modTower n f).peers = s.peers := rfl
@[simp] theorem State.modTower_mirrors (n : Nat) (f : Tower → Tower) : (s.modTower n f).mirrors = s.mirrors := rfl
@[simp] theorem State.modTower_ends (n : Nat) (f : Tower → Tower) : (s.modTower n f).ends = s.ends := rfl
@[simp] theorem State.modTower_mem (n : Nat) (f : Tower → Tower) : (s.modTower n f).mem = s.mem := rfl
@[simp] theorem State.modTower_poison (n : Nat) (f : Tower → Tower) : (s.modTower n f).poison = s.poison := rfl
@[simp] theorem State.modTower_fresh (n : Nat) (f : Tower → Tower) : (s.modTower n f).fresh = s.fresh := rfl
@[simp] theorem State.modTower_responses (n : Nat) (f : Tower → Tower) : (s.modTower n f).responses = s.responses := rfl
@[simp] theorem State.modTower_irqs (n : Nat) (f : Tower → Tower) : (s.modTower n f).irqs = s.irqs := rfl
@[simp] theorem State.modTower_xferLog (n : Nat) (f : Tower → Tower) : (s.modTower n f).xferLog = s.xferLog := rfl
@[simp] theorem State.modTower_arrayLog (n : Nat) (f : Tower → Tower) : (s.modTower n f).arrayLog = s.arrayLog := rfl
@[simp] theorem State.modTower_svcLog (n : Nat) (f : Tower → Tower) : (s.modTower n f).svcLog = s.svcLog := rfl

/-! ## setCluster -/

@[simp] theorem State.setCluster_tick (n : Nat) (x : Cluster) : (s.setCluster n x).tick = s.tick := rfl
@[simp] theorem State.setCluster_time (n : Nat) (x : Cluster) : (s.setCluster n x).time = s.time := rfl
@[simp] theorem State.setCluster_turns (n : Nat) (x : Cluster) : (s.setCluster n x).turns = s.turns := rfl
@[simp] theorem State.setCluster_arg (n : Nat) (x : Cluster) : (s.setCluster n x).arg = s.arg := rfl
@[simp] theorem State.setCluster_cur (n : Nat) (x : Cluster) : (s.setCluster n x).cur = s.cur := rfl
@[simp] theorem State.setCluster_dev (n : Nat) (x : Cluster) : (s.setCluster n x).dev = s.dev := rfl
@[simp] theorem State.setCluster_towers (n : Nat) (x : Cluster) : (s.setCluster n x).towers = s.towers := rfl
@[simp] theorem State.setCluster_cores (n : Nat) (x : Cluster) : (s.setCluster n x).cores = s.cores := rfl
@[simp] theorem State.setCluster_links (n : Nat) (x : Cluster) : (s.setCluster n x).links = s.links := rfl
@[simp] theorem State.setCluster_ctxs (n : Nat) (x : Cluster) : (s.setCluster n x).ctxs = s.ctxs := rfl
@[simp] theorem State.setCluster_queues (n : Nat) (x : Cluster) : (s.setCluster n x).queues = s.queues := rfl
@[simp] theorem State.setCluster_launches (n : Nat) (x : Cluster) : (s.setCluster n x).launches = s.launches := rfl
@[simp] theorem State.setCluster_teams (n : Nat) (x : Cluster) : (s.setCluster n x).teams = s.teams := rfl
@[simp] theorem State.setCluster_groups (n : Nat) (x : Cluster) : (s.setCluster n x).groups = s.groups := rfl
@[simp] theorem State.setCluster_copies (n : Nat) (x : Cluster) : (s.setCluster n x).copies = s.copies := rfl
@[simp] theorem State.setCluster_peers (n : Nat) (x : Cluster) : (s.setCluster n x).peers = s.peers := rfl
@[simp] theorem State.setCluster_mirrors (n : Nat) (x : Cluster) : (s.setCluster n x).mirrors = s.mirrors := rfl
@[simp] theorem State.setCluster_ends (n : Nat) (x : Cluster) : (s.setCluster n x).ends = s.ends := rfl
@[simp] theorem State.setCluster_mem (n : Nat) (x : Cluster) : (s.setCluster n x).mem = s.mem := rfl
@[simp] theorem State.setCluster_poison (n : Nat) (x : Cluster) : (s.setCluster n x).poison = s.poison := rfl
@[simp] theorem State.setCluster_fresh (n : Nat) (x : Cluster) : (s.setCluster n x).fresh = s.fresh := rfl
@[simp] theorem State.setCluster_responses (n : Nat) (x : Cluster) : (s.setCluster n x).responses = s.responses := rfl
@[simp] theorem State.setCluster_irqs (n : Nat) (x : Cluster) : (s.setCluster n x).irqs = s.irqs := rfl
@[simp] theorem State.setCluster_xferLog (n : Nat) (x : Cluster) : (s.setCluster n x).xferLog = s.xferLog := rfl
@[simp] theorem State.setCluster_arrayLog (n : Nat) (x : Cluster) : (s.setCluster n x).arrayLog = s.arrayLog := rfl
@[simp] theorem State.setCluster_svcLog (n : Nat) (x : Cluster) : (s.setCluster n x).svcLog = s.svcLog := rfl

/-! ## modCluster -/

@[simp] theorem State.modCluster_tick (n : Nat) (f : Cluster → Cluster) : (s.modCluster n f).tick = s.tick := rfl
@[simp] theorem State.modCluster_time (n : Nat) (f : Cluster → Cluster) : (s.modCluster n f).time = s.time := rfl
@[simp] theorem State.modCluster_turns (n : Nat) (f : Cluster → Cluster) : (s.modCluster n f).turns = s.turns := rfl
@[simp] theorem State.modCluster_arg (n : Nat) (f : Cluster → Cluster) : (s.modCluster n f).arg = s.arg := rfl
@[simp] theorem State.modCluster_cur (n : Nat) (f : Cluster → Cluster) : (s.modCluster n f).cur = s.cur := rfl
@[simp] theorem State.modCluster_dev (n : Nat) (f : Cluster → Cluster) : (s.modCluster n f).dev = s.dev := rfl
@[simp] theorem State.modCluster_towers (n : Nat) (f : Cluster → Cluster) : (s.modCluster n f).towers = s.towers := rfl
@[simp] theorem State.modCluster_cores (n : Nat) (f : Cluster → Cluster) : (s.modCluster n f).cores = s.cores := rfl
@[simp] theorem State.modCluster_links (n : Nat) (f : Cluster → Cluster) : (s.modCluster n f).links = s.links := rfl
@[simp] theorem State.modCluster_ctxs (n : Nat) (f : Cluster → Cluster) : (s.modCluster n f).ctxs = s.ctxs := rfl
@[simp] theorem State.modCluster_queues (n : Nat) (f : Cluster → Cluster) : (s.modCluster n f).queues = s.queues := rfl
@[simp] theorem State.modCluster_launches (n : Nat) (f : Cluster → Cluster) : (s.modCluster n f).launches = s.launches := rfl
@[simp] theorem State.modCluster_teams (n : Nat) (f : Cluster → Cluster) : (s.modCluster n f).teams = s.teams := rfl
@[simp] theorem State.modCluster_groups (n : Nat) (f : Cluster → Cluster) : (s.modCluster n f).groups = s.groups := rfl
@[simp] theorem State.modCluster_copies (n : Nat) (f : Cluster → Cluster) : (s.modCluster n f).copies = s.copies := rfl
@[simp] theorem State.modCluster_peers (n : Nat) (f : Cluster → Cluster) : (s.modCluster n f).peers = s.peers := rfl
@[simp] theorem State.modCluster_mirrors (n : Nat) (f : Cluster → Cluster) : (s.modCluster n f).mirrors = s.mirrors := rfl
@[simp] theorem State.modCluster_ends (n : Nat) (f : Cluster → Cluster) : (s.modCluster n f).ends = s.ends := rfl
@[simp] theorem State.modCluster_mem (n : Nat) (f : Cluster → Cluster) : (s.modCluster n f).mem = s.mem := rfl
@[simp] theorem State.modCluster_poison (n : Nat) (f : Cluster → Cluster) : (s.modCluster n f).poison = s.poison := rfl
@[simp] theorem State.modCluster_fresh (n : Nat) (f : Cluster → Cluster) : (s.modCluster n f).fresh = s.fresh := rfl
@[simp] theorem State.modCluster_responses (n : Nat) (f : Cluster → Cluster) : (s.modCluster n f).responses = s.responses := rfl
@[simp] theorem State.modCluster_irqs (n : Nat) (f : Cluster → Cluster) : (s.modCluster n f).irqs = s.irqs := rfl
@[simp] theorem State.modCluster_xferLog (n : Nat) (f : Cluster → Cluster) : (s.modCluster n f).xferLog = s.xferLog := rfl
@[simp] theorem State.modCluster_arrayLog (n : Nat) (f : Cluster → Cluster) : (s.modCluster n f).arrayLog = s.arrayLog := rfl
@[simp] theorem State.modCluster_svcLog (n : Nat) (f : Cluster → Cluster) : (s.modCluster n f).svcLog = s.svcLog := rfl

/-! ## setCore -/

@[simp] theorem State.setCore_tick (n : Nat) (x : Core) : (s.setCore n x).tick = s.tick := rfl
@[simp] theorem State.setCore_time (n : Nat) (x : Core) : (s.setCore n x).time = s.time := rfl
@[simp] theorem State.setCore_turns (n : Nat) (x : Core) : (s.setCore n x).turns = s.turns := rfl
@[simp] theorem State.setCore_arg (n : Nat) (x : Core) : (s.setCore n x).arg = s.arg := rfl
@[simp] theorem State.setCore_cur (n : Nat) (x : Core) : (s.setCore n x).cur = s.cur := rfl
@[simp] theorem State.setCore_dev (n : Nat) (x : Core) : (s.setCore n x).dev = s.dev := rfl
@[simp] theorem State.setCore_towers (n : Nat) (x : Core) : (s.setCore n x).towers = s.towers := rfl
@[simp] theorem State.setCore_clusters (n : Nat) (x : Core) : (s.setCore n x).clusters = s.clusters := rfl
@[simp] theorem State.setCore_links (n : Nat) (x : Core) : (s.setCore n x).links = s.links := rfl
@[simp] theorem State.setCore_ctxs (n : Nat) (x : Core) : (s.setCore n x).ctxs = s.ctxs := rfl
@[simp] theorem State.setCore_queues (n : Nat) (x : Core) : (s.setCore n x).queues = s.queues := rfl
@[simp] theorem State.setCore_launches (n : Nat) (x : Core) : (s.setCore n x).launches = s.launches := rfl
@[simp] theorem State.setCore_teams (n : Nat) (x : Core) : (s.setCore n x).teams = s.teams := rfl
@[simp] theorem State.setCore_groups (n : Nat) (x : Core) : (s.setCore n x).groups = s.groups := rfl
@[simp] theorem State.setCore_copies (n : Nat) (x : Core) : (s.setCore n x).copies = s.copies := rfl
@[simp] theorem State.setCore_peers (n : Nat) (x : Core) : (s.setCore n x).peers = s.peers := rfl
@[simp] theorem State.setCore_mirrors (n : Nat) (x : Core) : (s.setCore n x).mirrors = s.mirrors := rfl
@[simp] theorem State.setCore_ends (n : Nat) (x : Core) : (s.setCore n x).ends = s.ends := rfl
@[simp] theorem State.setCore_mem (n : Nat) (x : Core) : (s.setCore n x).mem = s.mem := rfl
@[simp] theorem State.setCore_poison (n : Nat) (x : Core) : (s.setCore n x).poison = s.poison := rfl
@[simp] theorem State.setCore_fresh (n : Nat) (x : Core) : (s.setCore n x).fresh = s.fresh := rfl
@[simp] theorem State.setCore_responses (n : Nat) (x : Core) : (s.setCore n x).responses = s.responses := rfl
@[simp] theorem State.setCore_irqs (n : Nat) (x : Core) : (s.setCore n x).irqs = s.irqs := rfl
@[simp] theorem State.setCore_xferLog (n : Nat) (x : Core) : (s.setCore n x).xferLog = s.xferLog := rfl
@[simp] theorem State.setCore_arrayLog (n : Nat) (x : Core) : (s.setCore n x).arrayLog = s.arrayLog := rfl
@[simp] theorem State.setCore_svcLog (n : Nat) (x : Core) : (s.setCore n x).svcLog = s.svcLog := rfl

/-! ## modCore -/

@[simp] theorem State.modCore_tick (n : Nat) (f : Core → Core) : (s.modCore n f).tick = s.tick := rfl
@[simp] theorem State.modCore_time (n : Nat) (f : Core → Core) : (s.modCore n f).time = s.time := rfl
@[simp] theorem State.modCore_turns (n : Nat) (f : Core → Core) : (s.modCore n f).turns = s.turns := rfl
@[simp] theorem State.modCore_arg (n : Nat) (f : Core → Core) : (s.modCore n f).arg = s.arg := rfl
@[simp] theorem State.modCore_cur (n : Nat) (f : Core → Core) : (s.modCore n f).cur = s.cur := rfl
@[simp] theorem State.modCore_dev (n : Nat) (f : Core → Core) : (s.modCore n f).dev = s.dev := rfl
@[simp] theorem State.modCore_towers (n : Nat) (f : Core → Core) : (s.modCore n f).towers = s.towers := rfl
@[simp] theorem State.modCore_clusters (n : Nat) (f : Core → Core) : (s.modCore n f).clusters = s.clusters := rfl
@[simp] theorem State.modCore_links (n : Nat) (f : Core → Core) : (s.modCore n f).links = s.links := rfl
@[simp] theorem State.modCore_ctxs (n : Nat) (f : Core → Core) : (s.modCore n f).ctxs = s.ctxs := rfl
@[simp] theorem State.modCore_queues (n : Nat) (f : Core → Core) : (s.modCore n f).queues = s.queues := rfl
@[simp] theorem State.modCore_launches (n : Nat) (f : Core → Core) : (s.modCore n f).launches = s.launches := rfl
@[simp] theorem State.modCore_teams (n : Nat) (f : Core → Core) : (s.modCore n f).teams = s.teams := rfl
@[simp] theorem State.modCore_groups (n : Nat) (f : Core → Core) : (s.modCore n f).groups = s.groups := rfl
@[simp] theorem State.modCore_copies (n : Nat) (f : Core → Core) : (s.modCore n f).copies = s.copies := rfl
@[simp] theorem State.modCore_peers (n : Nat) (f : Core → Core) : (s.modCore n f).peers = s.peers := rfl
@[simp] theorem State.modCore_mirrors (n : Nat) (f : Core → Core) : (s.modCore n f).mirrors = s.mirrors := rfl
@[simp] theorem State.modCore_ends (n : Nat) (f : Core → Core) : (s.modCore n f).ends = s.ends := rfl
@[simp] theorem State.modCore_mem (n : Nat) (f : Core → Core) : (s.modCore n f).mem = s.mem := rfl
@[simp] theorem State.modCore_poison (n : Nat) (f : Core → Core) : (s.modCore n f).poison = s.poison := rfl
@[simp] theorem State.modCore_fresh (n : Nat) (f : Core → Core) : (s.modCore n f).fresh = s.fresh := rfl
@[simp] theorem State.modCore_responses (n : Nat) (f : Core → Core) : (s.modCore n f).responses = s.responses := rfl
@[simp] theorem State.modCore_irqs (n : Nat) (f : Core → Core) : (s.modCore n f).irqs = s.irqs := rfl
@[simp] theorem State.modCore_xferLog (n : Nat) (f : Core → Core) : (s.modCore n f).xferLog = s.xferLog := rfl
@[simp] theorem State.modCore_arrayLog (n : Nat) (f : Core → Core) : (s.modCore n f).arrayLog = s.arrayLog := rfl
@[simp] theorem State.modCore_svcLog (n : Nat) (f : Core → Core) : (s.modCore n f).svcLog = s.svcLog := rfl

/-! ## modCtx -/

@[simp] theorem State.modCtx_tick (n : Nat) (f : Context → Context) : (s.modCtx n f).tick = s.tick := rfl
@[simp] theorem State.modCtx_time (n : Nat) (f : Context → Context) : (s.modCtx n f).time = s.time := rfl
@[simp] theorem State.modCtx_turns (n : Nat) (f : Context → Context) : (s.modCtx n f).turns = s.turns := rfl
@[simp] theorem State.modCtx_arg (n : Nat) (f : Context → Context) : (s.modCtx n f).arg = s.arg := rfl
@[simp] theorem State.modCtx_cur (n : Nat) (f : Context → Context) : (s.modCtx n f).cur = s.cur := rfl
@[simp] theorem State.modCtx_dev (n : Nat) (f : Context → Context) : (s.modCtx n f).dev = s.dev := rfl
@[simp] theorem State.modCtx_towers (n : Nat) (f : Context → Context) : (s.modCtx n f).towers = s.towers := rfl
@[simp] theorem State.modCtx_clusters (n : Nat) (f : Context → Context) : (s.modCtx n f).clusters = s.clusters := rfl
@[simp] theorem State.modCtx_cores (n : Nat) (f : Context → Context) : (s.modCtx n f).cores = s.cores := rfl
@[simp] theorem State.modCtx_links (n : Nat) (f : Context → Context) : (s.modCtx n f).links = s.links := rfl
@[simp] theorem State.modCtx_queues (n : Nat) (f : Context → Context) : (s.modCtx n f).queues = s.queues := rfl
@[simp] theorem State.modCtx_launches (n : Nat) (f : Context → Context) : (s.modCtx n f).launches = s.launches := rfl
@[simp] theorem State.modCtx_teams (n : Nat) (f : Context → Context) : (s.modCtx n f).teams = s.teams := rfl
@[simp] theorem State.modCtx_groups (n : Nat) (f : Context → Context) : (s.modCtx n f).groups = s.groups := rfl
@[simp] theorem State.modCtx_copies (n : Nat) (f : Context → Context) : (s.modCtx n f).copies = s.copies := rfl
@[simp] theorem State.modCtx_peers (n : Nat) (f : Context → Context) : (s.modCtx n f).peers = s.peers := rfl
@[simp] theorem State.modCtx_mirrors (n : Nat) (f : Context → Context) : (s.modCtx n f).mirrors = s.mirrors := rfl
@[simp] theorem State.modCtx_ends (n : Nat) (f : Context → Context) : (s.modCtx n f).ends = s.ends := rfl
@[simp] theorem State.modCtx_mem (n : Nat) (f : Context → Context) : (s.modCtx n f).mem = s.mem := rfl
@[simp] theorem State.modCtx_poison (n : Nat) (f : Context → Context) : (s.modCtx n f).poison = s.poison := rfl
@[simp] theorem State.modCtx_fresh (n : Nat) (f : Context → Context) : (s.modCtx n f).fresh = s.fresh := rfl
@[simp] theorem State.modCtx_responses (n : Nat) (f : Context → Context) : (s.modCtx n f).responses = s.responses := rfl
@[simp] theorem State.modCtx_irqs (n : Nat) (f : Context → Context) : (s.modCtx n f).irqs = s.irqs := rfl
@[simp] theorem State.modCtx_xferLog (n : Nat) (f : Context → Context) : (s.modCtx n f).xferLog = s.xferLog := rfl
@[simp] theorem State.modCtx_arrayLog (n : Nat) (f : Context → Context) : (s.modCtx n f).arrayLog = s.arrayLog := rfl
@[simp] theorem State.modCtx_svcLog (n : Nat) (f : Context → Context) : (s.modCtx n f).svcLog = s.svcLog := rfl

/-! ## modLink -/

@[simp] theorem State.modLink_tick (n : Nat) (f : LinkPort → LinkPort) : (s.modLink n f).tick = s.tick := rfl
@[simp] theorem State.modLink_time (n : Nat) (f : LinkPort → LinkPort) : (s.modLink n f).time = s.time := rfl
@[simp] theorem State.modLink_turns (n : Nat) (f : LinkPort → LinkPort) : (s.modLink n f).turns = s.turns := rfl
@[simp] theorem State.modLink_arg (n : Nat) (f : LinkPort → LinkPort) : (s.modLink n f).arg = s.arg := rfl
@[simp] theorem State.modLink_cur (n : Nat) (f : LinkPort → LinkPort) : (s.modLink n f).cur = s.cur := rfl
@[simp] theorem State.modLink_dev (n : Nat) (f : LinkPort → LinkPort) : (s.modLink n f).dev = s.dev := rfl
@[simp] theorem State.modLink_towers (n : Nat) (f : LinkPort → LinkPort) : (s.modLink n f).towers = s.towers := rfl
@[simp] theorem State.modLink_clusters (n : Nat) (f : LinkPort → LinkPort) : (s.modLink n f).clusters = s.clusters := rfl
@[simp] theorem State.modLink_cores (n : Nat) (f : LinkPort → LinkPort) : (s.modLink n f).cores = s.cores := rfl
@[simp] theorem State.modLink_ctxs (n : Nat) (f : LinkPort → LinkPort) : (s.modLink n f).ctxs = s.ctxs := rfl
@[simp] theorem State.modLink_queues (n : Nat) (f : LinkPort → LinkPort) : (s.modLink n f).queues = s.queues := rfl
@[simp] theorem State.modLink_launches (n : Nat) (f : LinkPort → LinkPort) : (s.modLink n f).launches = s.launches := rfl
@[simp] theorem State.modLink_teams (n : Nat) (f : LinkPort → LinkPort) : (s.modLink n f).teams = s.teams := rfl
@[simp] theorem State.modLink_groups (n : Nat) (f : LinkPort → LinkPort) : (s.modLink n f).groups = s.groups := rfl
@[simp] theorem State.modLink_copies (n : Nat) (f : LinkPort → LinkPort) : (s.modLink n f).copies = s.copies := rfl
@[simp] theorem State.modLink_peers (n : Nat) (f : LinkPort → LinkPort) : (s.modLink n f).peers = s.peers := rfl
@[simp] theorem State.modLink_mirrors (n : Nat) (f : LinkPort → LinkPort) : (s.modLink n f).mirrors = s.mirrors := rfl
@[simp] theorem State.modLink_ends (n : Nat) (f : LinkPort → LinkPort) : (s.modLink n f).ends = s.ends := rfl
@[simp] theorem State.modLink_mem (n : Nat) (f : LinkPort → LinkPort) : (s.modLink n f).mem = s.mem := rfl
@[simp] theorem State.modLink_poison (n : Nat) (f : LinkPort → LinkPort) : (s.modLink n f).poison = s.poison := rfl
@[simp] theorem State.modLink_fresh (n : Nat) (f : LinkPort → LinkPort) : (s.modLink n f).fresh = s.fresh := rfl
@[simp] theorem State.modLink_responses (n : Nat) (f : LinkPort → LinkPort) : (s.modLink n f).responses = s.responses := rfl
@[simp] theorem State.modLink_irqs (n : Nat) (f : LinkPort → LinkPort) : (s.modLink n f).irqs = s.irqs := rfl
@[simp] theorem State.modLink_xferLog (n : Nat) (f : LinkPort → LinkPort) : (s.modLink n f).xferLog = s.xferLog := rfl
@[simp] theorem State.modLink_arrayLog (n : Nat) (f : LinkPort → LinkPort) : (s.modLink n f).arrayLog = s.arrayLog := rfl
@[simp] theorem State.modLink_svcLog (n : Nat) (f : LinkPort → LinkPort) : (s.modLink n f).svcLog = s.svcLog := rfl

/-! ## answer -/

@[simp] theorem State.answer_tick (a : Status) (v : List Byte) : (s.answer a v).tick = s.tick := rfl
@[simp] theorem State.answer_time (a : Status) (v : List Byte) : (s.answer a v).time = s.time := rfl
@[simp] theorem State.answer_turns (a : Status) (v : List Byte) : (s.answer a v).turns = s.turns := rfl
@[simp] theorem State.answer_arg (a : Status) (v : List Byte) : (s.answer a v).arg = s.arg := rfl
@[simp] theorem State.answer_cur (a : Status) (v : List Byte) : (s.answer a v).cur = s.cur := rfl
@[simp] theorem State.answer_dev (a : Status) (v : List Byte) : (s.answer a v).dev = s.dev := rfl
@[simp] theorem State.answer_towers (a : Status) (v : List Byte) : (s.answer a v).towers = s.towers := rfl
@[simp] theorem State.answer_clusters (a : Status) (v : List Byte) : (s.answer a v).clusters = s.clusters := rfl
@[simp] theorem State.answer_cores (a : Status) (v : List Byte) : (s.answer a v).cores = s.cores := rfl
@[simp] theorem State.answer_links (a : Status) (v : List Byte) : (s.answer a v).links = s.links := rfl
@[simp] theorem State.answer_ctxs (a : Status) (v : List Byte) : (s.answer a v).ctxs = s.ctxs := rfl
@[simp] theorem State.answer_queues (a : Status) (v : List Byte) : (s.answer a v).queues = s.queues := rfl
@[simp] theorem State.answer_launches (a : Status) (v : List Byte) : (s.answer a v).launches = s.launches := rfl
@[simp] theorem State.answer_teams (a : Status) (v : List Byte) : (s.answer a v).teams = s.teams := rfl
@[simp] theorem State.answer_groups (a : Status) (v : List Byte) : (s.answer a v).groups = s.groups := rfl
@[simp] theorem State.answer_copies (a : Status) (v : List Byte) : (s.answer a v).copies = s.copies := rfl
@[simp] theorem State.answer_peers (a : Status) (v : List Byte) : (s.answer a v).peers = s.peers := rfl
@[simp] theorem State.answer_mirrors (a : Status) (v : List Byte) : (s.answer a v).mirrors = s.mirrors := rfl
@[simp] theorem State.answer_ends (a : Status) (v : List Byte) : (s.answer a v).ends = s.ends := rfl
@[simp] theorem State.answer_mem (a : Status) (v : List Byte) : (s.answer a v).mem = s.mem := rfl
@[simp] theorem State.answer_poison (a : Status) (v : List Byte) : (s.answer a v).poison = s.poison := rfl
@[simp] theorem State.answer_fresh (a : Status) (v : List Byte) : (s.answer a v).fresh = s.fresh := rfl
@[simp] theorem State.answer_irqs (a : Status) (v : List Byte) : (s.answer a v).irqs = s.irqs := rfl
@[simp] theorem State.answer_xferLog (a : Status) (v : List Byte) : (s.answer a v).xferLog = s.xferLog := rfl
@[simp] theorem State.answer_arrayLog (a : Status) (v : List Byte) : (s.answer a v).arrayLog = s.arrayLog := rfl
@[simp] theorem State.answer_svcLog (a : Status) (v : List Byte) : (s.answer a v).svcLog = s.svcLog := rfl

/-! ## interrupt -/

@[simp] theorem State.interrupt_tick (i : Irq) : (s.interrupt i).tick = s.tick := rfl
@[simp] theorem State.interrupt_time (i : Irq) : (s.interrupt i).time = s.time := rfl
@[simp] theorem State.interrupt_turns (i : Irq) : (s.interrupt i).turns = s.turns := rfl
@[simp] theorem State.interrupt_arg (i : Irq) : (s.interrupt i).arg = s.arg := rfl
@[simp] theorem State.interrupt_cur (i : Irq) : (s.interrupt i).cur = s.cur := rfl
@[simp] theorem State.interrupt_dev (i : Irq) : (s.interrupt i).dev = s.dev := rfl
@[simp] theorem State.interrupt_towers (i : Irq) : (s.interrupt i).towers = s.towers := rfl
@[simp] theorem State.interrupt_clusters (i : Irq) : (s.interrupt i).clusters = s.clusters := rfl
@[simp] theorem State.interrupt_cores (i : Irq) : (s.interrupt i).cores = s.cores := rfl
@[simp] theorem State.interrupt_links (i : Irq) : (s.interrupt i).links = s.links := rfl
@[simp] theorem State.interrupt_ctxs (i : Irq) : (s.interrupt i).ctxs = s.ctxs := rfl
@[simp] theorem State.interrupt_queues (i : Irq) : (s.interrupt i).queues = s.queues := rfl
@[simp] theorem State.interrupt_launches (i : Irq) : (s.interrupt i).launches = s.launches := rfl
@[simp] theorem State.interrupt_teams (i : Irq) : (s.interrupt i).teams = s.teams := rfl
@[simp] theorem State.interrupt_groups (i : Irq) : (s.interrupt i).groups = s.groups := rfl
@[simp] theorem State.interrupt_copies (i : Irq) : (s.interrupt i).copies = s.copies := rfl
@[simp] theorem State.interrupt_peers (i : Irq) : (s.interrupt i).peers = s.peers := rfl
@[simp] theorem State.interrupt_mirrors (i : Irq) : (s.interrupt i).mirrors = s.mirrors := rfl
@[simp] theorem State.interrupt_ends (i : Irq) : (s.interrupt i).ends = s.ends := rfl
@[simp] theorem State.interrupt_mem (i : Irq) : (s.interrupt i).mem = s.mem := rfl
@[simp] theorem State.interrupt_poison (i : Irq) : (s.interrupt i).poison = s.poison := rfl
@[simp] theorem State.interrupt_fresh (i : Irq) : (s.interrupt i).fresh = s.fresh := rfl
@[simp] theorem State.interrupt_responses (i : Irq) : (s.interrupt i).responses = s.responses := rfl
@[simp] theorem State.interrupt_xferLog (i : Irq) : (s.interrupt i).xferLog = s.xferLog := rfl
@[simp] theorem State.interrupt_arrayLog (i : Irq) : (s.interrupt i).arrayLog = s.arrayLog := rfl
@[simp] theorem State.interrupt_svcLog (i : Irq) : (s.interrupt i).svcLog = s.svcLog := rfl

/-! ## modBus -/

@[simp] theorem State.modBus_tick (n : Nat) (f : Bus → Bus) : (s.modBus n f).tick = s.tick := rfl
@[simp] theorem State.modBus_time (n : Nat) (f : Bus → Bus) : (s.modBus n f).time = s.time := rfl
@[simp] theorem State.modBus_turns (n : Nat) (f : Bus → Bus) : (s.modBus n f).turns = s.turns := rfl
@[simp] theorem State.modBus_arg (n : Nat) (f : Bus → Bus) : (s.modBus n f).arg = s.arg := rfl
@[simp] theorem State.modBus_cur (n : Nat) (f : Bus → Bus) : (s.modBus n f).cur = s.cur := rfl
@[simp] theorem State.modBus_dev (n : Nat) (f : Bus → Bus) : (s.modBus n f).dev = s.dev := rfl
@[simp] theorem State.modBus_clusters (n : Nat) (f : Bus → Bus) : (s.modBus n f).clusters = s.clusters := rfl
@[simp] theorem State.modBus_cores (n : Nat) (f : Bus → Bus) : (s.modBus n f).cores = s.cores := rfl
@[simp] theorem State.modBus_links (n : Nat) (f : Bus → Bus) : (s.modBus n f).links = s.links := rfl
@[simp] theorem State.modBus_ctxs (n : Nat) (f : Bus → Bus) : (s.modBus n f).ctxs = s.ctxs := rfl
@[simp] theorem State.modBus_queues (n : Nat) (f : Bus → Bus) : (s.modBus n f).queues = s.queues := rfl
@[simp] theorem State.modBus_launches (n : Nat) (f : Bus → Bus) : (s.modBus n f).launches = s.launches := rfl
@[simp] theorem State.modBus_teams (n : Nat) (f : Bus → Bus) : (s.modBus n f).teams = s.teams := rfl
@[simp] theorem State.modBus_groups (n : Nat) (f : Bus → Bus) : (s.modBus n f).groups = s.groups := rfl
@[simp] theorem State.modBus_copies (n : Nat) (f : Bus → Bus) : (s.modBus n f).copies = s.copies := rfl
@[simp] theorem State.modBus_peers (n : Nat) (f : Bus → Bus) : (s.modBus n f).peers = s.peers := rfl
@[simp] theorem State.modBus_mirrors (n : Nat) (f : Bus → Bus) : (s.modBus n f).mirrors = s.mirrors := rfl
@[simp] theorem State.modBus_ends (n : Nat) (f : Bus → Bus) : (s.modBus n f).ends = s.ends := rfl
@[simp] theorem State.modBus_mem (n : Nat) (f : Bus → Bus) : (s.modBus n f).mem = s.mem := rfl
@[simp] theorem State.modBus_poison (n : Nat) (f : Bus → Bus) : (s.modBus n f).poison = s.poison := rfl
@[simp] theorem State.modBus_fresh (n : Nat) (f : Bus → Bus) : (s.modBus n f).fresh = s.fresh := rfl
@[simp] theorem State.modBus_responses (n : Nat) (f : Bus → Bus) : (s.modBus n f).responses = s.responses := rfl
@[simp] theorem State.modBus_irqs (n : Nat) (f : Bus → Bus) : (s.modBus n f).irqs = s.irqs := rfl
@[simp] theorem State.modBus_xferLog (n : Nat) (f : Bus → Bus) : (s.modBus n f).xferLog = s.xferLog := rfl
@[simp] theorem State.modBus_arrayLog (n : Nat) (f : Bus → Bus) : (s.modBus n f).arrayLog = s.arrayLog := rfl
@[simp] theorem State.modBus_svcLog (n : Nat) (f : Bus → Bus) : (s.modBus n f).svcLog = s.svcLog := rfl

/-! ## setFrame -/

@[simp] theorem State.setFrame_tick (n : Nat) (x : Frame) : (s.setFrame n x).tick = s.tick := rfl
@[simp] theorem State.setFrame_time (n : Nat) (x : Frame) : (s.setFrame n x).time = s.time := rfl
@[simp] theorem State.setFrame_turns (n : Nat) (x : Frame) : (s.setFrame n x).turns = s.turns := rfl
@[simp] theorem State.setFrame_arg (n : Nat) (x : Frame) : (s.setFrame n x).arg = s.arg := rfl
@[simp] theorem State.setFrame_cur (n : Nat) (x : Frame) : (s.setFrame n x).cur = s.cur := rfl
@[simp] theorem State.setFrame_dev (n : Nat) (x : Frame) : (s.setFrame n x).dev = s.dev := rfl
@[simp] theorem State.setFrame_clusters (n : Nat) (x : Frame) : (s.setFrame n x).clusters = s.clusters := rfl
@[simp] theorem State.setFrame_cores (n : Nat) (x : Frame) : (s.setFrame n x).cores = s.cores := rfl
@[simp] theorem State.setFrame_links (n : Nat) (x : Frame) : (s.setFrame n x).links = s.links := rfl
@[simp] theorem State.setFrame_ctxs (n : Nat) (x : Frame) : (s.setFrame n x).ctxs = s.ctxs := rfl
@[simp] theorem State.setFrame_queues (n : Nat) (x : Frame) : (s.setFrame n x).queues = s.queues := rfl
@[simp] theorem State.setFrame_launches (n : Nat) (x : Frame) : (s.setFrame n x).launches = s.launches := rfl
@[simp] theorem State.setFrame_teams (n : Nat) (x : Frame) : (s.setFrame n x).teams = s.teams := rfl
@[simp] theorem State.setFrame_groups (n : Nat) (x : Frame) : (s.setFrame n x).groups = s.groups := rfl
@[simp] theorem State.setFrame_copies (n : Nat) (x : Frame) : (s.setFrame n x).copies = s.copies := rfl
@[simp] theorem State.setFrame_peers (n : Nat) (x : Frame) : (s.setFrame n x).peers = s.peers := rfl
@[simp] theorem State.setFrame_mirrors (n : Nat) (x : Frame) : (s.setFrame n x).mirrors = s.mirrors := rfl
@[simp] theorem State.setFrame_ends (n : Nat) (x : Frame) : (s.setFrame n x).ends = s.ends := rfl
@[simp] theorem State.setFrame_mem (n : Nat) (x : Frame) : (s.setFrame n x).mem = s.mem := rfl
@[simp] theorem State.setFrame_poison (n : Nat) (x : Frame) : (s.setFrame n x).poison = s.poison := rfl
@[simp] theorem State.setFrame_fresh (n : Nat) (x : Frame) : (s.setFrame n x).fresh = s.fresh := rfl
@[simp] theorem State.setFrame_responses (n : Nat) (x : Frame) : (s.setFrame n x).responses = s.responses := rfl
@[simp] theorem State.setFrame_irqs (n : Nat) (x : Frame) : (s.setFrame n x).irqs = s.irqs := rfl
@[simp] theorem State.setFrame_xferLog (n : Nat) (x : Frame) : (s.setFrame n x).xferLog = s.xferLog := rfl
@[simp] theorem State.setFrame_arrayLog (n : Nat) (x : Frame) : (s.setFrame n x).arrayLog = s.arrayLog := rfl
@[simp] theorem State.setFrame_svcLog (n : Nat) (x : Frame) : (s.setFrame n x).svcLog = s.svcLog := rfl

/-! ## setL2 -/

@[simp] theorem State.setL2_tick (n : Nat) (x : L2Line) : (s.setL2 n x).tick = s.tick := rfl
@[simp] theorem State.setL2_time (n : Nat) (x : L2Line) : (s.setL2 n x).time = s.time := rfl
@[simp] theorem State.setL2_turns (n : Nat) (x : L2Line) : (s.setL2 n x).turns = s.turns := rfl
@[simp] theorem State.setL2_arg (n : Nat) (x : L2Line) : (s.setL2 n x).arg = s.arg := rfl
@[simp] theorem State.setL2_cur (n : Nat) (x : L2Line) : (s.setL2 n x).cur = s.cur := rfl
@[simp] theorem State.setL2_dev (n : Nat) (x : L2Line) : (s.setL2 n x).dev = s.dev := rfl
@[simp] theorem State.setL2_clusters (n : Nat) (x : L2Line) : (s.setL2 n x).clusters = s.clusters := rfl
@[simp] theorem State.setL2_cores (n : Nat) (x : L2Line) : (s.setL2 n x).cores = s.cores := rfl
@[simp] theorem State.setL2_links (n : Nat) (x : L2Line) : (s.setL2 n x).links = s.links := rfl
@[simp] theorem State.setL2_ctxs (n : Nat) (x : L2Line) : (s.setL2 n x).ctxs = s.ctxs := rfl
@[simp] theorem State.setL2_queues (n : Nat) (x : L2Line) : (s.setL2 n x).queues = s.queues := rfl
@[simp] theorem State.setL2_launches (n : Nat) (x : L2Line) : (s.setL2 n x).launches = s.launches := rfl
@[simp] theorem State.setL2_teams (n : Nat) (x : L2Line) : (s.setL2 n x).teams = s.teams := rfl
@[simp] theorem State.setL2_groups (n : Nat) (x : L2Line) : (s.setL2 n x).groups = s.groups := rfl
@[simp] theorem State.setL2_copies (n : Nat) (x : L2Line) : (s.setL2 n x).copies = s.copies := rfl
@[simp] theorem State.setL2_peers (n : Nat) (x : L2Line) : (s.setL2 n x).peers = s.peers := rfl
@[simp] theorem State.setL2_mirrors (n : Nat) (x : L2Line) : (s.setL2 n x).mirrors = s.mirrors := rfl
@[simp] theorem State.setL2_ends (n : Nat) (x : L2Line) : (s.setL2 n x).ends = s.ends := rfl
@[simp] theorem State.setL2_mem (n : Nat) (x : L2Line) : (s.setL2 n x).mem = s.mem := rfl
@[simp] theorem State.setL2_poison (n : Nat) (x : L2Line) : (s.setL2 n x).poison = s.poison := rfl
@[simp] theorem State.setL2_fresh (n : Nat) (x : L2Line) : (s.setL2 n x).fresh = s.fresh := rfl
@[simp] theorem State.setL2_responses (n : Nat) (x : L2Line) : (s.setL2 n x).responses = s.responses := rfl
@[simp] theorem State.setL2_irqs (n : Nat) (x : L2Line) : (s.setL2 n x).irqs = s.irqs := rfl
@[simp] theorem State.setL2_xferLog (n : Nat) (x : L2Line) : (s.setL2 n x).xferLog = s.xferLog := rfl
@[simp] theorem State.setL2_arrayLog (n : Nat) (x : L2Line) : (s.setL2 n x).arrayLog = s.arrayLog := rfl
@[simp] theorem State.setL2_svcLog (n : Nat) (x : L2Line) : (s.setL2 n x).svcLog = s.svcLog := rfl

/-! ## addPoison -/

@[simp] theorem State.addPoison_tick (n : Nat) : (s.addPoison n).tick = s.tick := rfl
@[simp] theorem State.addPoison_time (n : Nat) : (s.addPoison n).time = s.time := rfl
@[simp] theorem State.addPoison_turns (n : Nat) : (s.addPoison n).turns = s.turns := rfl
@[simp] theorem State.addPoison_arg (n : Nat) : (s.addPoison n).arg = s.arg := rfl
@[simp] theorem State.addPoison_cur (n : Nat) : (s.addPoison n).cur = s.cur := rfl
@[simp] theorem State.addPoison_dev (n : Nat) : (s.addPoison n).dev = s.dev := rfl
@[simp] theorem State.addPoison_towers (n : Nat) : (s.addPoison n).towers = s.towers := rfl
@[simp] theorem State.addPoison_clusters (n : Nat) : (s.addPoison n).clusters = s.clusters := rfl
@[simp] theorem State.addPoison_cores (n : Nat) : (s.addPoison n).cores = s.cores := rfl
@[simp] theorem State.addPoison_links (n : Nat) : (s.addPoison n).links = s.links := rfl
@[simp] theorem State.addPoison_ctxs (n : Nat) : (s.addPoison n).ctxs = s.ctxs := rfl
@[simp] theorem State.addPoison_queues (n : Nat) : (s.addPoison n).queues = s.queues := rfl
@[simp] theorem State.addPoison_launches (n : Nat) : (s.addPoison n).launches = s.launches := rfl
@[simp] theorem State.addPoison_teams (n : Nat) : (s.addPoison n).teams = s.teams := rfl
@[simp] theorem State.addPoison_groups (n : Nat) : (s.addPoison n).groups = s.groups := rfl
@[simp] theorem State.addPoison_copies (n : Nat) : (s.addPoison n).copies = s.copies := rfl
@[simp] theorem State.addPoison_peers (n : Nat) : (s.addPoison n).peers = s.peers := rfl
@[simp] theorem State.addPoison_mirrors (n : Nat) : (s.addPoison n).mirrors = s.mirrors := rfl
@[simp] theorem State.addPoison_ends (n : Nat) : (s.addPoison n).ends = s.ends := rfl
@[simp] theorem State.addPoison_mem (n : Nat) : (s.addPoison n).mem = s.mem := rfl
@[simp] theorem State.addPoison_fresh (n : Nat) : (s.addPoison n).fresh = s.fresh := rfl
@[simp] theorem State.addPoison_responses (n : Nat) : (s.addPoison n).responses = s.responses := rfl
@[simp] theorem State.addPoison_irqs (n : Nat) : (s.addPoison n).irqs = s.irqs := rfl
@[simp] theorem State.addPoison_xferLog (n : Nat) : (s.addPoison n).xferLog = s.xferLog := rfl
@[simp] theorem State.addPoison_arrayLog (n : Nat) : (s.addPoison n).arrayLog = s.arrayLog := rfl
@[simp] theorem State.addPoison_svcLog (n : Nat) : (s.addPoison n).svcLog = s.svcLog := rfl

/-! ## clearPoison -/

@[simp] theorem State.clearPoison_tick (n : Nat) : (s.clearPoison n).tick = s.tick := rfl
@[simp] theorem State.clearPoison_time (n : Nat) : (s.clearPoison n).time = s.time := rfl
@[simp] theorem State.clearPoison_turns (n : Nat) : (s.clearPoison n).turns = s.turns := rfl
@[simp] theorem State.clearPoison_arg (n : Nat) : (s.clearPoison n).arg = s.arg := rfl
@[simp] theorem State.clearPoison_cur (n : Nat) : (s.clearPoison n).cur = s.cur := rfl
@[simp] theorem State.clearPoison_dev (n : Nat) : (s.clearPoison n).dev = s.dev := rfl
@[simp] theorem State.clearPoison_towers (n : Nat) : (s.clearPoison n).towers = s.towers := rfl
@[simp] theorem State.clearPoison_clusters (n : Nat) : (s.clearPoison n).clusters = s.clusters := rfl
@[simp] theorem State.clearPoison_cores (n : Nat) : (s.clearPoison n).cores = s.cores := rfl
@[simp] theorem State.clearPoison_links (n : Nat) : (s.clearPoison n).links = s.links := rfl
@[simp] theorem State.clearPoison_ctxs (n : Nat) : (s.clearPoison n).ctxs = s.ctxs := rfl
@[simp] theorem State.clearPoison_queues (n : Nat) : (s.clearPoison n).queues = s.queues := rfl
@[simp] theorem State.clearPoison_launches (n : Nat) : (s.clearPoison n).launches = s.launches := rfl
@[simp] theorem State.clearPoison_teams (n : Nat) : (s.clearPoison n).teams = s.teams := rfl
@[simp] theorem State.clearPoison_groups (n : Nat) : (s.clearPoison n).groups = s.groups := rfl
@[simp] theorem State.clearPoison_copies (n : Nat) : (s.clearPoison n).copies = s.copies := rfl
@[simp] theorem State.clearPoison_peers (n : Nat) : (s.clearPoison n).peers = s.peers := rfl
@[simp] theorem State.clearPoison_mirrors (n : Nat) : (s.clearPoison n).mirrors = s.mirrors := rfl
@[simp] theorem State.clearPoison_ends (n : Nat) : (s.clearPoison n).ends = s.ends := rfl
@[simp] theorem State.clearPoison_mem (n : Nat) : (s.clearPoison n).mem = s.mem := rfl
@[simp] theorem State.clearPoison_fresh (n : Nat) : (s.clearPoison n).fresh = s.fresh := rfl
@[simp] theorem State.clearPoison_responses (n : Nat) : (s.clearPoison n).responses = s.responses := rfl
@[simp] theorem State.clearPoison_irqs (n : Nat) : (s.clearPoison n).irqs = s.irqs := rfl
@[simp] theorem State.clearPoison_xferLog (n : Nat) : (s.clearPoison n).xferLog = s.xferLog := rfl
@[simp] theorem State.clearPoison_arrayLog (n : Nat) : (s.clearPoison n).arrayLog = s.arrayLog := rfl
@[simp] theorem State.clearPoison_svcLog (n : Nat) : (s.clearPoison n).svcLog = s.svcLog := rfl

/-! ## issued -/

@[simp] theorem State.issued_tick (n : Nat) : (s.issued n).tick = s.tick := rfl
@[simp] theorem State.issued_time (n : Nat) : (s.issued n).time = s.time := rfl
@[simp] theorem State.issued_turns (n : Nat) : (s.issued n).turns = s.turns := rfl
@[simp] theorem State.issued_arg (n : Nat) : (s.issued n).arg = s.arg := rfl
@[simp] theorem State.issued_cur (n : Nat) : (s.issued n).cur = s.cur := rfl
@[simp] theorem State.issued_dev (n : Nat) : (s.issued n).dev = s.dev := rfl
@[simp] theorem State.issued_towers (n : Nat) : (s.issued n).towers = s.towers := rfl
@[simp] theorem State.issued_clusters (n : Nat) : (s.issued n).clusters = s.clusters := rfl
@[simp] theorem State.issued_cores (n : Nat) : (s.issued n).cores = s.cores := rfl
@[simp] theorem State.issued_links (n : Nat) : (s.issued n).links = s.links := rfl
@[simp] theorem State.issued_ctxs (n : Nat) : (s.issued n).ctxs = s.ctxs := rfl
@[simp] theorem State.issued_queues (n : Nat) : (s.issued n).queues = s.queues := rfl
@[simp] theorem State.issued_launches (n : Nat) : (s.issued n).launches = s.launches := rfl
@[simp] theorem State.issued_teams (n : Nat) : (s.issued n).teams = s.teams := rfl
@[simp] theorem State.issued_copies (n : Nat) : (s.issued n).copies = s.copies := rfl
@[simp] theorem State.issued_peers (n : Nat) : (s.issued n).peers = s.peers := rfl
@[simp] theorem State.issued_mirrors (n : Nat) : (s.issued n).mirrors = s.mirrors := rfl
@[simp] theorem State.issued_ends (n : Nat) : (s.issued n).ends = s.ends := rfl
@[simp] theorem State.issued_mem (n : Nat) : (s.issued n).mem = s.mem := rfl
@[simp] theorem State.issued_poison (n : Nat) : (s.issued n).poison = s.poison := rfl
@[simp] theorem State.issued_fresh (n : Nat) : (s.issued n).fresh = s.fresh := rfl
@[simp] theorem State.issued_responses (n : Nat) : (s.issued n).responses = s.responses := rfl
@[simp] theorem State.issued_irqs (n : Nat) : (s.issued n).irqs = s.irqs := rfl
@[simp] theorem State.issued_xferLog (n : Nat) : (s.issued n).xferLog = s.xferLog := rfl
@[simp] theorem State.issued_arrayLog (n : Nat) : (s.issued n).arrayLog = s.arrayLog := rfl
@[simp] theorem State.issued_svcLog (n : Nat) : (s.issued n).svcLog = s.svcLog := rfl

/-! ## ownEnd -/

@[simp] theorem State.ownEnd_tick (n : Nat) : (s.ownEnd n).tick = s.tick := rfl
@[simp] theorem State.ownEnd_time (n : Nat) : (s.ownEnd n).time = s.time := rfl
@[simp] theorem State.ownEnd_turns (n : Nat) : (s.ownEnd n).turns = s.turns := rfl
@[simp] theorem State.ownEnd_arg (n : Nat) : (s.ownEnd n).arg = s.arg := rfl
@[simp] theorem State.ownEnd_cur (n : Nat) : (s.ownEnd n).cur = s.cur := rfl
@[simp] theorem State.ownEnd_dev (n : Nat) : (s.ownEnd n).dev = s.dev := rfl
@[simp] theorem State.ownEnd_towers (n : Nat) : (s.ownEnd n).towers = s.towers := rfl
@[simp] theorem State.ownEnd_clusters (n : Nat) : (s.ownEnd n).clusters = s.clusters := rfl
@[simp] theorem State.ownEnd_cores (n : Nat) : (s.ownEnd n).cores = s.cores := rfl
@[simp] theorem State.ownEnd_links (n : Nat) : (s.ownEnd n).links = s.links := rfl
@[simp] theorem State.ownEnd_ctxs (n : Nat) : (s.ownEnd n).ctxs = s.ctxs := rfl
@[simp] theorem State.ownEnd_queues (n : Nat) : (s.ownEnd n).queues = s.queues := rfl
@[simp] theorem State.ownEnd_launches (n : Nat) : (s.ownEnd n).launches = s.launches := rfl
@[simp] theorem State.ownEnd_teams (n : Nat) : (s.ownEnd n).teams = s.teams := rfl
@[simp] theorem State.ownEnd_copies (n : Nat) : (s.ownEnd n).copies = s.copies := rfl
@[simp] theorem State.ownEnd_peers (n : Nat) : (s.ownEnd n).peers = s.peers := rfl
@[simp] theorem State.ownEnd_mirrors (n : Nat) : (s.ownEnd n).mirrors = s.mirrors := rfl
@[simp] theorem State.ownEnd_ends (n : Nat) : (s.ownEnd n).ends = s.ends := rfl
@[simp] theorem State.ownEnd_mem (n : Nat) : (s.ownEnd n).mem = s.mem := rfl
@[simp] theorem State.ownEnd_poison (n : Nat) : (s.ownEnd n).poison = s.poison := rfl
@[simp] theorem State.ownEnd_fresh (n : Nat) : (s.ownEnd n).fresh = s.fresh := rfl
@[simp] theorem State.ownEnd_responses (n : Nat) : (s.ownEnd n).responses = s.responses := rfl
@[simp] theorem State.ownEnd_irqs (n : Nat) : (s.ownEnd n).irqs = s.irqs := rfl
@[simp] theorem State.ownEnd_xferLog (n : Nat) : (s.ownEnd n).xferLog = s.xferLog := rfl
@[simp] theorem State.ownEnd_arrayLog (n : Nat) : (s.ownEnd n).arrayLog = s.arrayLog := rfl
@[simp] theorem State.ownEnd_svcLog (n : Nat) : (s.ownEnd n).svcLog = s.svcLog := rfl

/-! ## endClause -/

@[simp] theorem State.endClause_tick (n : Nat) (c : Clause) (p : Option Row) : (s.endClause n c p).tick = s.tick := rfl
@[simp] theorem State.endClause_time (n : Nat) (c : Clause) (p : Option Row) : (s.endClause n c p).time = s.time := rfl
@[simp] theorem State.endClause_turns (n : Nat) (c : Clause) (p : Option Row) : (s.endClause n c p).turns = s.turns := rfl
@[simp] theorem State.endClause_arg (n : Nat) (c : Clause) (p : Option Row) : (s.endClause n c p).arg = s.arg := rfl
@[simp] theorem State.endClause_cur (n : Nat) (c : Clause) (p : Option Row) : (s.endClause n c p).cur = s.cur := rfl
@[simp] theorem State.endClause_dev (n : Nat) (c : Clause) (p : Option Row) : (s.endClause n c p).dev = s.dev := rfl
@[simp] theorem State.endClause_towers (n : Nat) (c : Clause) (p : Option Row) : (s.endClause n c p).towers = s.towers := rfl
@[simp] theorem State.endClause_clusters (n : Nat) (c : Clause) (p : Option Row) : (s.endClause n c p).clusters = s.clusters := rfl
@[simp] theorem State.endClause_cores (n : Nat) (c : Clause) (p : Option Row) : (s.endClause n c p).cores = s.cores := rfl
@[simp] theorem State.endClause_links (n : Nat) (c : Clause) (p : Option Row) : (s.endClause n c p).links = s.links := rfl
@[simp] theorem State.endClause_ctxs (n : Nat) (c : Clause) (p : Option Row) : (s.endClause n c p).ctxs = s.ctxs := rfl
@[simp] theorem State.endClause_queues (n : Nat) (c : Clause) (p : Option Row) : (s.endClause n c p).queues = s.queues := rfl
@[simp] theorem State.endClause_launches (n : Nat) (c : Clause) (p : Option Row) : (s.endClause n c p).launches = s.launches := rfl
@[simp] theorem State.endClause_teams (n : Nat) (c : Clause) (p : Option Row) : (s.endClause n c p).teams = s.teams := rfl
@[simp] theorem State.endClause_copies (n : Nat) (c : Clause) (p : Option Row) : (s.endClause n c p).copies = s.copies := rfl
@[simp] theorem State.endClause_peers (n : Nat) (c : Clause) (p : Option Row) : (s.endClause n c p).peers = s.peers := rfl
@[simp] theorem State.endClause_mirrors (n : Nat) (c : Clause) (p : Option Row) : (s.endClause n c p).mirrors = s.mirrors := rfl
@[simp] theorem State.endClause_ends (n : Nat) (c : Clause) (p : Option Row) : (s.endClause n c p).ends = s.ends := rfl
@[simp] theorem State.endClause_mem (n : Nat) (c : Clause) (p : Option Row) : (s.endClause n c p).mem = s.mem := rfl
@[simp] theorem State.endClause_poison (n : Nat) (c : Clause) (p : Option Row) : (s.endClause n c p).poison = s.poison := rfl
@[simp] theorem State.endClause_fresh (n : Nat) (c : Clause) (p : Option Row) : (s.endClause n c p).fresh = s.fresh := rfl
@[simp] theorem State.endClause_responses (n : Nat) (c : Clause) (p : Option Row) : (s.endClause n c p).responses = s.responses := rfl
@[simp] theorem State.endClause_irqs (n : Nat) (c : Clause) (p : Option Row) : (s.endClause n c p).irqs = s.irqs := rfl
@[simp] theorem State.endClause_xferLog (n : Nat) (c : Clause) (p : Option Row) : (s.endClause n c p).xferLog = s.xferLog := rfl
@[simp] theorem State.endClause_arrayLog (n : Nat) (c : Clause) (p : Option Row) : (s.endClause n c p).arrayLog = s.arrayLog := rfl
@[simp] theorem State.endClause_svcLog (n : Nat) (c : Clause) (p : Option Row) : (s.endClause n c p).svcLog = s.svcLog := rfl

/-! ## modSiblings -/

@[simp] theorem State.modSiblings_tick (t n : Nat) (f : Group → Group) : (s.modSiblings t n f).tick = s.tick := rfl
@[simp] theorem State.modSiblings_time (t n : Nat) (f : Group → Group) : (s.modSiblings t n f).time = s.time := rfl
@[simp] theorem State.modSiblings_turns (t n : Nat) (f : Group → Group) : (s.modSiblings t n f).turns = s.turns := rfl
@[simp] theorem State.modSiblings_arg (t n : Nat) (f : Group → Group) : (s.modSiblings t n f).arg = s.arg := rfl
@[simp] theorem State.modSiblings_cur (t n : Nat) (f : Group → Group) : (s.modSiblings t n f).cur = s.cur := rfl
@[simp] theorem State.modSiblings_dev (t n : Nat) (f : Group → Group) : (s.modSiblings t n f).dev = s.dev := rfl
@[simp] theorem State.modSiblings_towers (t n : Nat) (f : Group → Group) : (s.modSiblings t n f).towers = s.towers := rfl
@[simp] theorem State.modSiblings_clusters (t n : Nat) (f : Group → Group) : (s.modSiblings t n f).clusters = s.clusters := rfl
@[simp] theorem State.modSiblings_cores (t n : Nat) (f : Group → Group) : (s.modSiblings t n f).cores = s.cores := rfl
@[simp] theorem State.modSiblings_links (t n : Nat) (f : Group → Group) : (s.modSiblings t n f).links = s.links := rfl
@[simp] theorem State.modSiblings_ctxs (t n : Nat) (f : Group → Group) : (s.modSiblings t n f).ctxs = s.ctxs := rfl
@[simp] theorem State.modSiblings_queues (t n : Nat) (f : Group → Group) : (s.modSiblings t n f).queues = s.queues := rfl
@[simp] theorem State.modSiblings_launches (t n : Nat) (f : Group → Group) : (s.modSiblings t n f).launches = s.launches := rfl
@[simp] theorem State.modSiblings_teams (t n : Nat) (f : Group → Group) : (s.modSiblings t n f).teams = s.teams := rfl
@[simp] theorem State.modSiblings_copies (t n : Nat) (f : Group → Group) : (s.modSiblings t n f).copies = s.copies := rfl
@[simp] theorem State.modSiblings_peers (t n : Nat) (f : Group → Group) : (s.modSiblings t n f).peers = s.peers := rfl
@[simp] theorem State.modSiblings_mirrors (t n : Nat) (f : Group → Group) : (s.modSiblings t n f).mirrors = s.mirrors := rfl
@[simp] theorem State.modSiblings_ends (t n : Nat) (f : Group → Group) : (s.modSiblings t n f).ends = s.ends := rfl
@[simp] theorem State.modSiblings_mem (t n : Nat) (f : Group → Group) : (s.modSiblings t n f).mem = s.mem := rfl
@[simp] theorem State.modSiblings_poison (t n : Nat) (f : Group → Group) : (s.modSiblings t n f).poison = s.poison := rfl
@[simp] theorem State.modSiblings_fresh (t n : Nat) (f : Group → Group) : (s.modSiblings t n f).fresh = s.fresh := rfl
@[simp] theorem State.modSiblings_responses (t n : Nat) (f : Group → Group) : (s.modSiblings t n f).responses = s.responses := rfl
@[simp] theorem State.modSiblings_irqs (t n : Nat) (f : Group → Group) : (s.modSiblings t n f).irqs = s.irqs := rfl
@[simp] theorem State.modSiblings_xferLog (t n : Nat) (f : Group → Group) : (s.modSiblings t n f).xferLog = s.xferLog := rfl
@[simp] theorem State.modSiblings_arrayLog (t n : Nat) (f : Group → Group) : (s.modSiblings t n f).arrayLog = s.arrayLog := rfl
@[simp] theorem State.modSiblings_svcLog (t n : Nat) (f : Group → Group) : (s.modSiblings t n f).svcLog = s.svcLog := rfl

/-! ## The field that an update changes -/

@[simp] theorem State.modGroup_groups (n : Nat) (f : Group → Group) : (s.modGroup n f).groups = s.groups.modify n f := rfl
@[simp] theorem State.modTeam_teams (n : Nat) (f : Team → Team) : (s.modTeam n f).teams = s.teams.modify n f := rfl
@[simp] theorem State.modLaunch_launches (n : Nat) (f : Launch → Launch) : (s.modLaunch n f).launches = s.launches.modify n f := rfl
@[simp] theorem State.modQueue_queues (n : Nat) (f : Queue → Queue) : (s.modQueue n f).queues = s.queues.modify n f := rfl
@[simp] theorem State.modCopy_copies (n : Nat) (f : Copy → Copy) : (s.modCopy n f).copies = s.copies.modify n f := rfl
@[simp] theorem State.modDev_dev (f : Device → Device) : (s.modDev f).dev = f s.dev := rfl
@[simp] theorem State.answer_responses (a : Status) (v : List Byte) : (s.answer a v).responses = ⟨a, v, []⟩ :: s.responses := rfl
@[simp] theorem State.interrupt_irqs (i : Irq) : (s.interrupt i).irqs = i :: s.irqs := rfl

/-! ## Reading parts after writing them -/

@[simp] theorem State.core_modCore_self (n : Nat) (f : Core → Core) : (s.modCore n f).core n = f (s.core n) := by
  simp [State.modCore, State.setCore, State.core, Tbl.findD_put_self]

theorem State.core_modCore_ne {n m : Nat} (f : Core → Core) (h : m ≠ n) : (s.modCore n f).core m = s.core m := by
  simp [State.modCore, State.setCore, State.core, Tbl.findD_put_ne _ _ _ h]

@[simp] theorem State.tower_modTower_self (n : Nat) (f : Tower → Tower) : (s.modTower n f).tower n = f (s.tower n) := by
  simp [State.modTower, State.setTower, State.tower, Tbl.findD_put_self]

theorem State.tower_modTower_ne {n m : Nat} (f : Tower → Tower) (h : m ≠ n) : (s.modTower n f).tower m = s.tower m := by
  simp [State.modTower, State.setTower, State.tower, Tbl.findD_put_ne _ _ _ h]

@[simp] theorem State.cluster_modCluster_self (n : Nat) (f : Cluster → Cluster) :
    (s.modCluster n f).cluster n = f (s.cluster n) := by
  simp [State.modCluster, State.setCluster, State.cluster, Tbl.findD_put_self]

theorem State.cluster_modCluster_ne {n m : Nat} (f : Cluster → Cluster) (h : m ≠ n) :
    (s.modCluster n f).cluster m = s.cluster m := by
  simp [State.modCluster, State.setCluster, State.cluster, Tbl.findD_put_ne _ _ _ h]

@[simp] theorem State.ctx_modCtx_self (n : Nat) (f : Context → Context) : (s.modCtx n f).ctx n = f (s.ctx n) := by
  simp [State.modCtx, State.ctx, Tbl.findD_put_self]

theorem State.ctx_modCtx_ne {n m : Nat} (f : Context → Context) (h : m ≠ n) : (s.modCtx n f).ctx m = s.ctx m := by
  simp [State.modCtx, State.ctx, Tbl.findD_put_ne _ _ _ h]

@[simp] theorem State.link_modLink_self (n : Nat) (f : LinkPort → LinkPort) : (s.modLink n f).link n = f (s.link n) := by
  simp [State.modLink, State.link, Tbl.findD_put_self]

theorem State.find_modGroup (n m : Nat) (f : Group → Group) :
    (s.modGroup n f).groups.find m = if m = n then (s.groups.find n).map f else s.groups.find m := Tbl.find_modify ..

theorem State.find_modTeam (n m : Nat) (f : Team → Team) :
    (s.modTeam n f).teams.find m = if m = n then (s.teams.find n).map f else s.teams.find m := Tbl.find_modify ..

theorem State.find_modLaunch (n m : Nat) (f : Launch → Launch) :
    (s.modLaunch n f).launches.find m = if m = n then (s.launches.find n).map f else s.launches.find m := Tbl.find_modify ..

end Sys2Proof.Machine
end

