-- ==== Sys2Proof/Laws/Issue.lean ====
section
/-! SUPPORT. Issuing: what `issue` answers when nothing keeps the instruction from issuing, and what the end of an
instruction leaves in the issuing group and outside it. -/

namespace Sys2Proof.Machine

open Sys2Proof

variable {i : Instr} {sh : Shape} {s s1 : State} {gid : Nat} {g : Group} {c : Clause} {t : Team} {l : Launch}
  {body : Env → State → Res} {e : Eff}

/-! ## What `issue` answers -/

/-- Under `Issuable`, the body runs and its answer concludes the instruction; a body that waits makes its group wait. -/
theorem issue_runs (h : Issuable i sh s gid g c t l) :
    issue i sh body s = .next (match body (seen s gid g c t l) s with
      | .wait k lim ph s1 => (s1.waitFor gid k lim ph).modGroup gid fun g' =>
          { g' with wanted := (g.newNames sh.vw).length, granted := decide ((g.newNames sh.vw).length > 0) }
      | r => conclude gid i sh c r) := by
  have hb : ¬ (cfgSbchk g.ctxcfg && g.tooEarly sh c.active) = true := by
    rcases h.timely with h1 | h1 <;> simp [h1]
  have hd : ¬ (sh.dc < 6 ∧ g.dc sh.dc ≥ 63) := fun ⟨h1, h2⟩ => by have := h.room h1; omega
  simp only [issue, h.cur, h.group, h.clause, h.team, h.launch, issueIn, h.allowed, h.loaded, h.rows, runBody, h.alone, seen]
  simp only [hb, hd, if_false, ne_eq, not_true_eq_false, false_and, reduceCtorEq, Bool.false_eq_true]
  all_goals cases body ⟨gid, g.view s.tick, c, t, l⟩ s <;> rfl

theorem issue_done (h : Issuable i sh s gid g c t l) (hb : body (seen s gid g c t l) s = .done e s1) :
    issue i sh body s = .next (s1.finish gid i sh c e .none none) := by
  rw [issue_runs h, hb]; rfl

theorem issue_later {a : OpAct} (h : Issuable i sh s gid g c t l) (hb : body (seen s gid g c t l) s = .later e a s1) :
    issue i sh body s = .next (s1.finish gid i sh c e a none) := by
  rw [issue_runs h, hb]; rfl

theorem issue_jump {p : Row} (h : Issuable i sh s gid g c t l) (hb : body (seen s gid g c t l) s = .jump p e s1) :
    issue i sh body s = .next (s1.finish gid i sh c e .none (some p)) := by
  rw [issue_runs h, hb]; rfl

theorem issue_trap {k : Cause} (h : Issuable i sh s gid g c t l) (hb : body (seen s gid g c t l) s = .trap k s1) :
    issue i sh body s = .next (trapHere s1 gid c k) := by
  rw [issue_runs h, hb]; rfl

theorem issue_trapNext {k : Cause} (h : Issuable i sh s gid g c t l) (hb : body (seen s gid g c t l) s = .trapNext k s1) :
    issue i sh body s = .next (trapAfter (s1.modGroup gid (Group.enterRegion c [])) gid c (encode i).length k) := by
  rw [issue_runs h, hb]; rfl

theorem issue_own (h : Issuable i sh s gid g c t l) (hb : body (seen s gid g c t l) s = .own s1) :
    issue i sh body s = .next ((s1.modGroup gid (Group.enterRegion c [])).ownEnd gid) := by
  rw [issue_runs h, hb]; rfl

/-! ## The groups after an instruction -/

theorem find_issued (s : State) (gid k : Nat) : (s.issued gid).groups.find k = (s.groups.find k).map fun g =>
    if k = gid then { g with age := s.tick, wait := none, st := .ready, granted := false, wanted := 0, again := false }
    else { g with after := g.after.filter (· != gid) } := by
  have := Tbl.find_map s.groups (fun n (g : Group) =>
    if n = gid then { g with age := s.tick, wait := none, st := .ready, granted := false, wanted := 0, again := false }
    else { g with after := g.after.filter (· != gid) }) k
  rw [← this]
  congr 1
  simp only [State.issued]
  apply List.map_congr_left
  intro p _
  by_cases h : p.1 = gid <;> simp [h]

/-- What issuing sets in the issuing group first (R155, R169). -/
def Group.fresh (tick : Nat) (g : Group) : Group :=
  { g with age := tick, wait := none, st := .ready, granted := false, wanted := 0, again := false }

/-- The issuing group right before it goes on behind its instruction, for an instruction without a counter. -/
def Group.written (tick : Nat) (sh : Shape) (c : Clause) (e : Eff) (g : Group) : Group :=
  Group.settled sh c (Group.apply e (Group.issuing tick sh c e (g.fresh tick)))

/-- The issuing group as it goes on behind an instruction of `n` words. -/
def Group.goOn (c : Clause) (n : Nat) (pcv : Option Row) (beside : List Nat) (g : Group) : Group :=
  if pcv.isSome || decide (c.pos + n ≥ c.words.length) then
    Group.retireIfDone { g with
      clause := none
      pcv := pcv.getD (rowOf fun l => if inMask c.active l then c.next else lane g.pcv l)
      after := if c.header.getLsbD 14 then beside else g.after
      stepDue := cfgSstep g.ctxcfg && ! g.hmode
      tmask := if cfgSstep g.ctxcfg && ! g.hmode then c.active else g.tmask }
  else { g with clause := some { c with pos := c.pos + n } }

theorem find_advance (s : State) (gid : Nat) (c : Clause) (n : Nat) (pcv : Option Row) (k : Nat) :
    (s.advance gid c n pcv).groups.find k =
      if k = gid then (s.groups.find gid).map (Group.goOn c n pcv (s.readyBeside gid)) else s.groups.find k := by
  unfold State.advance
  by_cases h : (pcv.isSome || decide (c.pos + n ≥ c.words.length)) = true
  · rw [if_pos h]
    simp only [State.endClause, State.find_modGroup]
    congr 1
    congr 1
    funext g
    simp only [Group.goOn, if_pos h]
  · rw [if_neg h, State.find_modGroup]
    congr 1
    congr 1
    funext g
    simp only [Group.goOn, if_neg h]

/-- The issuing group right before it goes on behind its instruction, for one with a counter; `m` numbers the operation. -/
def Group.counted (tick m : Nat) (sh : Shape) (c : Clause) (e : Eff) (a : OpAct) (g : Group) : Group :=
  Group.settled sh c (Group.withOp tick m sh e a c.addr (Group.issuing tick sh c e (g.fresh tick)))

/-- The groups after an instruction with a counter. -/
theorem find_finish_counted {a : OpAct} {pcv : Option Row} (hd : sh.dc ≠ 6) (k : Nat) :
    ∃ beside, (s1.finish gid i sh c e a pcv).groups.find k = (s1.groups.find k).map fun g =>
      if k = gid then (g.counted s1.tick s1.fresh sh c e a).goOn c (encode i).length pcv beside
      else { g with after := g.after.filter (· != gid) } := by
  unfold State.finish
  simp only [hd, if_false, State.addOp]
  by_cases h : k = gid
  · subst h
    split <;>
    · constructor
      rw [find_advance, if_pos rfl]
      simp only [State.modCore_groups, State.find_modGroup, if_true, State.gensym]
      show Option.map _ (Option.map _ (Option.map _ (Option.map _ ((s1.issued k).groups.find k)))) = _
      rw [find_issued]
      simp only [Option.map_map, if_true]
      cases s1.groups.find k <;> rfl
  · refine ⟨[], ?_⟩
    rw [find_advance, if_neg h]
    split <;>
    · simp only [State.modCore_groups, State.find_modGroup, h, if_false, State.gensym]
      rw [find_issued]
      simp only [h, if_false]

/-- The groups after an instruction without a counter. -/
theorem find_finish {a : OpAct} {pcv : Option Row} (hd : sh.dc = 6) (k : Nat) :
    ∃ beside, (s1.finish gid i sh c e a pcv).groups.find k = (s1.groups.find k).map fun g =>
      if k = gid then (g.written s1.tick sh c e).goOn c (encode i).length pcv beside
      else { g with after := g.after.filter (· != gid) } := by
  unfold State.finish
  simp only [hd, if_true]
  by_cases h : k = gid
  · subst h
    split <;>
    · constructor
      rw [find_advance, if_pos rfl]
      simp only [State.modCore_groups, State.find_modGroup, if_true, find_issued, Option.map_map]
      cases s1.groups.find k <;> rfl
  · refine ⟨[], ?_⟩
    rw [find_advance, if_neg h]
    split <;> simp only [State.modCore_groups, State.find_modGroup, h, if_false, find_issued]

/-! ## Registers of the issuing group -/

@[simp] theorem goOn_rows (c : Clause) (n : Nat) (p : Option Row) (b : List Nat) (g : Group) :
    (g.goOn c n p b).rows = g.rows := by
  simp only [Group.goOn, Group.retireIfDone]; split <;> (try split) <;> rfl

@[simp] theorem goOn_sregs (c : Clause) (n : Nat) (p : Option Row) (b : List Nat) (g : Group) :
    (g.goOn c n p b).sregs = g.sregs := by
  simp only [Group.goOn, Group.retireIfDone]; split <;> (try split) <;> rfl

@[simp] theorem goOn_ops (c : Clause) (n : Nat) (p : Option Row) (b : List Nat) (g : Group) :
    (g.goOn c n p b).ops = g.ops := by
  simp only [Group.goOn, Group.retireIfDone]; split <;> (try split) <;> rfl

/-- Giving up rows leaves the others. -/
theorem find_freeRows (f : Group → Nat → Group) (vs : List Nat) (v : Nat) (hv : v ∉ vs)
    (hf : ∀ g n, n ≠ v → (f g n).rows.find v = g.rows.find v) (g : Group) :
    (vs.foldl f g).rows.find v = g.rows.find v := by
  induction vs generalizing g with
  | nil => rfl
  | cons n vs ih =>
    simp only [List.mem_cons, not_or] at hv
    rw [List.foldl_cons, ih hv.2, hf _ _ (Ne.symm hv.1)]

theorem freeRows_keep {α : Type} (p : Group → α) (f : Group → Nat → Group) (vs : List Nat)
    (hf : ∀ g n, p (f g n) = p g) (g : Group) : p (vs.foldl f g) = p g := by
  induction vs generalizing g with
  | nil => rfl
  | cons n vs ih => rw [List.foldl_cons, ih, hf]

theorem enterRegion_find {v : Nat} {vw : List Nat} (g : Group) (c : Clause) (h : v ∈ vw ∨ v ∉ g.pendFree) :
    (g.enterRegion c vw).rows.find v = g.rows.find v := by
  unfold Group.enterRegion
  split
  · split
    · rw [find_freeRows (v := v)]
      · rfl
      · rcases h with h | h <;> simp [h]
      · intro g n hn; exact Tbl.find_del_ne _ (Ne.symm hn)
    · rfl
  · rfl

/-- What `enterRegion` does not change. -/
theorem enterRegion_keep {α : Type} (p : Group → α) (vw : List Nat) (g : Group) (c : Clause)
    (h1 : ∀ g v, p (Group.freeRow g v) = p g)
    (h2 : ∀ g : Group, c.header.getLsbD 15 = true → p (g.noteRegion c) = p g)
    (h3 : ∀ g : Group, p { g with pendFree := [] } = p g) :
    p (g.enterRegion c vw) = p g := by
  unfold Group.enterRegion
  split
  · next h =>
    split
    · rw [freeRows_keep p _ _ h1]
      exact (h3 _).trans (h2 _ h.2)
    · exact h2 _ h.2
  · rfl

theorem atRegion_find {v : Nat} (g : Group) (c : Clause) (h : v ∈ sh.vw ∨ v ∉ g.pendFree) :
    (g.atRegion sh c).rows.find v = g.rows.find v := by
  unfold Group.atRegion
  split <;> exact enterRegion_find g c h

/-- What `atRegion` does not change. -/
theorem atRegion_keep {α : Type} (p : Group → α) (g : Group) (c : Clause)
    (h1 : ∀ g v, p (Group.freeRow g v) = p g)
    (h2 : ∀ g : Group, c.header.getLsbD 15 = true → p (g.noteRegion c) = p g)
    (h3 : ∀ g : Group, p { g with pendFree := [] } = p g)
    (h4 : c.header.getLsbD 15 = true → ∀ (g : Group) r, p { g with rev := r } = p g) :
    p (g.atRegion sh c) = p g := by
  unfold Group.atRegion
  split
  · by_cases h : c.header.getLsbD 15 = true
    · exact (h4 h _ _).trans (enterRegion_keep p _ g c h1 h2 h3)
    · rw [show g.enterRegion c sh.vw = g from if_neg fun k => h k.2]
  · exact enterRegion_keep p _ g c h1 h2 h3

theorem freeMarked_find {v : Nat} {vw lu : List Nat} (act : Word) (g : Group) (h : v ∈ vw ∨ v ∉ lu) :
    (g.freeMarked lu vw act).rows.find v = g.rows.find v := by
  unfold Group.freeMarked
  split
  · rw [find_freeRows]
    · rcases h with h | h <;> simp [h]
    · intro g n hn
      unfold Group.markFree
      split
      · rfl
      · exact Tbl.find_del_ne _ (Ne.symm hn)
  · rfl

/-- What `freeMarked` does not change. -/
theorem freeMarked_keep {α : Type} (p : Group → α) (lu vw : List Nat) (act : Word) (g : Group)
    (h1 : ∀ g v, p (Group.freeRow g v) = p g)
    (h2 : ∀ (g : Group) l, p { g with pendFree := l } = p g) : p (g.freeMarked lu vw act) = p g := by
  unfold Group.freeMarked
  split
  · apply freeRows_keep p
    intro g n
    unfold Group.markFree
    split
    · exact h2 _ _
    · exact h1 _ _
  · rfl

@[simp] theorem setV_sregs (g : Group) (v : Nat) (m : Word) (r : Row) : (g.setV v m r).sregs = g.sregs := rfl
@[simp] theorem setV_pcv (g : Group) (v : Nat) (m : Word) (r : Row) : (g.setV v m r).pcv = g.pcv := rfl
@[simp] theorem setS_rows (g : Group) (n : Nat) (x : DWord) : (g.setS n x).rows = g.rows := rfl
@[simp] theorem setS_pcv (g : Group) (n : Nat) (x : DWord) : (g.setS n x).pcv = g.pcv := rfl

theorem setV_find (g : Group) (v w : Nat) (m : Word) (r : Row) :
    (g.setV v m r).rows.find w = if w = v then some (mergeRow m (g.vreg v) r) else g.rows.find w := Tbl.find_put ..

theorem setS_find (g : Group) (n k : Nat) (x : DWord) :
    (g.setS n x).sregs.find k = if k = n then some x else g.sregs.find k := Tbl.find_put ..

/-- Writing vector registers leaves the others. -/
theorem foldl_setV_find (vs : List (Nat × Row × Word)) (v : Nat) (h : v ∉ vs.map (·.1)) (g : Group) :
    (vs.foldl (fun (g : Group) p => g.setV p.1 p.2.2 p.2.1) g).rows.find v = g.rows.find v := by
  induction vs generalizing g with
  | nil => rfl
  | cons p vs ih =>
    simp only [List.map_cons, List.mem_cons, not_or] at h
    rw [List.foldl_cons, ih h.2, setV_find, if_neg h.1]

theorem foldl_setV_keep {α : Type} (p : Group → α) (vs : List (Nat × Row × Word))
    (hf : ∀ g v m r, p (Group.setV g v m r) = p g) (g : Group) :
    p (vs.foldl (fun (g : Group) q => g.setV q.1 q.2.2 q.2.1) g) = p g := by
  induction vs generalizing g with
  | nil => rfl
  | cons q vs ih => rw [List.foldl_cons, ih, hf]

theorem foldl_setS_find (vs : List (Nat × DWord)) (n : Nat) (h : n ∉ vs.map (·.1)) (g : Group) :
    (vs.foldl (fun (g : Group) p => g.setS p.1 p.2) g).sregs.find n = g.sregs.find n := by
  induction vs generalizing g with
  | nil => rfl
  | cons p vs ih =>
    simp only [List.map_cons, List.mem_cons, not_or] at h
    rw [List.foldl_cons, ih h.2, setS_find, if_neg h.1]

theorem foldl_setS_keep {α : Type} (p : Group → α) (vs : List (Nat × DWord))
    (hf : ∀ g n x, p (Group.setS g n x) = p g) (g : Group) :
    p (vs.foldl (fun (g : Group) q => g.setS q.1 q.2) g) = p g := by
  induction vs generalizing g with
  | nil => rfl
  | cons q vs ih => rw [List.foldl_cons, ih, hf]

/-- A vector register that an instruction neither writes nor gives up. -/
theorem written_find {v : Nat} (tick : Nat) (g : Group) (h1 : v ∉ e.vw.map (·.1)) (h2 : v ∈ sh.vw ∨ v ∉ sh.lu)
    (h3 : v ∈ sh.vw ∨ v ∉ g.pendFree) : (g.written tick sh c e).rows.find v = g.rows.find v := by
  unfold Group.written Group.settled
  rw [freeMarked_find _ _ h2]
  unfold Group.apply
  rw [foldl_setS_keep (fun g => g.rows) _ (fun _ _ _ => rfl), foldl_setV_find _ _ h1]
  exact atRegion_find _ _ h3

/-- A vector register that an instruction writes, at its turn among the writes. -/
theorem written_vreg (tick : Nat) (g : Group) (d : Nat) (r : Row) (m : Word) (as bs : List (Nat × Row × Word))
    (he : e.vw = as ++ (d, r, m) :: bs) (h1 : d ∉ as.map (·.1)) (h2 : d ∉ bs.map (·.1)) (h3 : d ∈ sh.vw) :
    (g.written tick sh c e).vreg d = mergeRow m (g.vreg d) r := by
  have h : (g.written tick sh c e).rows.find d = some (mergeRow m (g.vreg d) r) := by
    unfold Group.written Group.settled
    rw [freeMarked_find _ _ (.inl h3)]
    unfold Group.apply
    rw [foldl_setS_keep (fun g => g.rows) _ (fun _ _ _ => rfl), he, List.foldl_append, List.foldl_cons,
      foldl_setV_find _ _ h2, setV_find, if_pos rfl, Group.vreg, foldl_setV_find _ _ h1]
    simp only [Group.issuing]
    rw [atRegion_find _ _ (.inl h3)]
    rfl
  rw [Group.vreg, h, Option.getD_some]

/-- The scalar registers after an instruction. -/
theorem written_sregs (tick : Nat) (g : Group) :
    (g.written tick sh c e).sregs = (e.sw.foldl (fun (g : Group) p => g.setS p.1 p.2) g).sregs := by
  have key : ∀ (vs : List (Nat × DWord)) (g h : Group), g.sregs = h.sregs →
      (vs.foldl (fun (g : Group) p => g.setS p.1 p.2) g).sregs = (vs.foldl (fun (g : Group) p => g.setS p.1 p.2) h).sregs := by
    intro vs
    induction vs with
    | nil => intro g h e; exact e
    | cons p vs ih => intro g h e; exact ih _ _ (by simp [Group.setS, e])
  unfold Group.written Group.settled
  show (Group.freeMarked _ _ _ _).sregs = _
  rw [freeMarked_keep (fun g => g.sregs) _ _ _ _ (fun _ _ => rfl) (fun _ _ => rfl)]
  refine key _ _ _ ?_
  rw [foldl_setV_keep (fun g => g.sregs) _ (fun _ _ _ _ => rfl)]
  exact atRegion_keep (fun g => g.sregs) _ _ (fun _ _ => rfl) (fun _ _ => rfl) (fun _ => rfl) fun _ _ _ => rfl

theorem written_pcv (tick : Nat) (g : Group) : (g.written tick sh c e).pcv = g.pcv := by
  unfold Group.written Group.settled
  show (Group.freeMarked _ _ _ _).pcv = _
  rw [freeMarked_keep (fun g => g.pcv) _ _ _ _ (fun _ _ => rfl) (fun _ _ => rfl)]
  show (Group.apply _ _).pcv = _
  unfold Group.apply
  rw [foldl_setS_keep (fun g => g.pcv) _ (fun _ _ _ => rfl), foldl_setV_keep (fun g => g.pcv) _ (fun _ _ _ _ => rfl)]
  exact atRegion_keep (fun g => g.pcv) _ _ (fun _ _ => rfl) (fun _ _ => rfl) (fun _ => rfl) fun _ _ _ => rfl

theorem written_wait (tick : Nat) (g : Group) : (g.written tick sh c e).wait = none := by
  unfold Group.written Group.settled
  show (Group.freeMarked _ _ _ _).wait = _
  rw [freeMarked_keep (fun g => g.wait) _ _ _ _ (fun _ _ => rfl) (fun _ _ => rfl)]
  show (Group.apply _ _).wait = _
  unfold Group.apply
  rw [foldl_setS_keep (fun g => g.wait) _ (fun _ _ _ => rfl), foldl_setV_keep (fun g => g.wait) _ (fun _ _ _ _ => rfl)]
  exact atRegion_keep (fun g => g.wait) _ _ (fun _ _ => rfl) (fun _ _ => rfl) (fun _ => rfl) fun _ _ _ => rfl

/-- A part of a group that registers, results under way and the lathe do not touch. -/
structure Aside {α : Type} (c : Clause) (p : Group → α) : Prop where
  fresh : ∀ t g, p (Group.fresh t g) = p g
  row : ∀ g v, p (Group.freeRow g v) = p g
  region : ∀ g, c.header.getLsbD 15 = true → p (Group.noteRegion c g) = p g
  pend : ∀ (g : Group) l, p { g with pendFree := l } = p g
  rev : c.header.getLsbD 15 = true → ∀ (g : Group) r, p { g with rev := r } = p g
  hazards : ∀ (g : Group) l, p { g with hazards := l } = p g
  ops : ∀ (g : Group) l, p { g with ops := l } = p g
  names : ∀ (g : Group) l, p { g with drowsy := l } = p g
  stall : ∀ (g : Group) n, p { g with stall := n } = p g
  vreg : ∀ g v m r, p (Group.setV g v m r) = p g
  sreg : ∀ g n x, p (Group.setS g n x) = p g

theorem issuing_keep {α : Type} {p : Group → α} (hp : Aside c p) (tick : Nat) (g : Group) :
    p (Group.issuing tick sh c e g) = p g := by
  unfold Group.issuing
  rw [hp.ops, hp.hazards]
  exact atRegion_keep p _ _ hp.row hp.region (fun g => hp.pend g []) hp.rev

theorem settled_keep {α : Type} {p : Group → α} (hp : Aside c p) (g : Group) : p (Group.settled sh c g) = p g := by
  unfold Group.settled
  rw [hp.stall, freeMarked_keep p _ _ _ _ hp.row hp.pend, hp.names]

theorem written_keep {α : Type} {p : Group → α} (hp : Aside c p) (tick : Nat) (g : Group) :
    p (g.written tick sh c e) = p g := by
  unfold Group.written Group.apply
  rw [settled_keep hp, foldl_setS_keep p _ hp.sreg, foldl_setV_keep p _ hp.vreg, issuing_keep hp, hp.fresh]

theorem counted_keep {α : Type} {p : Group → α} {a : OpAct} (hp : Aside c p)
    (hc : ∀ (g : Group) d l, p { g with dcs := d, ops := l } = p g) (tick m : Nat) (g : Group) :
    p (g.counted tick m sh c e a) = p g := by
  unfold Group.counted Group.withOp
  simp only []
  rw [settled_keep hp, hc]
  have key : ∀ (vs : List Nat) (g : Group), p (g.allocate vs) = p g := by
    intro vs
    unfold Group.allocate
    induction vs with
    | nil => intro g; rfl
    | cons v vs ih => intro g; rw [List.foldl_cons, ih, hp.vreg]
  rw [key, issuing_keep hp, hp.fresh]

/-- The special registers, the frame, the ports and the barriers of a group, but REV. -/
def Group.aside (g : Group) :=
  (g.ctxcfg, g.dphase, g.pidx, g.batch, g.spcv, g.cause, g.tword, g.tclause, g.skidn, g.hmode, g.tmask, g.ports, g.lag, g.bars)

theorem aside_aside : Aside c Group.aside where
  fresh _ _ := rfl
  row _ _ := rfl
  region _ _ := rfl
  pend _ _ := rfl
  rev _ _ _ := rfl
  hazards _ _ := rfl
  ops _ _ := rfl
  names _ _ := rfl
  stall _ _ := rfl
  vreg _ _ _ _ := rfl
  sreg _ _ _ := rfl

theorem aside_dcs : Aside c fun g => g.dcs where
  fresh _ _ := rfl
  row _ _ := rfl
  region _ _ := rfl
  pend _ _ := rfl
  rev _ _ _ := rfl
  hazards _ _ := rfl
  ops _ _ := rfl
  names _ _ := rfl
  stall _ _ := rfl
  vreg _ _ _ _ := rfl
  sreg _ _ _ := rfl

theorem aside_rev (h : c.header.getLsbD 15 = false) : Aside c fun g => g.rev where
  fresh _ _ := rfl
  row _ _ := rfl
  region _ h1 := absurd h1 (by rw [h]; decide)
  pend _ _ := rfl
  rev h1 := absurd h1 (by rw [h]; decide)
  hazards _ _ := rfl
  ops _ _ := rfl
  names _ _ := rfl
  stall _ _ := rfl
  vreg _ _ _ _ := rfl
  sreg _ _ _ := rfl

@[simp] theorem retire_pcv (g : Group) : g.retireIfDone.pcv = g.pcv := by
  unfold Group.retireIfDone; split <;> rfl

theorem retire_clause (g : Group) (h : g.clause = none) : g.retireIfDone.clause = none := by
  unfold Group.retireIfDone; split <;> simp [h]

theorem retire_wait (g : Group) (h : g.wait = none) : g.retireIfDone.wait = none := by
  unfold Group.retireIfDone; split <;> simp [h]

/-- The special registers of a group that goes on. -/
theorem goOn_specials {w : State} {h : Group} {n : Nat} {p : Option Row} {b : List Nat}
    (hf : w.groups.find gid = some (h.goOn c n p b)) (h1 : h.aside = g.aside)
    (h2 : c.header.getLsbD 15 = false → h.rev = g.rev) : Specials w gid g c (h.goOn c n p b) := by
  simp only [Group.aside, Prod.mk.injEq] at h1
  obtain ⟨a1, a2, a3, a4, a5, a6, a7, a8, a9, a10, a11, a12, a13, a14⟩ := h1
  have hh : ∀ k : Group, k.retireIfDone.st ≠ .retiring → k.retireIfDone.hmode = k.hmode := by
    intro k hk
    unfold Group.retireIfDone at hk ⊢
    split at hk <;> simp_all
  have hr : ∀ {α : Type} (q : Group → α), (∀ k : Group, q { k with st := .retiring, hmode := false, clause := none, wait := none, halt := none } = q k) →
      ∀ k : Group, q k.retireIfDone = q k := by
    intro α q hq k
    unfold Group.retireIfDone
    split
    · exact hq k
    · rfl
  refine ⟨hf, ?_, ?_, ?_, ?_, ?_, ?_, ?_⟩
  all_goals unfold Group.goOn; split
  · exact ⟨(hr (fun k => k.ctxcfg) (fun _ => rfl) _).trans a1, (hr (fun k => k.dphase) (fun _ => rfl) _).trans a2,
      (hr (fun k => k.pidx) (fun _ => rfl) _).trans a3, (hr (fun k => k.batch) (fun _ => rfl) _).trans a4⟩
  · exact ⟨a1, a2, a3, a4⟩
  · exact ⟨(hr (fun k => k.spcv) (fun _ => rfl) _).trans a5, (hr (fun k => k.cause) (fun _ => rfl) _).trans a6,
      (hr (fun k => k.tword) (fun _ => rfl) _).trans a7, (hr (fun k => k.tclause) (fun _ => rfl) _).trans a8,
      (hr (fun k => k.skidn) (fun _ => rfl) _).trans a9⟩
  · exact ⟨a5, a6, a7, a8, a9⟩
  · exact fun hk => (hh _ hk).trans a10
  · exact fun _ => a10
  · intro hs
    refine (hr (fun k => k.tmask) (fun _ => rfl) _).trans ?_
    simp [a1, hs, a11]
  · exact fun _ => a11
  · exact fun hc => (hr (fun k => k.rev) (fun _ => rfl) _).trans (h2 hc)
  · exact h2
  · exact ⟨(hr (fun k => k.ports) (fun _ => rfl) _).trans a12, (hr (fun k => k.lag) (fun _ => rfl) _).trans a13⟩
  · exact ⟨a12, a13⟩
  · exact (hr (fun k => k.bars) (fun _ => rfl) _).trans a14
  · exact a14

@[simp] theorem goOn_dcs (c : Clause) (n : Nat) (p : Option Row) (b : List Nat) (g : Group) :
    (g.goOn c n p b).dcs = g.dcs := by
  simp only [Group.goOn, Group.retireIfDone]; split <;> (try split) <;> rfl

/-! ## Outside the group -/

theorem finish_outside {a : OpAct} {p : Option Row} (hd : sh.dc = 6) : SameOutside s1 (s1.finish gid i sh c e a p) := by
  unfold State.finish
  simp only [hd, if_true]
  constructor <;> (unfold State.advance; split <;> split <;> simp)

theorem finish_cores {a : OpAct} {p : Option Row} (hd : sh.dc = 6) : SameCores s1 (s1.finish gid i sh c e a p) := by
  intro k
  have key : ∀ s : State, ∀ n t, { (s.modCore n fun k => { k with freedAt := t }).core k with freedAt := 0 }
      = { s.core k with freedAt := 0 } := by
    intro s n t
    by_cases h : k = n
    · subst h; simp
    · rw [State.core_modCore_ne _ _ h]
  have adv : ∀ (s : State) c n p, (s.advance gid c n p).cores = s.cores := by
    intro s c n p; unfold State.advance; split <;> simp
  unfold State.finish
  simp only [hd, if_true, State.core, adv]
  split
  · exact key _ _ _
  · rfl

theorem finish_others {a : OpAct} {p : Option Row} (hd : sh.dc = 6) : SameOthers s1 (s1.finish gid i sh c e a p) gid := by
  intro k hk
  obtain ⟨b, h⟩ := find_finish (s1 := s1) (gid := gid) (i := i) (sh := sh) (c := c) (e := e) (a := a) (pcv := p) hd k
  rw [h]
  simp [hk]

/-- An instruction without a counter that only writes registers. -/
theorem finish_registerOnly {a : OpAct} {p : Option Row} (hd : sh.dc = 6) (hg : s1.groups.find gid = some g)
    (hv : ∀ v ∈ e.vw.map (·.1), v ∈ sh.vw) (hs : ∀ n ∈ e.sw.map (·.1), n ∈ sh.sw) :
    RegisterOnly s1 (s1.finish gid i sh c e a p) gid g c sh where
  outside := finish_outside hd
  cores := finish_cores hd
  others := finish_others hd
  vectors := by
    intro v h1 h2 h3
    obtain ⟨b, h⟩ := find_finish (s1 := s1) (gid := gid) (i := i) (sh := sh) (c := c) (e := e) (a := a) (pcv := p) hd gid
    simp only [State.vregOf, h, hg, Option.map_some, if_true, Option.getD_some, Group.vreg, goOn_rows]
    rw [written_find _ _ (fun h => h1 (hv v h)) (.inr h2) (.inr h3)]
  scalars := by
    intro n h1
    obtain ⟨b, h⟩ := find_finish (s1 := s1) (gid := gid) (i := i) (sh := sh) (c := c) (e := e) (a := a) (pcv := p) hd gid
    simp only [State.sregOf, h, hg, Option.map_some, if_true, Option.getD_some, Group.sreg, goOn_sregs, written_sregs]
    rw [foldl_setS_find _ _ (fun h => h1 (hs n h))]
  specials := by
    obtain ⟨b, h⟩ := find_finish (s1 := s1) (gid := gid) (i := i) (sh := sh) (c := c) (e := e) (a := a) (pcv := p) hd gid
    rw [hg, Option.map_some, if_pos rfl] at h
    exact ⟨_, goOn_specials h (written_keep aside_aside _ _) fun hc => written_keep (aside_rev hc) _ _⟩
  counters := by
    obtain ⟨b, h⟩ := find_finish (s1 := s1) (gid := gid) (i := i) (sh := sh) (c := c) (e := e) (a := a) (pcv := p) hd gid
    rw [h, hg, Option.map_some, if_pos rfl, Option.map_some, goOn_dcs]
    exact congrArg some (written_keep aside_dcs _ _)

/-- Where an instruction without a counter leaves its group. -/
theorem finish_past {a : OpAct} (hd : sh.dc = 6) (hg : s1.groups.find gid = some g) :
    PastInstr (s1.finish gid i sh c e a none) gid g c (encode i).length := by
  obtain ⟨b, h⟩ := find_finish (s1 := s1) (gid := gid) (i := i) (sh := sh) (c := c) (e := e) (a := a) (pcv := none) hd gid
  refine ⟨(g.written s1.tick sh c e).goOn c (encode i).length none b, by rw [h, hg]; simp, ?_⟩
  by_cases hn : c.pos + (encode i).length < c.words.length
  · simp [Group.goOn, hn, written_wait, written_pcv, Nat.not_le.mpr hn]
  · have hc : (none : Option Row).isSome || decide (c.pos + (encode i).length ≥ c.words.length) := by
      simp [Nat.not_lt.mp hn]
    rw [Group.goOn, if_pos hc, if_neg hn]
    refine ⟨retire_wait _ (written_wait _ _), retire_clause _ rfl, ?_⟩
    rw [retire_pcv]
    simp [written_pcv]

/-- Where a branch leaves its group. -/
theorem finish_sent {a : OpAct} {tgt : Nat → Word} (hd : sh.dc = 6) (hg : s1.groups.find gid = some g) :
    SentTo (s1.finish gid i sh c e a (some (rowOf fun l => if inMask c.active l then tgt l else lane g.pcv l))) gid g c tgt := by
  obtain ⟨b, h⟩ := find_finish (s1 := s1) (gid := gid) (i := i) (sh := sh) (c := c) (e := e) (a := a)
    (pcv := some (rowOf fun l => if inMask c.active l then tgt l else lane g.pcv l)) hd gid
  refine ⟨(g.written s1.tick sh c e).goOn c (encode i).length
    (some (rowOf fun l => if inMask c.active l then tgt l else lane g.pcv l)) b, by rw [h, hg]; simp, ?_⟩
  rw [Group.goOn, if_pos (by simp)]
  refine ⟨retire_clause _ rfl, retire_wait _ (written_wait _ _), ?_⟩
  rw [retire_pcv]
  rfl

/-! ## An instruction that is done, with or without a counter -/

theorem advance_others (s : State) (gid : Nat) (c : Clause) (n : Nat) (p : Option Row) :
    SameOutside s (s.advance gid c n p) ∧ (s.advance gid c n p).cores = s.cores := by
  unfold State.advance
  split <;> exact ⟨by constructor <;> simp [State.endClause], by simp [State.endClause]⟩

theorem counted_outside {a : OpAct} {p : Option Row} (hd : sh.dc ≠ 6) : SameOutside s1 (s1.finish gid i sh c e a p) := by
  unfold State.finish
  simp only [hd, if_false, State.addOp]
  constructor <;> (unfold State.advance; split <;> split <;> simp [State.gensym])

theorem counted_cores {a : OpAct} {p : Option Row} (hd : sh.dc ≠ 6) : SameCores s1 (s1.finish gid i sh c e a p) := by
  intro k
  have key : ∀ s : State, ∀ n t, { (s.modCore n fun k => { k with freedAt := t }).core k with freedAt := 0 }
      = { s.core k with freedAt := 0 } := by
    intro s n t
    by_cases h : k = n
    · subst h; simp
    · rw [State.core_modCore_ne _ _ h]
  unfold State.finish
  simp only [hd, if_false, State.core, (advance_others _ _ _ _ _).2, State.addOp]
  split
  · refine (key _ _ _).trans ?_
    simp [State.core, State.gensym]
  · simp [State.gensym]

theorem counted_others {a : OpAct} {p : Option Row} (hd : sh.dc ≠ 6) : SameOthers s1 (s1.finish gid i sh c e a p) gid := by
  intro k hk
  obtain ⟨b, h⟩ := find_finish_counted (s1 := s1) (gid := gid) (i := i) (sh := sh) (c := c) (e := e) (a := a) (pcv := p) hd k
  rw [h]
  simp [hk]

/-- The group after an instruction, with or without a counter. -/
def Group.after' (s : State) (sh : Shape) (c : Clause) (e : Eff) (a : OpAct) (g : Group) : Group :=
  if sh.dc = 6 then g.written s.tick sh c e else g.counted s.tick s.fresh sh c e a

theorem after_keep {α : Type} {p : Group → α} {a : OpAct} (hp : Aside c p)
    (hc : sh.dc ≠ 6 → ∀ (g : Group) d l, p { g with dcs := d, ops := l } = p g) (s : State) (g : Group) :
    p (g.after' s sh c e a) = p g := by
  unfold Group.after'
  split
  · exact written_keep hp _ _
  · next h => exact counted_keep hp (hc h) _ _ _

theorem find_after {a : OpAct} {pcv : Option Row} (hg : s1.groups.find gid = some g) :
    ∃ beside, (s1.finish gid i sh c e a pcv).groups.find gid =
      some ((g.after' s1 sh c e a).goOn c (encode i).length pcv beside) := by
  by_cases hd : sh.dc = 6
  · obtain ⟨b, h⟩ := find_finish (s1 := s1) (gid := gid) (i := i) (sh := sh) (c := c) (e := e) (a := a) (pcv := pcv) hd gid
    exact ⟨b, by rw [h, hg, Group.after', if_pos hd]; simp⟩
  · obtain ⟨b, h⟩ := find_finish_counted (s1 := s1) (gid := gid) (i := i) (sh := sh) (c := c) (e := e) (a := a) (pcv := pcv) hd gid
    exact ⟨b, by rw [h, hg, Group.after', if_neg hd]; simp⟩

theorem counted_wait {a : OpAct} (tick m : Nat) (g : Group) : (g.counted tick m sh c e a).wait = none := by
  unfold Group.counted Group.withOp
  have key : ∀ (vs : List Nat) (g : Group), (g.allocate vs).wait = g.wait := by
    intro vs
    unfold Group.allocate
    induction vs with
    | nil => intro g; rfl
    | cons v vs ih => intro g; rw [List.foldl_cons, ih]; rfl
  show (Group.freeMarked _ _ _ _).wait = _
  rw [freeMarked_keep (fun g => g.wait) _ _ _ _ (fun _ _ => rfl) (fun _ _ => rfl)]
  show (Group.allocate _ _).wait = _
  rw [key]
  exact atRegion_keep (fun g => g.wait) _ _ (fun _ _ => rfl) (fun _ _ => rfl) (fun _ => rfl) fun _ _ _ => rfl

theorem after_wait {a : OpAct} (s : State) (g : Group) : (g.after' s sh c e a).wait = none := by
  unfold Group.after'
  split
  · exact written_wait _ _
  · exact counted_wait _ _ _

theorem aside_pcv : Aside c fun g => g.pcv where
  fresh _ _ := rfl
  row _ _ := rfl
  region _ _ := rfl
  pend _ _ := rfl
  rev _ _ _ := rfl
  hazards _ _ := rfl
  ops _ _ := rfl
  names _ _ := rfl
  stall _ _ := rfl
  vreg _ _ _ _ := rfl
  sreg _ _ _ := rfl

/-- Where an instruction leaves its group. -/
theorem finish_past' {a : OpAct} (hg : s1.groups.find gid = some g) :
    PastInstr (s1.finish gid i sh c e a none) gid g c (encode i).length := by
  obtain ⟨b, h⟩ := find_after (s1 := s1) (gid := gid) (i := i) (sh := sh) (c := c) (e := e) (a := a) (pcv := none) hg
  have hp : (g.after' s1 sh c e a).pcv = g.pcv := after_keep aside_pcv (fun _ _ _ _ => rfl) _ _
  refine ⟨_, h, ?_⟩
  by_cases hn : c.pos + (encode i).length < c.words.length
  · simp [Group.goOn, hn, after_wait, hp, Nat.not_le.mpr hn]
  · have hc : (none : Option Row).isSome || decide (c.pos + (encode i).length ≥ c.words.length) := by
      simp [Nat.not_lt.mp hn]
    rw [Group.goOn, if_pos hc, if_neg hn]
    refine ⟨retire_wait _ (after_wait _ _), retire_clause _ rfl, ?_⟩
    rw [retire_pcv]
    simp [hp]

theorem allocate_vreg (vs : List Nat) (v n : Nat) (h : n < 32) (g : Group) :
    lane ((g.allocate vs).vreg v) n = lane (g.vreg v) n := by
  unfold Group.allocate
  induction vs generalizing g with
  | nil => rfl
  | cons w vs ih =>
    rw [List.foldl_cons, ih, Group.vreg, setV_find]
    by_cases hw : v = w
    · subst hw
      rw [if_pos rfl, Option.getD_some, lane_mergeRow _ _ _ _ h]
      simp [inMask]
    · rw [if_neg hw]; rfl

/-- A vector register right after an instruction with a counter. -/
theorem counted_vreg {a : OpAct} {v n : Nat} (tick m : Nat) (g : Group) (h : n < 32) (h2 : v ∈ sh.vw ∨ v ∉ sh.lu)
    (h3 : v ∈ sh.vw ∨ v ∉ g.pendFree) : lane ((g.counted tick m sh c e a).vreg v) n = lane (g.vreg v) n := by
  unfold Group.counted Group.settled
  rw [Group.vreg]
  show lane ((Group.freeMarked _ _ _ _).rows.find v |>.getD zeroRow) n = _
  rw [freeMarked_find _ _ h2]
  refine (allocate_vreg _ v n h _).trans ?_
  rw [Group.vreg, Group.issuing]
  show lane (((g.fresh tick).atRegion sh c).rows.find v |>.getD zeroRow) n = _
  rw [atRegion_find (g.fresh tick) c (v := v) (h := h3)]
  rfl

theorem aside_sregs_counted {a : OpAct} (tick m : Nat) (g : Group) : (g.counted tick m sh c e a).sregs = g.sregs := by
  unfold Group.counted Group.withOp
  have key : ∀ (vs : List Nat) (g : Group), (g.allocate vs).sregs = g.sregs := by
    intro vs
    unfold Group.allocate
    induction vs with
    | nil => intro g; rfl
    | cons v vs ih => intro g; rw [List.foldl_cons, ih]; rfl
  show (Group.freeMarked _ _ _ _).sregs = _
  rw [freeMarked_keep (fun g => g.sregs) _ _ _ _ (fun _ _ => rfl) (fun _ _ => rfl)]
  show (Group.allocate _ _).sregs = _
  rw [key]
  exact atRegion_keep (fun g => g.sregs) _ _ (fun _ _ => rfl) (fun _ _ => rfl) (fun _ => rfl) fun _ _ _ => rfl

theorem issuing_ops (tick : Nat) (g : Group) : (Group.issuing tick sh c e g).ops = g.ops.map (Op.clobber tick e) := by
  unfold Group.issuing
  show List.map _ (Group.atRegion _ _ _).ops = _
  rw [atRegion_keep (fun g => g.ops) _ _ (fun _ _ => rfl) (fun _ _ => rfl) (fun _ => rfl) fun _ _ _ => rfl]

theorem clobber_names (tick : Nat) (o : Op) :
    (Op.clobber tick e o).vres.map (·.1) = o.vres.map (·.1) ∧ (Op.clobber tick e o).sres.map (·.1) = o.sres.map (·.1) := by
  unfold Op.clobber
  constructor
  · simp only [List.map_map]
    apply List.map_congr_left
    intro p _
    simp only [Function.comp]
    split <;> rfl
  · simp only [List.map_map]
    apply List.map_congr_left
    intro p _
    simp only [Function.comp]
    split <;> rfl

/-- The operation that a counted instruction leaves under its counter. -/
theorem counted_pending {a : OpAct} {w : State} {b : List Nat} {n : Nat} {p : Option Row} {tick m : Nat}
    (hf : w.groups.find gid = some ((g.counted tick m sh c e a).goOn c n p b)) : Pending w gid g c sh e a := by
  have hops : ((g.counted tick m sh c e a).goOn c n p b).ops = (g.ops.map (Op.clobber tick e)) ++
      [⟨m, sh.dc, sh.opc, sh.sz, (e.clobbered tick (g.ops.map (Op.clobber tick e))).vw,
        (e.clobbered tick (g.ops.map (Op.clobber tick e))).sw,
        a.divert fun d => (g.ops.map (Op.clobber tick e)).any fun o => o.sres.any fun q => q.1 == d, c.addr⟩] := by
    rw [goOn_ops]
    unfold Group.counted
    have h1 : ∀ g : Group, (Group.settled sh c g).ops = g.ops := by
      intro g
      unfold Group.settled
      show (Group.freeMarked _ _ _ _).ops = _
      rw [freeMarked_keep (fun g => g.ops) _ _ _ _ (fun _ _ => rfl) (fun _ _ => rfl)]
    rw [h1]
    show _ ++ _ = _
    rw [issuing_ops]
    rfl
  have hdcs : ((g.counted tick m sh c e a).goOn c n p b).dcs = g.dcs.put sh.dc (g.dc sh.dc + 1) := by
    rw [goOn_dcs]
    unfold Group.counted
    have h1 : ∀ g : Group, (Group.settled sh c g).dcs = g.dcs := by
      intro g
      unfold Group.settled
      show (Group.freeMarked _ _ _ _).dcs = _
      rw [freeMarked_keep (fun g => g.dcs) _ _ _ _ (fun _ _ => rfl) (fun _ _ => rfl)]
    rw [h1]
    show Tbl.put (Group.issuing _ _ _ _ _).dcs _ (Group.dc (Group.issuing _ _ _ _ _) _ + 1) = _
    unfold Group.dc
    rw [issuing_keep (p := fun g => g.dcs) aside_dcs]
    rfl
  refine ⟨_, ⟨m, sh.dc, sh.opc, sh.sz, _, _, _, c.addr⟩, hf, (by rw [hops, List.getLast?_concat]), ?_, ?_, ?_, rfl, rfl, rfl, rfl, ?_, ?_, ?_, ?_⟩
  · rw [hops]; simp
  · rw [Group.dc, hdcs, Tbl.find_put, if_pos rfl]; rfl
  · intro k hk; rw [Group.dc, hdcs, Tbl.find_put, if_neg hk]; rfl
  · simp only [Eff.clobbered, List.map_map]
    apply List.map_congr_left
    intro q _
    simp only [Function.comp]
    split <;> rfl
  · simp only [Eff.clobbered, List.map_map]
    apply List.map_congr_left
    intro q _
    simp only [Function.comp]
    split <;> rfl
  · intro hq
    have hv : ∀ o ∈ g.ops.map (Op.clobber tick e), (∀ q ∈ o.vres, q.1 ∉ e.vw.map (·.1)) ∧ ∀ q ∈ o.sres, q.1 ∉ e.sw.map (·.1) := by
      intro o ho
      obtain ⟨o', ho', rfl⟩ := List.mem_map.mp ho
      have hn := clobber_names (e := e) tick o'
      constructor
      · intro q hq1
        have : q.1 ∈ (Op.clobber tick e o').vres.map (·.1) := List.mem_map_of_mem hq1
        rw [hn.1] at this
        obtain ⟨q', hq', h'⟩ := List.mem_map.mp this
        rw [← h']
        exact (hq o' ho').1 q' hq'
      · intro q hq1
        have : q.1 ∈ (Op.clobber tick e o').sres.map (·.1) := List.mem_map_of_mem hq1
        rw [hn.2] at this
        obtain ⟨q', hq', h'⟩ := List.mem_map.mp this
        rw [← h']
        exact (hq o' ho').2 q' hq'
    refine ⟨?_, ?_⟩
    · simp only [Eff.clobbered]
      conv => rhs; rw [← List.map_id e.vw]
      apply List.map_congr_left
      intro q hq1
      rw [if_neg]
      · rfl
      · simp only [List.any_eq_true, not_exists, not_and, beq_iff_eq]
        intro o ho q2 hq2 h3
        exact (hv o ho).1 q2 hq2 (h3 ▸ List.mem_map_of_mem hq1)
    · simp only [Eff.clobbered]
      conv => rhs; rw [← List.map_id e.sw]
      apply List.map_congr_left
      intro q hq1
      rw [if_neg]
      · rfl
      · simp only [List.any_eq_true, not_exists, not_and, beq_iff_eq]
        intro o ho q2 hq2 h3
        exact (hv o ho).2 q2 hq2 (h3 ▸ List.mem_map_of_mem hq1)
  · intro hq
    have : ∀ d, ((g.ops.map (Op.clobber tick e)).any fun o => o.sres.any fun q => q.1 == d) = false := by
      intro d
      simp only [List.any_eq_false, List.any_eq_true, List.mem_map, not_exists, not_and]
      rintro o ⟨o', ho', rfl⟩ q hq1
      have := (clobber_names (e := e) tick o').2
      rw [hq o' ho'] at this
      simp only [List.map_nil, List.map_eq_nil_iff] at this
      rw [this] at hq1
      cases hq1
    cases a <;> simp only [OpAct.divert]
    rw [if_neg]
    rw [this]
    decide

/-- Registers that an instruction without a counter writes, each once. -/
theorem written_all (tick : Nat) (g : Group) (hn : (e.vw.map (·.1)).Nodup) (hv : ∀ v ∈ e.vw.map (·.1), v ∈ sh.vw) :
    ∀ p ∈ e.vw, (g.written tick sh c e).vreg p.1 = mergeRow p.2.2 (g.vreg p.1) p.2.1 := by
  intro p hp
  obtain ⟨as, bs, he⟩ := List.append_of_mem hp
  have hn' := hn
  rw [he] at hn'
  simp only [List.map_append, List.map_cons, List.nodup_append, List.nodup_cons] at hn'
  obtain ⟨-, ⟨h2, -⟩, h3⟩ := hn'
  exact written_vreg tick g p.1 p.2.1 p.2.2 as bs he
    (fun h => h3 _ h _ List.mem_cons_self rfl) h2 (hv _ (List.mem_map_of_mem hp))

theorem written_scalars (tick : Nat) (g : Group) (hn : (e.sw.map (·.1)).Nodup) :
    ∀ p ∈ e.sw, (g.written tick sh c e).sreg p.1 = p.2 := by
  intro p hp
  obtain ⟨as, bs, he⟩ := List.append_of_mem hp
  rw [he] at hn
  simp only [List.map_append, List.map_cons, List.nodup_append, List.nodup_cons] at hn
  rw [Group.sreg, written_sregs, he, List.foldl_append, List.foldl_cons, foldl_setS_find _ _ hn.2.1.1, setS_find, if_pos rfl]
  rfl

/-- An instruction that is done, with or without a counter: what it leaves. -/
theorem finish_finished {a : OpAct} (hg : s1.groups.find gid = some g)
    (hn : (e.vw.map (·.1)).Nodup) (hm : (e.sw.map (·.1)).Nodup)
    (hv : ∀ v ∈ e.vw.map (·.1), v ∈ sh.vw) (hs : ∀ n ∈ e.sw.map (·.1), n ∈ sh.sw) :
    Finished s1 (s1.finish gid i sh c e a none) gid g c sh (encode i).length e a := by
  obtain ⟨b, h⟩ := find_after (s1 := s1) (gid := gid) (i := i) (sh := sh) (c := c) (e := e) (a := a) (pcv := none) hg
  refine ⟨finish_past' hg, ?_, ?_, ?_, ?_, ?_, ?_, ?_, ?_⟩
  · by_cases hd : sh.dc = 6
    · exact finish_outside hd
    · exact counted_outside hd
  · by_cases hd : sh.dc = 6
    · exact finish_cores hd
    · exact counted_cores hd
  · by_cases hd : sh.dc = 6
    · exact finish_others hd
    · exact counted_others hd
  · intro v h1 h2 h3 n hn'
    simp only [State.vregOf, h, Option.map_some, Option.getD_some, Group.vreg, goOn_rows]
    unfold Group.after'
    split
    · next hd => rw [written_find _ _ (fun h => h1 hd (hv v h)) (.inr h2) (.inr h3)]
    · exact counted_vreg _ _ _ hn' (.inr h2) (.inr h3)
  · intro k h1
    simp only [State.sregOf, h, Option.map_some, Option.getD_some, Group.sreg, goOn_sregs]
    unfold Group.after'
    split
    · next hd => rw [written_sregs, foldl_setS_find _ _ (fun h => h1 hd (hs k h))]
    · rw [aside_sregs_counted]
  · exact ⟨_, goOn_specials h (after_keep aside_aside (fun _ _ _ _ => rfl) _ _)
      fun hc => after_keep (aside_rev hc) (fun _ _ _ _ => rfl) _ _⟩
  · intro hd
    have ha : g.after' s1 sh c e a = g.written s1.tick sh c e := if_pos hd
    refine ⟨fun p hp => ?_, fun p hp => ?_, ?_⟩
    · simp only [State.vregOf, h, Option.map_some, Option.getD_some, Group.vreg, goOn_rows, ha]
      exact written_all _ _ hn hv p hp
    · simp only [State.sregOf, h, Option.map_some, Option.getD_some, Group.sreg, goOn_sregs, ha]
      exact written_scalars _ _ hm p hp
    · rw [h, Option.map_some, goOn_dcs, ha]
      exact congrArg some (written_keep aside_dcs _ _)
  · intro hd
    rw [Group.after', if_neg hd] at h
    exact counted_pending h

end Sys2Proof.Machine
end

