-- ==== Sys2Proof/Laws/Memory.lean ====
section
/-! SUPPORT. Memory: reading after writing, and that every operation which writes memory keeps its canonical form. -/

namespace Sys2Proof.Machine

open Sys2Proof

/-! ## Bytes -/

theorem Mem.wfFrom_mono {m : List Host.Cell} {a b : Nat} (h : Mem.wfFrom b m = true) (hab : a ≤ b) :
    Mem.wfFrom a m = true := by
  cases m with
  | nil => rfl
  | cons p t =>
    simp only [Mem.wfFrom, Bool.and_eq_true, decide_eq_true_eq] at h ⊢
    exact ⟨⟨by omega, h.1.2⟩, h.2⟩

theorem Mem.wfFrom_set {m : List Host.Cell} {n : Nat} (a : Nat) (b : Byte) (h : Mem.wfFrom n m = true) (ha : n ≤ a) :
    Mem.wfFrom n (Mem.set m a b) = true := by
  induction m generalizing n with
  | nil =>
    unfold Mem.set
    split
    · rfl
    · next hb => simp [Mem.wfFrom, ha, hb]
  | cons p t ih =>
    obtain ⟨k, v⟩ := p
    simp only [Mem.wfFrom, Bool.and_eq_true, decide_eq_true_eq] at h
    unfold Mem.set
    split
    · split
      · simp [Mem.wfFrom, h.1.1, h.1.2, h.2]
      · next hlt hb => simp [Mem.wfFrom, ha, hb, h.1.2, h.2]; omega
    · split
      · split
        · exact Mem.wfFrom_mono h.2 (by omega)
        · next h1 h2 hb => subst h2; simp [Mem.wfFrom, ha, hb, h.2]
      · simp only [Mem.wfFrom, Bool.and_eq_true, decide_eq_true_eq]
        exact ⟨h.1, ih h.2 (by omega)⟩

/-- Writing a byte keeps the canonical form. -/
theorem Mem.wf_set {m : List Host.Cell} (a : Nat) (b : Byte) (h : Memory.wf m = true) :
    Memory.wf (Mem.set m a b) = true := Mem.wfFrom_set a b h (Nat.zero_le a)

/-- Writing bytes keeps the canonical form. -/
theorem Mem.wf_setBytes {m : List Host.Cell} (a : Nat) (bs : List Byte) (h : Memory.wf m = true) :
    Memory.wf (Mem.setBytes m a bs) = true := by
  induction bs generalizing m a with
  | nil => exact h
  | cons b t ih => exact ih _ (Mem.wf_set a b h)

/-- A byte outside a write keeps its value, whatever the list. -/
theorem Mem.get_set_ne (m : List Host.Cell) {a x : Nat} (b : Byte) (h : x ≠ a) : Mem.get (Mem.set m a b) x = Mem.get m x := by
  induction m with
  | nil => unfold Mem.set; split <;> simp [Mem.get, Ne.symm h]
  | cons p t ih =>
    obtain ⟨k, v⟩ := p
    unfold Mem.set
    split
    · split
      · rfl
      · simp [Mem.get, Ne.symm h]
    · split
      · next h2 => subst h2; split <;> simp [Mem.get, Ne.symm h]
      · simp only [Mem.get, ih]

theorem Mem.get_below {m : List Host.Cell} {n a : Nat} (h : Mem.wfFrom n m = true) (ha : a < n) : Mem.get m a = blankByte := by
  induction m generalizing n with
  | nil => rfl
  | cons p t ih =>
    obtain ⟨k, v⟩ := p
    simp only [Mem.wfFrom, Bool.and_eq_true, decide_eq_true_eq] at h
    have hk : k ≠ a := by omega
    simp only [Mem.get, hk, if_false]
    exact ih h.2 (by omega)

/-- A byte reads as it was written. -/
theorem Mem.get_set_self {m : List Host.Cell} {n : Nat} (a : Nat) (b : Byte) (h : Mem.wfFrom n m = true) :
    Mem.get (Mem.set m a b) a = b := by
  induction m generalizing n with
  | nil => unfold Mem.set; split <;> simp_all [Mem.get]
  | cons p t ih =>
    obtain ⟨k, v⟩ := p
    have h' := h
    simp only [Mem.wfFrom, Bool.and_eq_true, decide_eq_true_eq] at h
    unfold Mem.set
    split
    · next hlt =>
      split
      · next hb => subst hb; have hk : k ≠ a := by omega
                   simp only [Mem.get, hk, if_false]; exact Mem.get_below h.2 (by omega)
      · simp [Mem.get]
    · split
      · next h2 =>
        split
        · next hb => subst hb; exact Mem.get_below h.2 (by omega)
        · simp [Mem.get]
      · next h2 => simp only [Mem.get, Ne.symm h2, if_false]; exact ih h.2

/-- Bytes outside those written keep their values. -/
theorem Mem.get_setBytes_out (m : List Host.Cell) {a x : Nat} (bs : List Byte) (h : x < a ∨ a + bs.length ≤ x) :
    Mem.get (Mem.setBytes m a bs) x = Mem.get m x := by
  induction bs generalizing m a with
  | nil => rfl
  | cons b t ih =>
    simp only [List.length_cons] at h
    simp only [Mem.setBytes]
    rw [ih _ (by omega), Mem.get_set_ne _ _ (by omega)]

/-- Bytes written read as written. -/
theorem Mem.get_setBytes_in {m : List Host.Cell} (a : Nat) (bs : List Byte) (j : Nat) (h : Memory.wf m = true)
    (hj : j < bs.length) : Mem.get (Mem.setBytes m a bs) (a + j) = bs[j] := by
  induction bs generalizing m a j with
  | nil => simp at hj
  | cons b t ih =>
    simp only [Mem.setBytes]
    cases j with
    | zero =>
      rw [Nat.add_zero, Mem.get_setBytes_out _ _ (by omega)]
      exact Mem.get_set_self a b h
    | succ j =>
      have := ih (a + 1) j (Mem.wf_set a b h) (by simpa using hj)
      rw [show a + (j + 1) = a + 1 + j by omega]
      simpa using this

theorem Mem.wf_foldl {α : Type} (f : List Host.Cell → α → List Host.Cell)
    (hf : ∀ m x, Memory.wf m = true → Memory.wf (f m x) = true) (l : List α) {m : List Host.Cell}
    (h : Memory.wf m = true) : Memory.wf (l.foldl f m) = true := by
  induction l generalizing m with
  | nil => exact h
  | cons x l ih => exact ih (hf m x h)

/-! ## States -/

/-- The memory of a state has its canonical form. -/
def State.MemWf (s : State) : Prop := Memory.wf s.mem = true

theorem reset_memWf : State.reset.MemWf := rfl

variable {s : State}

/-- An operation on states that leaves memory or keeps its form keeps it over a list. -/
theorem State.memWf_foldl {α : Type} {f : State → α → State} (hf : ∀ s x, s.MemWf → (f s x).MemWf) (l : List α)
    (h : s.MemWf) : (l.foldl f s).MemWf := by
  induction l generalizing s with
  | nil => exact h
  | cons x l ih => exact ih (hf s x h)

theorem State.memWf_of_eq {t : State} (h : s.MemWf) (e : t.mem = s.mem) : t.MemWf := by
  unfold State.MemWf; rw [e]; exact h

theorem State.memWf_setLineMap (key : Nat) (m : LineMap) (h : s.MemWf) : (s.setLineMap key m).MemWf :=
  Mem.wf_setBytes _ _ h

theorem State.memWf_clear (secs : List Nat) (f : Nat → Nat) (h : s.MemWf) :
    (secs.foldl (fun (s : State) k => s.clearPoison (f k)) s).MemWf := 
  State.memWf_foldl (f := fun (s : State) k => s.clearPoison (f k)) (fun _ _ hs => hs) _ h

theorem State.memWf_ite {p : Prop} [Decidable p] {a b : State} (ha : a.MemWf) (hb : b.MemWf) :
    (if p then a else b).MemWf := by split <;> assumption

theorem State.memWf_setMem (a : Nat) (bs : List Byte) (h : s.MemWf) : State.MemWf { s with mem := Mem.setBytes s.mem a bs } :=
  Mem.wf_setBytes _ _ h

theorem State.memWf_dropHome (key : Nat) (h : s.MemWf) : (s.dropHome key).MemWf := by
  unfold State.dropHome
  dsimp only
  split
  · exact State.memWf_clear _ _ (State.memWf_setMem _ _ (State.memWf_of_eq h (State.modTower_mem ..)))
  · exact State.memWf_of_eq h (State.modTower_mem ..)

@[simp] theorem State.recycle_mem (t c : Nat) : (s.recycle t c).mem = s.mem := rfl

@[simp] theorem State.countChunk_mem (t c a b : Nat) : (s.countChunk t c a b).mem = s.mem := rfl

theorem State.memWf_closeChunk (t c : Nat) (h : s.MemWf) : (s.closeChunk t c).MemWf := by
  unfold State.closeChunk; split <;> exact h

theorem State.memWf_takeChunk {t c : Nat} {s' : State} (h : s.MemWf) (e : s.takeChunk t = some (c, s')) : s'.MemWf := by
  unfold State.takeChunk at e
  split at e
  · cases e
  · simp only [Option.some.injEq, Prod.mk.injEq] at e
    obtain ⟨-, rfl⟩ := e
    split <;> exact h

theorem State.memWf_takeChunks {t : Nat} (n : Nat) {s : State} {l : List Nat} {s' : State} (h : s.MemWf)
    (e : s.takeChunks t n = some (l, s')) : s'.MemWf := by
  induction n generalizing s l s' with
  | zero => simp only [State.takeChunks, Option.some.injEq, Prod.mk.injEq] at e; obtain ⟨-, rfl⟩ := e; exact h
  | succ n ih =>
    simp only [State.takeChunks, Option.bind_eq_some_iff, Option.map_eq_some_iff] at e
    obtain ⟨p, hp, q, hq, e⟩ := e
    cases e
    exact ih (State.memWf_takeChunk h hp) hq

theorem State.memWf_placeSectors {t sl n av c o : Nat} {s' : State} (h : s.MemWf)
    (e : s.placeSectors t sl n av = some (c, o, s')) : s'.MemWf := by
  simp only [State.placeSectors, Option.bind_eq_some_iff, Option.map_eq_some_iff, Prod.mk.injEq] at e
  obtain ⟨s1, h1, p, -, -, -, rfl⟩ := e
  have hs1 : s1.MemWf := by
    have key : ∀ (p : Prop) [Decidable p] (x y : Option State), (if p then x else y) = some s1 → x = some s1 ∨ y = some s1 := by
      intro p _ x y; split <;> simp_all
    rcases key _ _ _ h1 with h1 | h1
    · cases h1; exact h
    · simp only [Option.map_eq_some_iff] at h1
      obtain ⟨⟨c', s2⟩, h2, rfl⟩ := h1
      refine State.memWf_of_eq (s := s2) (State.memWf_takeChunk (State.memWf_closeChunk _ _ h) h2) ?_
      dsimp only
      rw [State.modTower_mem]
  exact hs1

theorem State.memWf_marks (l : List Nat) (p : Nat → Bool) (f : Nat → Nat) (h : s.MemWf) :
    (l.foldl (fun (s : State) k => if p k = true then s.addPoison (f k) else s.clearPoison (f k)) s).MemWf :=
  State.memWf_foldl (fun s k hk => by split <;> exact hk) _ h

theorem State.memWf_writeBackWindow (key : Nat) (h : s.MemWf) : (s.writeBackWindow key).MemWf := by
  unfold State.writeBackWindow
  dsimp only
  cases s.l2 key with
  | none => exact h
  | some l =>
    dsimp only
    refine State.memWf_ite h (State.memWf_ite ?_ (State.memWf_ite ?_ ?_))
    · rw [State.MemWf, State.setL2_mem, State.countChunk_mem]
      exact State.memWf_setLineMap _ _ h
    · rw [State.MemWf, State.setL2_mem, State.countChunk_mem]
      exact State.memWf_setLineMap _ _ (State.memWf_marks _ (fun k => _ && decide _) _ (State.memWf_setMem _ _ h))
    · cases hp : s.placeSectors _ _ _ _ with
      | none => exact h
      | some p =>
        dsimp only
        rw [State.MemWf, State.setL2_mem, State.countChunk_mem, State.countChunk_mem]
        exact State.memWf_setLineMap _ _ (State.memWf_marks _ (fun k => _ && decide _) _
          (State.memWf_setMem _ _ (State.memWf_placeSectors h hp)))

theorem State.memWf_writeBackHome (key : Nat) (h : s.MemWf) : (s.writeBackHome key).MemWf := by
  unfold State.writeBackHome
  split
  · exact State.memWf_writeBackWindow key h
  · split <;> exact h

/-! ## Lines that leave their slices, and room for others -/

theorem State.memWf_evictHome (key : Nat) (h : s.MemWf) : (s.evictHome key).MemWf := by
  unfold State.evictHome
  dsimp only
  split
  · split
    · exact State.memWf_writeBackHome key h
    · exact State.memWf_dropHome key (State.memWf_writeBackHome key h)
  · exact State.memWf_writeBackHome key h

theorem State.memWf_makeRoom (key : Nat) (h : s.MemWf) : (s.makeRoom key).MemWf := by
  unfold State.makeRoom
  dsimp only
  split
  · exact h
  · split
    · exact State.memWf_evictHome _ h
    · exact h

theorem State.memWf_fillWindow (key : Nat) (h : s.MemWf) : (s.fillWindow key).MemWf := by
  unfold State.fillWindow
  split
  · exact h
  · refine State.memWf_of_eq (s := List.foldl _ _ _) ?_ (State.setL2_mem ..)
    refine State.memWf_foldl (fun s j hs => ?_) _ (Mem.wf_setBytes _ _ (State.memWf_makeRoom key h))
    split
    · exact hs
    · exact hs

theorem State.memWf_touchHome (pa : Nat) (h : s.MemWf) : (s.touchHome pa).MemWf := by
  unfold State.touchHome
  dsimp only
  split
  · exact State.memWf_fillWindow _ h
  · split
    · exact h
    · exact State.memWf_of_eq (State.memWf_makeRoom _ h) (State.setL2_mem ..)

theorem State.memWf_homeRead (pa n : Nat) (h : s.MemWf) : (s.homeRead pa n).2.MemWf := State.memWf_touchHome pa h

theorem State.memWf_homeMerge (pa : Nat) (d : BitVec 1024) (m : BitVec 128) (h : s.MemWf) : (s.homeMerge pa d m).MemWf := by
  unfold State.homeMerge
  dsimp only
  split
  · exact h
  · show Memory.wf _ = true
    simp only [State.dropClean]
    split
    all_goals
      try simp only [State.setL2_mem, State.setFrame_mem]
      refine State.memWf_foldl (fun s j hs => ?_) _ (Mem.wf_foldl _ (fun m x hm => ?_) _ (State.memWf_touchHome pa h))
      · split <;> exact hs
      · split
        · exact Mem.wf_set _ _ hm
        · exact hm

theorem State.memWf_homeWrite (pa : Nat) (bs : List Byte) (h : s.MemWf) : (s.homeWrite pa bs).MemWf :=
  State.memWf_homeMerge _ _ _ h

theorem State.memWf_noteAtomic (pa : Nat) (h : s.MemWf) : (s.noteAtomic pa).MemWf := by
  unfold State.noteAtomic
  dsimp only
  split <;> split
  · exact Mem.wf_setBytes _ _ h
  · exact Mem.wf_setBytes _ _ h
  · exact h
  · exact h

/-! ## Bytes that are given to home -/

theorem State.memWf_addPoison (n : Nat) (h : s.MemWf) : (s.addPoison n).MemWf := h

theorem State.memWf_giveHome (w : HeldWrite) (h : s.MemWf) : (s.giveHome w).MemWf := by
  unfold State.giveHome
  split
  · refine State.memWf_foldl (fun s j hs => ?_) _ (State.memWf_homeMerge _ _ _ h)
    split <;> exact hs
  · exact h

theorem State.memWf_toHome (n : Nat) (l : Line) (h : s.MemWf) : (s.toHome n l).MemWf := State.memWf_giveHome _ h

theorem State.memWf_putHome (pa : Nat) (bs : List Byte) (h : s.MemWf) : (s.putHome pa bs).MemWf := State.memWf_toHome _ _ h

theorem State.memWf_drainHeld (h : s.MemWf) : s.drainHeld.MemWf :=
  State.memWf_foldl (fun _ w hs => State.memWf_giveHome w hs) _ (State.memWf_of_eq h rfl)

theorem State.memWf_putPacked (map k c o : Nat) (p : Packed) (h : s.MemWf) : (s.putPacked map k c o p).MemWf := by
  unfold State.putPacked
  refine Mem.wf_setBytes _ _ (State.memWf_foldl (fun s j hs => ?_) _ (Mem.wf_setBytes _ _ h))
  split <;> exact hs

theorem State.memWf_drainFaults (c : Nat) (h : s.MemWf) : (s.drainFaults c).MemWf := by
  unfold State.drainFaults
  dsimp only
  split
  · exact h
  · refine State.memWf_foldl (fun s f hs => ?_) _ h
    split
    · split
      · exact hs
      · exact State.memWf_putHome _ _ hs
    · exact hs

end Sys2Proof.Machine
end

