-- ==== Sys2Proof/Laws/PerInstr.lean ====
section
/-! SUPPORT. One lemma per constructor about its encoding: an event has no words; an instruction has one to three, and the
first carries the opcode of its row in its top byte (R59, R70 to R73). -/

namespace Sys2Proof

theorem VR.word_top (op : BitVec 8) (f : VR) : fieldOf (f.word op) 24 8 = op := by
  unfold fieldOf VR.word
  ext k hk
  simp only [BitVec.getElem_extractLsb', BitVec.getLsbD_append]
  rw [if_neg (by omega), if_neg (by omega), if_neg (by omega), if_neg (by omega), if_neg (by omega), if_neg (by omega)]
  rw [← BitVec.getLsbD_eq_getElem hk]
  exact congrArg op.getLsbD (by omega)

theorem SR.word_top (op : BitVec 8) (f : SR) : fieldOf (f.word op) 24 8 = op := by
  unfold fieldOf SR.word
  ext k hk
  simp only [BitVec.getElem_extractLsb', BitVec.getLsbD_append]
  rw [if_neg (by omega), if_neg (by omega), if_neg (by omega), if_neg (by omega)]
  rw [← BitVec.getLsbD_eq_getElem hk]
  exact congrArg op.getLsbD (by omega)

theorem MX.word_top (op : BitVec 8) (f : MX) : fieldOf (f.word op) 24 8 = op := by
  unfold fieldOf MX.word
  ext k hk
  simp only [BitVec.getElem_extractLsb', BitVec.getLsbD_append]
  rw [if_neg (by omega), if_neg (by omega), if_neg (by omega), if_neg (by omega), if_neg (by omega)]
  rw [← BitVec.getLsbD_eq_getElem hk]
  exact congrArg op.getLsbD (by omega)

theorem CXR.word_top (op : BitVec 8) (f : CXR) : fieldOf (f.word op) 24 8 = op := by
  unfold fieldOf CXR.word
  ext k hk
  simp only [BitVec.getElem_extractLsb', BitVec.getLsbD_append]
  rw [if_neg (by omega), if_neg (by omega), if_neg (by omega)]
  rw [← BitVec.getLsbD_eq_getElem hk]
  exact congrArg op.getLsbD (by omega)

theorem CXN.word_top (op : BitVec 8) (x : BitVec 24) : fieldOf (op ++ x) 24 8 = op := by
  unfold fieldOf
  ext k hk
  simp only [BitVec.getElem_extractLsb', BitVec.getLsbD_append]
  rw [if_neg (by omega)]
  rw [← BitVec.getLsbD_eq_getElem hk]
  exact congrArg op.getLsbD (by omega)

theorem CXB.word_top (op : BitVec 8) (r : BitVec 7) (c : BitVec 2) (o : BitVec 15) :
    fieldOf (op ++ r ++ c ++ o) 24 8 = op := by
  unfold fieldOf
  ext k hk
  simp only [BitVec.getElem_extractLsb', BitVec.getLsbD_append]
  rw [if_neg (by omega), if_neg (by omega), if_neg (by omega)]
  rw [← BitVec.getLsbD_eq_getElem hk]
  exact congrArg op.getLsbD (by omega)

theorem CXL.word_top (op : BitVec 8) (l : BitVec 6) (o : BitVec 18) : fieldOf (op ++ l ++ o) 24 8 = op := by
  unfold fieldOf
  ext k hk
  simp only [BitVec.getElem_extractLsb', BitVec.getLsbD_append]
  rw [if_neg (by omega), if_neg (by omega)]
  rw [← BitVec.getLsbD_eq_getElem hk]
  exact congrArg op.getLsbD (by omega)

theorem lit_length (l : Option Word) : l.toList.length ≤ 1 := by cases l <;> simp

namespace Laws

/-- The words of an instruction: none for an event, else one to three with the opcode in the first. -/
def Encoding.Statement (i : Instr) : Prop :=
  match i.top with
  | none => encode i = []
  | some op => ∃ w ws, encode i = w :: ws ∧ ws.length ≤ 2 ∧ fieldOf w 24 8 = op

theorem Encoding.powerGood : Encoding.Statement .powerGood := rfl
theorem Encoding.reset : Encoding.Statement .reset := rfl
theorem Encoding.bringupStepEnd : Encoding.Statement .bringupStepEnd := rfl
theorem Encoding.bringupStepTimeout : Encoding.Statement .bringupStepTimeout := rfl
theorem Encoding.controlDieError : Encoding.Statement .controlDieError := rfl
theorem Encoding.partLost : Encoding.Statement .partLost := rfl
theorem Encoding.serviceActionComplete : Encoding.Statement .serviceActionComplete := rfl
theorem Encoding.channelDieRetire : Encoding.Statement .channelDieRetire := rfl
theorem Encoding.dieRebuild : Encoding.Statement .dieRebuild := rfl
theorem Encoding.dieRetired : Encoding.Statement .dieRetired := rfl
theorem Encoding.retirecntSet : Encoding.Statement .retirecntSet := rfl
theorem Encoding.busLaneRecalibrate : Encoding.Statement .busLaneRecalibrate := rfl
theorem Encoding.sliceRetire : Encoding.Statement .sliceRetire := rfl
theorem Encoding.sliceForward : Encoding.Statement .sliceForward := rfl
theorem Encoding.sliceHandover : Encoding.Statement .sliceHandover := rfl
theorem Encoding.sliceOff : Encoding.Statement .sliceOff := rfl
theorem Encoding.tsBankFence : Encoding.Statement .tsBankFence := rfl
theorem Encoding.tsBankRetire : Encoding.Statement .tsBankRetire := rfl
theorem Encoding.hbmStackRetire : Encoding.Statement .hbmStackRetire := rfl
theorem Encoding.firmwareUpdate : Encoding.Statement .firmwareUpdate := rfl
theorem Encoding.attestationRequest : Encoding.Statement .attestationRequest := rfl
theorem Encoding.managementWindowRead : Encoding.Statement .managementWindowRead := rfl
theorem Encoding.profileWrite : Encoding.Statement .profileWrite := rfl
theorem Encoding.contextCreate : Encoding.Statement .contextCreate := rfl
theorem Encoding.contextDestroy : Encoding.Statement .contextDestroy := rfl
theorem Encoding.contextReleased : Encoding.Statement .contextReleased := rfl
theorem Encoding.ctxcfgSet : Encoding.Statement .ctxcfgSet := rfl
theorem Encoding.parkTimeout : Encoding.Statement .parkTimeout := rfl
theorem Encoding.parkRenewal : Encoding.Statement .parkRenewal := rfl
theorem Encoding.queueCreate : Encoding.Statement .queueCreate := rfl
theorem Encoding.queueActivate : Encoding.Statement .queueActivate := rfl
theorem Encoding.queueSuspend : Encoding.Statement .queueSuspend := rfl
theorem Encoding.queueResume : Encoding.Statement .queueResume := rfl
theorem Encoding.queueDestroy : Encoding.Statement .queueDestroy := rfl
theorem Encoding.tailObserve : Encoding.Statement .tailObserve := rfl
theorem Encoding.recordRead : Encoding.Statement .recordRead := rfl
theorem Encoding.admission : Encoding.Statement .admission := rfl
theorem Encoding.dependenceMet : Encoding.Statement .dependenceMet := rfl
theorem Encoding.dispatchTeam : Encoding.Statement .dispatchTeam := rfl
theorem Encoding.teamSave : Encoding.Statement .teamSave := rfl
theorem Encoding.deferralTimeout : Encoding.Statement .deferralTimeout := rfl
theorem Encoding.backpressureTimeout : Encoding.Statement .backpressureTimeout := rfl
theorem Encoding.haltResume : Encoding.Statement .haltResume := rfl
theorem Encoding.heldTeamCancel : Encoding.Statement .heldTeamCancel := rfl
theorem Encoding.cancellationObserved : Encoding.Statement .cancellationObserved := rfl
theorem Encoding.launchDrained : Encoding.Statement .launchDrained := rfl
theorem Encoding.clauseFetch : Encoding.Statement .clauseFetch := rfl
theorem Encoding.haltArrival : Encoding.Statement .haltArrival := rfl
theorem Encoding.sstepTrap : Encoding.Statement .sstepTrap := rfl
theorem Encoding.rowGrant : Encoding.Statement .rowGrant := rfl
theorem Encoding.rowSpill : Encoding.Statement .rowSpill := rfl
theorem Encoding.rowDrowsy : Encoding.Statement .rowDrowsy := rfl
theorem Encoding.groupRelease : Encoding.Statement .groupRelease := rfl
theorem Encoding.countedOpComplete : Encoding.Statement .countedOpComplete := rfl
theorem Encoding.shadowMismatch : Encoding.Statement .shadowMismatch := rfl
theorem Encoding.shadowLagTimeout : Encoding.Statement .shadowLagTimeout := rfl
theorem Encoding.sleepExpiry : Encoding.Statement .sleepExpiry := rfl
theorem Encoding.portEntryArrival : Encoding.Statement .portEntryArrival := rfl
theorem Encoding.portWaitMet : Encoding.Statement .portWaitMet := rfl
theorem Encoding.portTimeout : Encoding.Statement .portTimeout := rfl
theorem Encoding.barrierRelease : Encoding.Statement .barrierRelease := rfl
theorem Encoding.treduceRelease : Encoding.Statement .treduceRelease := rfl
theorem Encoding.bcwaitMet : Encoding.Statement .bcwaitMet := rfl
theorem Encoding.lidGrant : Encoding.Statement .lidGrant := rfl
theorem Encoding.signalObserved : Encoding.Statement .signalObserved := rfl
theorem Encoding.stageQueueWaitMet : Encoding.Statement .stageQueueWaitMet := rfl
theorem Encoding.slotLanded : Encoding.Statement .slotLanded := rfl
theorem Encoding.copyComplete : Encoding.Statement .copyComplete := rfl
theorem Encoding.retnPublish : Encoding.Statement .retnPublish := rfl
theorem Encoding.mirrorAckTimeout : Encoding.Statement .mirrorAckTimeout := rfl
theorem Encoding.faultRingSet : Encoding.Statement .faultRingSet := rfl
theorem Encoding.resolve : Encoding.Statement .resolve := rfl
theorem Encoding.recode : Encoding.Statement .recode := rfl
theorem Encoding.migrate : Encoding.Statement .migrate := rfl
theorem Encoding.release : Encoding.Statement .release := rfl
theorem Encoding.l2EvictionWriteback : Encoding.Statement .l2EvictionWriteback := rfl
theorem Encoding.chunkListFill : Encoding.Statement .chunkListFill := rfl
theorem Encoding.chunkListDrain : Encoding.Statement .chunkListDrain := rfl
theorem Encoding.reserveSet : Encoding.Statement .reserveSet := rfl
theorem Encoding.chunkReserveReplay : Encoding.Statement .chunkReserveReplay := rfl
theorem Encoding.hotidleSet : Encoding.Statement .hotidleSet := rfl
theorem Encoding.windowTableWrite : Encoding.Statement .windowTableWrite := rfl
theorem Encoding.inboundTableWrite : Encoding.Statement .inboundTableWrite := rfl
theorem Encoding.inboundRequest : Encoding.Statement .inboundRequest := rfl
theorem Encoding.inboundMessageRequest : Encoding.Statement .inboundMessageRequest := rfl
theorem Encoding.peerFaultResponse : Encoding.Statement .peerFaultResponse := rfl
theorem Encoding.peerTimeout : Encoding.Statement .peerTimeout := rfl
theorem Encoding.portTrained : Encoding.Statement .portTrained := rfl
theorem Encoding.trainingTimeout : Encoding.Statement .trainingTimeout := rfl
theorem Encoding.linkErrorRetrain : Encoding.Statement .linkErrorRetrain := rfl
theorem Encoding.retrainDone : Encoding.Statement .retrainDone := rfl
theorem Encoding.retrainTimeout : Encoding.Statement .retrainTimeout := rfl
theorem Encoding.linkFence : Encoding.Statement .linkFence := rfl
theorem Encoding.linkReturn : Encoding.Statement .linkReturn := rfl
theorem Encoding.linkRetire : Encoding.Statement .linkRetire := rfl
theorem Encoding.busRetrainDue : Encoding.Statement .busRetrainDue := rfl
theorem Encoding.busRetrainStart : Encoding.Statement .busRetrainStart := rfl
theorem Encoding.busRetrainDone : Encoding.Statement .busRetrainDone := rfl
theorem Encoding.burstRetry : Encoding.Statement .burstRetry := rfl
theorem Encoding.laneRepairStart : Encoding.Statement .laneRepairStart := rfl
theorem Encoding.quiesceDone : Encoding.Statement .quiesceDone := rfl
theorem Encoding.repairDone : Encoding.Statement .repairDone := rfl
theorem Encoding.patrolScrub : Encoding.Statement .patrolScrub := rfl
theorem Encoding.tokenRegenerate : Encoding.Statement .tokenRegenerate := rfl
theorem Encoding.heaterTrim : Encoding.Statement .heaterTrim := rfl
theorem Encoding.debugRegisterRead : Encoding.Statement .debugRegisterRead := rfl
theorem Encoding.taskQueueCreate : Encoding.Statement .taskQueueCreate := rfl
theorem Encoding.taskQueueDestroy : Encoding.Statement .taskQueueDestroy := rfl
theorem Encoding.taskWindowEntry : Encoding.Statement .taskWindowEntry := rfl
theorem Encoding.taskReady : Encoding.Statement .taskReady := rfl
theorem Encoding.taskStart : Encoding.Statement .taskStart := rfl
theorem Encoding.note : Encoding.Statement .note := rfl
theorem Encoding.zero : Encoding.Statement .zero := rfl
theorem Encoding.loadb : Encoding.Statement .loadb := rfl
theorem Encoding.mma : Encoding.Statement .mma := rfl
theorem Encoding.mmag : Encoding.Statement .mmag := rfl
theorem Encoding.drain : Encoding.Statement .drain := rfl
theorem Encoding.accld : Encoding.Statement .accld := rfl
theorem Encoding.accst : Encoding.Statement .accst := rfl
theorem Encoding.taskEnd : Encoding.Statement .taskEnd := rfl
theorem Encoding.tensorCreate : Encoding.Statement .tensorCreate := rfl
theorem Encoding.tensorDestroy : Encoding.Statement .tensorDestroy := rfl
theorem Encoding.decodeSessionOpen : Encoding.Statement .decodeSessionOpen := rfl
theorem Encoding.decodeSessionClose : Encoding.Statement .decodeSessionClose := rfl
theorem Encoding.iadd (f : VR) : Encoding.Statement (.iadd f) := ⟨_, _, rfl, (lit_length _).trans (by decide), VR.word_top _ _⟩
theorem Encoding.isub (f : VR) : Encoding.Statement (.isub f) := ⟨_, _, rfl, (lit_length _).trans (by decide), VR.word_top _ _⟩
theorem Encoding.imul (f : VR) : Encoding.Statement (.imul f) := ⟨_, _, rfl, (lit_length _).trans (by decide), VR.word_top _ _⟩
theorem Encoding.imulhI (f : VR) : Encoding.Statement (.imulhI f) := ⟨_, _, rfl, (lit_length _).trans (by decide), VR.word_top _ _⟩
theorem Encoding.imulhN (f : VR) : Encoding.Statement (.imulhN f) := ⟨_, _, rfl, (lit_length _).trans (by decide), VR.word_top _ _⟩
theorem Encoding.imad (f : VR) : Encoding.Statement (.imad f) := ⟨_, _, rfl, (lit_length _).trans (by decide), VR.word_top _ _⟩
theorem Encoding.iminI (f : VR) : Encoding.Statement (.iminI f) := ⟨_, _, rfl, (lit_length _).trans (by decide), VR.word_top _ _⟩
theorem Encoding.iminN (f : VR) : Encoding.Statement (.iminN f) := ⟨_, _, rfl, (lit_length _).trans (by decide), VR.word_top _ _⟩
theorem Encoding.imaxI (f : VR) : Encoding.Statement (.imaxI f) := ⟨_, _, rfl, (lit_length _).trans (by decide), VR.word_top _ _⟩
theorem Encoding.imaxN (f : VR) : Encoding.Statement (.imaxN f) := ⟨_, _, rfl, (lit_length _).trans (by decide), VR.word_top _ _⟩
theorem Encoding.iabs (f : VR) : Encoding.Statement (.iabs f) := ⟨_, _, rfl, (lit_length _).trans (by decide), VR.word_top _ _⟩
theorem Encoding.ineg (f : VR) : Encoding.Statement (.ineg f) := ⟨_, _, rfl, (lit_length _).trans (by decide), VR.word_top _ _⟩
theorem Encoding.vand (f : VR) : Encoding.Statement (.vand f) := ⟨_, _, rfl, (lit_length _).trans (by decide), VR.word_top _ _⟩
theorem Encoding.vor (f : VR) : Encoding.Statement (.vor f) := ⟨_, _, rfl, (lit_length _).trans (by decide), VR.word_top _ _⟩
theorem Encoding.vxor (f : VR) : Encoding.Statement (.vxor f) := ⟨_, _, rfl, (lit_length _).trans (by decide), VR.word_top _ _⟩
theorem Encoding.vandn (f : VR) : Encoding.Statement (.vandn f) := ⟨_, _, rfl, (lit_length _).trans (by decide), VR.word_top _ _⟩
theorem Encoding.shl (f : VR) : Encoding.Statement (.shl f) := ⟨_, _, rfl, (lit_length _).trans (by decide), VR.word_top _ _⟩
theorem Encoding.shr (f : VR) : Encoding.Statement (.shr f) := ⟨_, _, rfl, (lit_length _).trans (by decide), VR.word_top _ _⟩
theorem Encoding.sar (f : VR) : Encoding.Statement (.sar f) := ⟨_, _, rfl, (lit_length _).trans (by decide), VR.word_top _ _⟩
theorem Encoding.rol (f : VR) : Encoding.Statement (.rol f) := ⟨_, _, rfl, (lit_length _).trans (by decide), VR.word_top _ _⟩
theorem Encoding.bfeI (f : VR) : Encoding.Statement (.bfeI f) := ⟨_, _, rfl, (lit_length _).trans (by decide), VR.word_top _ _⟩
theorem Encoding.bfeN (f : VR) : Encoding.Statement (.bfeN f) := ⟨_, _, rfl, (lit_length _).trans (by decide), VR.word_top _ _⟩
theorem Encoding.bfi (f : VR) : Encoding.Statement (.bfi f) := ⟨_, _, rfl, (lit_length _).trans (by decide), VR.word_top _ _⟩
theorem Encoding.popc (f : VR) : Encoding.Statement (.popc f) := ⟨_, _, rfl, (lit_length _).trans (by decide), VR.word_top _ _⟩
theorem Encoding.clz (f : VR) : Encoding.Statement (.clz f) := ⟨_, _, rfl, (lit_length _).trans (by decide), VR.word_top _ _⟩
theorem Encoding.brev (f : VR) : Encoding.Statement (.brev f) := ⟨_, _, rfl, (lit_length _).trans (by decide), VR.word_top _ _⟩
theorem Encoding.iceq (f : VR) : Encoding.Statement (.iceq f) := ⟨_, _, rfl, (lit_length _).trans (by decide), VR.word_top _ _⟩
theorem Encoding.icne (f : VR) : Encoding.Statement (.icne f) := ⟨_, _, rfl, (lit_length _).trans (by decide), VR.word_top _ _⟩
theorem Encoding.icltI (f : VR) : Encoding.Statement (.icltI f) := ⟨_, _, rfl, (lit_length _).trans (by decide), VR.word_top _ _⟩
theorem Encoding.icltN (f : VR) : Encoding.Statement (.icltN f) := ⟨_, _, rfl, (lit_length _).trans (by decide), VR.word_top _ _⟩
theorem Encoding.icleI (f : VR) : Encoding.Statement (.icleI f) := ⟨_, _, rfl, (lit_length _).trans (by decide), VR.word_top _ _⟩
theorem Encoding.icleN (f : VR) : Encoding.Statement (.icleN f) := ⟨_, _, rfl, (lit_length _).trans (by decide), VR.word_top _ _⟩
theorem Encoding.sel (f : VR) : Encoding.Statement (.sel f) := ⟨_, _, rfl, (lit_length _).trans (by decide), VR.word_top _ _⟩
theorem Encoding.vmov (f : VR) : Encoding.Statement (.vmov f) := ⟨_, _, rfl, (lit_length _).trans (by decide), VR.word_top _ _⟩
theorem Encoding.fadd (f : VX) : Encoding.Statement (.fadd f) := ⟨_, _, rfl, Nat.succ_le_succ (lit_length _), VR.word_top _ _⟩
theorem Encoding.fsub (f : VX) : Encoding.Statement (.fsub f) := ⟨_, _, rfl, Nat.succ_le_succ (lit_length _), VR.word_top _ _⟩
theorem Encoding.fmul (f : VX) : Encoding.Statement (.fmul f) := ⟨_, _, rfl, Nat.succ_le_succ (lit_length _), VR.word_top _ _⟩
theorem Encoding.ffma (f : VX) : Encoding.Statement (.ffma f) := ⟨_, _, rfl, Nat.succ_le_succ (lit_length _), VR.word_top _ _⟩
theorem Encoding.fmin (f : VR) : Encoding.Statement (.fmin f) := ⟨_, _, rfl, (lit_length _).trans (by decide), VR.word_top _ _⟩
theorem Encoding.fmax (f : VR) : Encoding.Statement (.fmax f) := ⟨_, _, rfl, (lit_length _).trans (by decide), VR.word_top _ _⟩
theorem Encoding.fabs (f : VR) : Encoding.Statement (.fabs f) := ⟨_, _, rfl, (lit_length _).trans (by decide), VR.word_top _ _⟩
theorem Encoding.fneg (f : VR) : Encoding.Statement (.fneg f) := ⟨_, _, rfl, (lit_length _).trans (by decide), VR.word_top _ _⟩
theorem Encoding.fceq (f : VR) : Encoding.Statement (.fceq f) := ⟨_, _, rfl, (lit_length _).trans (by decide), VR.word_top _ _⟩
theorem Encoding.fclt (f : VR) : Encoding.Statement (.fclt f) := ⟨_, _, rfl, (lit_length _).trans (by decide), VR.word_top _ _⟩
theorem Encoding.fcle (f : VR) : Encoding.Statement (.fcle f) := ⟨_, _, rfl, (lit_length _).trans (by decide), VR.word_top _ _⟩
theorem Encoding.fcun (f : VR) : Encoding.Statement (.fcun f) := ⟨_, _, rfl, (lit_length _).trans (by decide), VR.word_top _ _⟩
theorem Encoding.frcp (f : VR) : Encoding.Statement (.frcp f) := ⟨_, _, rfl, (lit_length _).trans (by decide), VR.word_top _ _⟩
theorem Encoding.frsq (f : VR) : Encoding.Statement (.frsq f) := ⟨_, _, rfl, (lit_length _).trans (by decide), VR.word_top _ _⟩
theorem Encoding.fsqrt (f : VX) : Encoding.Statement (.fsqrt f) := ⟨_, _, rfl, Nat.succ_le_succ (lit_length _), VR.word_top _ _⟩
theorem Encoding.fexp2 (f : VR) : Encoding.Statement (.fexp2 f) := ⟨_, _, rfl, (lit_length _).trans (by decide), VR.word_top _ _⟩
theorem Encoding.flog2 (f : VR) : Encoding.Statement (.flog2 f) := ⟨_, _, rfl, (lit_length _).trans (by decide), VR.word_top _ _⟩
theorem Encoding.fsinp (f : VR) : Encoding.Statement (.fsinp f) := ⟨_, _, rfl, (lit_length _).trans (by decide), VR.word_top _ _⟩
theorem Encoding.fcosp (f : VR) : Encoding.Statement (.fcosp f) := ⟨_, _, rfl, (lit_length _).trans (by decide), VR.word_top _ _⟩
theorem Encoding.badd2 (f : VX) : Encoding.Statement (.badd2 f) := ⟨_, _, rfl, Nat.succ_le_succ (lit_length _), VR.word_top _ _⟩
theorem Encoding.bmul2 (f : VX) : Encoding.Statement (.bmul2 f) := ⟨_, _, rfl, Nat.succ_le_succ (lit_length _), VR.word_top _ _⟩
theorem Encoding.bfma2 (f : VX) : Encoding.Statement (.bfma2 f) := ⟨_, _, rfl, Nat.succ_le_succ (lit_length _), VR.word_top _ _⟩
theorem Encoding.dadd (f : VX) : Encoding.Statement (.dadd f) := ⟨_, _, rfl, Nat.succ_le_succ (lit_length _), VR.word_top _ _⟩
theorem Encoding.dmul (f : VX) : Encoding.Statement (.dmul f) := ⟨_, _, rfl, Nat.succ_le_succ (lit_length _), VR.word_top _ _⟩
theorem Encoding.dfma (f : VX) : Encoding.Statement (.dfma f) := ⟨_, _, rfl, Nat.succ_le_succ (lit_length _), VR.word_top _ _⟩
theorem Encoding.cvt (f : VX) : Encoding.Statement (.cvt f) := ⟨_, _, rfl, Nat.succ_le_succ (lit_length _), VR.word_top _ _⟩
theorem Encoding.bfpcvt (f : VX) : Encoding.Statement (.bfpcvt f) := ⟨_, _, rfl, Nat.succ_le_succ (lit_length _), VR.word_top _ _⟩
theorem Encoding.bfpcvtExpand (f : VX) : Encoding.Statement (.bfpcvtExpand f) := ⟨_, _, rfl, Nat.succ_le_succ (lit_length _), VR.word_top _ _⟩
theorem Encoding.resc (f : VX) : Encoding.Statement (.resc f) := ⟨_, _, rfl, Nat.succ_le_succ (lit_length _), VR.word_top _ _⟩
theorem Encoding.modop (f : VX) : Encoding.Statement (.modop f) := ⟨_, _, rfl, Nat.succ_le_succ (lit_length _), VR.word_top _ _⟩
theorem Encoding.fclass (f : VR) : Encoding.Statement (.fclass f) := ⟨_, _, rfl, (lit_length _).trans (by decide), VR.word_top _ _⟩
theorem Encoding.sadd (f : SR) : Encoding.Statement (.sadd f) := ⟨_, _, rfl, (lit_length _).trans (by decide), SR.word_top _ _⟩
theorem Encoding.ssub (f : SR) : Encoding.Statement (.ssub f) := ⟨_, _, rfl, (lit_length _).trans (by decide), SR.word_top _ _⟩
theorem Encoding.smul (f : SR) : Encoding.Statement (.smul f) := ⟨_, _, rfl, (lit_length _).trans (by decide), SR.word_top _ _⟩
theorem Encoding.smulhI (f : SR) : Encoding.Statement (.smulhI f) := ⟨_, _, rfl, (lit_length _).trans (by decide), SR.word_top _ _⟩
theorem Encoding.smulhN (f : SR) : Encoding.Statement (.smulhN f) := ⟨_, _, rfl, (lit_length _).trans (by decide), SR.word_top _ _⟩
theorem Encoding.sand (f : SR) : Encoding.Statement (.sand f) := ⟨_, _, rfl, (lit_length _).trans (by decide), SR.word_top _ _⟩
theorem Encoding.sor (f : SR) : Encoding.Statement (.sor f) := ⟨_, _, rfl, (lit_length _).trans (by decide), SR.word_top _ _⟩
theorem Encoding.sxor (f : SR) : Encoding.Statement (.sxor f) := ⟨_, _, rfl, (lit_length _).trans (by decide), SR.word_top _ _⟩
theorem Encoding.sshl (f : SR) : Encoding.Statement (.sshl f) := ⟨_, _, rfl, (lit_length _).trans (by decide), SR.word_top _ _⟩
theorem Encoding.sshr (f : SR) : Encoding.Statement (.sshr f) := ⟨_, _, rfl, (lit_length _).trans (by decide), SR.word_top _ _⟩
theorem Encoding.ssar (f : SR) : Encoding.Statement (.ssar f) := ⟨_, _, rfl, (lit_length _).trans (by decide), SR.word_top _ _⟩
theorem Encoding.sminI (f : SR) : Encoding.Statement (.sminI f) := ⟨_, _, rfl, (lit_length _).trans (by decide), SR.word_top _ _⟩
theorem Encoding.sminN (f : SR) : Encoding.Statement (.sminN f) := ⟨_, _, rfl, (lit_length _).trans (by decide), SR.word_top _ _⟩
theorem Encoding.smaxI (f : SR) : Encoding.Statement (.smaxI f) := ⟨_, _, rfl, (lit_length _).trans (by decide), SR.word_top _ _⟩
theorem Encoding.smaxN (f : SR) : Encoding.Statement (.smaxN f) := ⟨_, _, rfl, (lit_length _).trans (by decide), SR.word_top _ _⟩
theorem Encoding.sceq (f : SR) : Encoding.Statement (.sceq f) := ⟨_, _, rfl, (lit_length _).trans (by decide), SR.word_top _ _⟩
theorem Encoding.scltI (f : SR) : Encoding.Statement (.scltI f) := ⟨_, _, rfl, (lit_length _).trans (by decide), SR.word_top _ _⟩
theorem Encoding.scltN (f : SR) : Encoding.Statement (.scltN f) := ⟨_, _, rfl, (lit_length _).trans (by decide), SR.word_top _ _⟩
theorem Encoding.ssel (f : SR) : Encoding.Statement (.ssel f) := ⟨_, _, rfl, (lit_length _).trans (by decide), SR.word_top _ _⟩
theorem Encoding.smov (f : SR) : Encoding.Statement (.smov f) := ⟨_, _, rfl, (lit_length _).trans (by decide), SR.word_top _ _⟩
theorem Encoding.sbfe (f : SR) : Encoding.Statement (.sbfe f) := ⟨_, _, rfl, (lit_length _).trans (by decide), SR.word_top _ _⟩
theorem Encoding.spopc (f : SR) : Encoding.Statement (.spopc f) := ⟨_, _, rfl, (lit_length _).trans (by decide), SR.word_top _ _⟩
theorem Encoding.sclz (f : SR) : Encoding.Statement (.sclz f) := ⟨_, _, rfl, (lit_length _).trans (by decide), SR.word_top _ _⟩
theorem Encoding.srdl (f : SR) : Encoding.Statement (.srdl f) := ⟨_, _, rfl, (lit_length _).trans (by decide), SR.word_top _ _⟩
theorem Encoding.srdsr (f : SR) : Encoding.Statement (.srdsr f) := ⟨_, _, rfl, (lit_length _).trans (by decide), SR.word_top _ _⟩
theorem Encoding.swrsr (f : SR) : Encoding.Statement (.swrsr f) := ⟨_, _, rfl, (lit_length _).trans (by decide), SR.word_top _ _⟩
theorem Encoding.sfirst (f : SR) : Encoding.Statement (.sfirst f) := ⟨_, _, rfl, (lit_length _).trans (by decide), SR.word_top _ _⟩
theorem Encoding.sldk (f : SR) : Encoding.Statement (.sldk f) := ⟨_, _, rfl, (lit_length _).trans (by decide), SR.word_top _ _⟩
theorem Encoding.sldg (f : SR) : Encoding.Statement (.sldg f) := ⟨_, _, rfl, (lit_length _).trans (by decide), SR.word_top _ _⟩
theorem Encoding.sstg (f : SR) : Encoding.Statement (.sstg f) := ⟨_, _, rfl, (lit_length _).trans (by decide), SR.word_top _ _⟩
theorem Encoding.saadd (f : SR) : Encoding.Statement (.saadd f) := ⟨_, _, rfl, (lit_length _).trans (by decide), SR.word_top _ _⟩
theorem Encoding.sacas (f : SR) : Encoding.Statement (.sacas f) := ⟨_, _, rfl, (lit_length _).trans (by decide), SR.word_top _ _⟩
theorem Encoding.ldg (f : MX) : Encoding.Statement (.ldg f) := ⟨_, _, rfl, by decide, MX.word_top _ _⟩
theorem Encoding.ldgb (f : MX) : Encoding.Statement (.ldgb f) := ⟨_, _, rfl, by decide, MX.word_top _ _⟩
theorem Encoding.stg (f : MX) : Encoding.Statement (.stg f) := ⟨_, _, rfl, by decide, MX.word_top _ _⟩
theorem Encoding.stgb (f : MX) : Encoding.Statement (.stgb f) := ⟨_, _, rfl, by decide, MX.word_top _ _⟩
theorem Encoding.lds (f : MX) : Encoding.Statement (.lds f) := ⟨_, _, rfl, by decide, MX.word_top _ _⟩
theorem Encoding.ldsb (f : MX) : Encoding.Statement (.ldsb f) := ⟨_, _, rfl, by decide, MX.word_top _ _⟩
theorem Encoding.sts (f : MX) : Encoding.Statement (.sts f) := ⟨_, _, rfl, by decide, MX.word_top _ _⟩
theorem Encoding.stsb (f : MX) : Encoding.Statement (.stsb f) := ⟨_, _, rfl, by decide, MX.word_top _ _⟩
theorem Encoding.ldk (f : MX) : Encoding.Statement (.ldk f) := ⟨_, _, rfl, by decide, MX.word_top _ _⟩
theorem Encoding.aadd (f : MX) : Encoding.Statement (.aadd f) := ⟨_, _, rfl, by decide, MX.word_top _ _⟩
theorem Encoding.aminI (f : MX) : Encoding.Statement (.aminI f) := ⟨_, _, rfl, by decide, MX.word_top _ _⟩
theorem Encoding.aminN (f : MX) : Encoding.Statement (.aminN f) := ⟨_, _, rfl, by decide, MX.word_top _ _⟩
theorem Encoding.amaxI (f : MX) : Encoding.Statement (.amaxI f) := ⟨_, _, rfl, by decide, MX.word_top _ _⟩
theorem Encoding.amaxN (f : MX) : Encoding.Statement (.amaxN f) := ⟨_, _, rfl, by decide, MX.word_top _ _⟩
theorem Encoding.aand (f : MX) : Encoding.Statement (.aand f) := ⟨_, _, rfl, by decide, MX.word_top _ _⟩
theorem Encoding.aor (f : MX) : Encoding.Statement (.aor f) := ⟨_, _, rfl, by decide, MX.word_top _ _⟩
theorem Encoding.axor (f : MX) : Encoding.Statement (.axor f) := ⟨_, _, rfl, by decide, MX.word_top _ _⟩
theorem Encoding.axchg (f : MX) : Encoding.Statement (.axchg f) := ⟨_, _, rfl, by decide, MX.word_top _ _⟩
theorem Encoding.acas (f : MX) : Encoding.Statement (.acas f) := ⟨_, _, rfl, by decide, MX.word_top _ _⟩
theorem Encoding.afadd (f : MX) : Encoding.Statement (.afadd f) := ⟨_, _, rfl, by decide, MX.word_top _ _⟩
theorem Encoding.aincw (f : MX) : Encoding.Statement (.aincw f) := ⟨_, _, rfl, by decide, MX.word_top _ _⟩
theorem Encoding.gather (f : MX) : Encoding.Statement (.gather f) := ⟨_, _, rfl, by decide, MX.word_top _ _⟩
theorem Encoding.scatter (f : MX) : Encoding.Statement (.scatter f) := ⟨_, _, rfl, by decide, MX.word_top _ _⟩
theorem Encoding.pref (f : MX) : Encoding.Statement (.pref f) := ⟨_, _, rfl, by decide, MX.word_top _ _⟩
theorem Encoding.acq (f : MX) : Encoding.Statement (.acq f) := ⟨_, _, rfl, by decide, MX.word_top _ _⟩
theorem Encoding.rel (f : MX) : Encoding.Statement (.rel f) := ⟨_, _, rfl, by decide, MX.word_top _ _⟩
theorem Encoding.fence (f : MX) : Encoding.Statement (.fence f) := ⟨_, _, rfl, by decide, MX.word_top _ _⟩
theorem Encoding.lidbind (f : MX) : Encoding.Statement (.lidbind f) := ⟨_, _, rfl, by decide, MX.word_top _ _⟩
theorem Encoding.lidunb (f : MX) : Encoding.Statement (.lidunb f) := ⟨_, _, rfl, by decide, MX.word_top _ _⟩
theorem Encoding.seal (f : MX) : Encoding.Statement (.seal f) := ⟨_, _, rfl, by decide, MX.word_top _ _⟩
theorem Encoding.unseal (f : MX) : Encoding.Statement (.unseal f) := ⟨_, _, rfl, by decide, MX.word_top _ _⟩
theorem Encoding.cinv (f : MX) : Encoding.Statement (.cinv f) := ⟨_, _, rfl, by decide, MX.word_top _ _⟩
theorem Encoding.spalloc (f : MX) : Encoding.Statement (.spalloc f) := ⟨_, _, rfl, by decide, MX.word_top _ _⟩
theorem Encoding.spfree (f : MX) : Encoding.Statement (.spfree f) := ⟨_, _, rfl, by decide, MX.word_top _ _⟩
theorem Encoding.sprenew (f : MX) : Encoding.Statement (.sprenew f) := ⟨_, _, rfl, by decide, MX.word_top _ _⟩
theorem Encoding.spquery (f : MX) : Encoding.Statement (.spquery f) := ⟨_, _, rfl, by decide, MX.word_top _ _⟩
theorem Encoding.cbcfg (f : MX) : Encoding.Statement (.cbcfg f) := ⟨_, _, rfl, by decide, MX.word_top _ _⟩
theorem Encoding.cbwait (f : MX) : Encoding.Statement (.cbwait f) := ⟨_, _, rfl, by decide, MX.word_top _ _⟩
theorem Encoding.cbrel (f : MX) : Encoding.Statement (.cbrel f) := ⟨_, _, rfl, by decide, MX.word_top _ _⟩
theorem Encoding.npush (f : MX) : Encoding.Statement (.npush f) := ⟨_, _, rfl, by decide, MX.word_top _ _⟩
theorem Encoding.npop (f : MX) : Encoding.Statement (.npop f) := ⟨_, _, rfl, by decide, MX.word_top _ _⟩
theorem Encoding.npeek (f : MX) : Encoding.Statement (.npeek f) := ⟨_, _, rfl, by decide, MX.word_top _ _⟩
theorem Encoding.npstat (f : MX) : Encoding.Statement (.npstat f) := ⟨_, _, rfl, by decide, MX.word_top _ _⟩
theorem Encoding.shfl (f : MX) : Encoding.Statement (.shfl f) := ⟨_, _, rfl, by decide, MX.word_top _ _⟩
theorem Encoding.vote (f : MX) : Encoding.Statement (.vote f) := ⟨_, _, rfl, by decide, MX.word_top _ _⟩
theorem Encoding.redux (f : MX) : Encoding.Statement (.redux f) := ⟨_, _, rfl, by decide, MX.word_top _ _⟩
theorem Encoding.reduxLong (f : MX) : Encoding.Statement (.reduxLong f) := ⟨_, _, rfl, by decide, MX.word_top _ _⟩
theorem Encoding.prfx (f : MX) : Encoding.Statement (.prfx f) := ⟨_, _, rfl, by decide, MX.word_top _ _⟩
theorem Encoding.prfxLong (f : MX) : Encoding.Statement (.prfxLong f) := ⟨_, _, rfl, by decide, MX.word_top _ _⟩
theorem Encoding.cpg2s (f : MX) : Encoding.Statement (.cpg2s f) := ⟨_, _, rfl, by decide, MX.word_top _ _⟩
theorem Encoding.cps2g (f : MX) : Encoding.Statement (.cps2g f) := ⟨_, _, rfl, by decide, MX.word_top _ _⟩
theorem Encoding.cpmc (f : MX) : Encoding.Statement (.cpmc f) := ⟨_, _, rfl, by decide, MX.word_top _ _⟩
theorem Encoding.cpxf (f : MX) : Encoding.Statement (.cpxf f) := ⟨_, _, rfl, by decide, MX.word_top _ _⟩
theorem Encoding.cpt2s (f : MX) : Encoding.Statement (.cpt2s f) := ⟨_, _, rfl, by decide, MX.word_top _ _⟩
theorem Encoding.cps2t (f : MX) : Encoding.Statement (.cps2t f) := ⟨_, _, rfl, by decide, MX.word_top _ _⟩
theorem Encoding.cseal (f : MX) : Encoding.Statement (.cseal f) := ⟨_, _, rfl, by decide, MX.word_top _ _⟩
theorem Encoding.cwait (f : MX) : Encoding.Statement (.cwait f) := ⟨_, _, rfl, by decide, MX.word_top _ _⟩
theorem Encoding.ttq (f : MX) : Encoding.Statement (.ttq f) := ⟨_, _, rfl, by decide, MX.word_top _ _⟩
theorem Encoding.ttqMem (f : MX) : Encoding.Statement (.ttqMem f) := ⟨_, _, rfl, by decide, MX.word_top _ _⟩
theorem Encoding.sigadd (f : MX) : Encoding.Statement (.sigadd f) := ⟨_, _, rfl, by decide, MX.word_top _ _⟩
theorem Encoding.sigwait (f : MX) : Encoding.Statement (.sigwait f) := ⟨_, _, rfl, by decide, MX.word_top _ _⟩
theorem Encoding.sqadd (f : MX) : Encoding.Statement (.sqadd f) := ⟨_, _, rfl, by decide, MX.word_top _ _⟩
theorem Encoding.sqtake (f : MX) : Encoding.Statement (.sqtake f) := ⟨_, _, rfl, by decide, MX.word_top _ _⟩
theorem Encoding.nop (f : CXN) : Encoding.Statement (.nop f) := ⟨_, _, rfl, by decide, CXN.word_top _ _⟩
theorem Encoding.bra (f : CXJ) : Encoding.Statement (.bra f) := ⟨_, _, rfl, by decide, CXN.word_top _ _⟩
theorem Encoding.brv (f : CXB) : Encoding.Statement (.brv f) := ⟨_, _, rfl, by decide, CXB.word_top _ _ _ _⟩
theorem Encoding.brs (f : CXB) : Encoding.Statement (.brs f) := ⟨_, _, rfl, by decide, CXB.word_top _ _ _ _⟩
theorem Encoding.brx (f : CXR) : Encoding.Statement (.brx f) := ⟨_, _, rfl, (lit_length _).trans (by decide), CXR.word_top _ _⟩
theorem Encoding.call (f : CXL) : Encoding.Statement (.call f) := ⟨_, _, rfl, by decide, CXL.word_top _ _ _⟩
theorem Encoding.calli (f : CXR) : Encoding.Statement (.calli f) := ⟨_, _, rfl, (lit_length _).trans (by decide), CXR.word_top _ _⟩
theorem Encoding.ret (f : CXR) : Encoding.Statement (.ret f) := ⟨_, _, rfl, (lit_length _).trans (by decide), CXR.word_top _ _⟩
theorem Encoding.exit (f : CXN) : Encoding.Statement (.exit f) := ⟨_, _, rfl, by decide, CXN.word_top _ _⟩
theorem Encoding.yield (f : CXN) : Encoding.Statement (.yield f) := ⟨_, _, rfl, by decide, CXN.word_top _ _⟩
theorem Encoding.sleep (f : CXR) : Encoding.Statement (.sleep f) := ⟨_, _, rfl, (lit_length _).trans (by decide), CXR.word_top _ _⟩
theorem Encoding.bar (f : CXR) : Encoding.Statement (.bar f) := ⟨_, _, rfl, (lit_length _).trans (by decide), CXR.word_top _ _⟩
theorem Encoding.bara (f : CXR) : Encoding.Statement (.bara f) := ⟨_, _, rfl, (lit_length _).trans (by decide), CXR.word_top _ _⟩
theorem Encoding.barw (f : CXR) : Encoding.Statement (.barw f) := ⟨_, _, rfl, (lit_length _).trans (by decide), CXR.word_top _ _⟩
theorem Encoding.bcarm (f : CXR) : Encoding.Statement (.bcarm f) := ⟨_, _, rfl, (lit_length _).trans (by decide), CXR.word_top _ _⟩
theorem Encoding.bcwait (f : CXR) : Encoding.Statement (.bcwait f) := ⟨_, _, rfl, (lit_length _).trans (by decide), CXR.word_top _ _⟩
theorem Encoding.treduce (f : CXR) : Encoding.Statement (.treduce f) := ⟨_, _, rfl, (lit_length _).trans (by decide), CXR.word_top _ _⟩
theorem Encoding.launch (f : CXR) : Encoding.Statement (.launch f) := ⟨_, _, rfl, (lit_length _).trans (by decide), CXR.word_top _ _⟩
theorem Encoding.cancel (f : CXR) : Encoding.Statement (.cancel f) := ⟨_, _, rfl, (lit_length _).trans (by decide), CXR.word_top _ _⟩
theorem Encoding.trap (f : CXR) : Encoding.Statement (.trap f) := ⟨_, _, rfl, (lit_length _).trans (by decide), CXR.word_top _ _⟩
theorem Encoding.rte (f : CXN) : Encoding.Statement (.rte f) := ⟨_, _, rfl, by decide, CXN.word_top _ _⟩
theorem Encoding.chkerr (f : CXR) : Encoding.Statement (.chkerr f) := ⟨_, _, rfl, (lit_length _).trans (by decide), CXR.word_top _ _⟩
theorem Encoding.pcvrd (f : CXR) : Encoding.Statement (.pcvrd f) := ⟨_, _, rfl, (lit_length _).trans (by decide), CXR.word_top _ _⟩
theorem Encoding.pcvwr (f : CXR) : Encoding.Statement (.pcvwr f) := ⟨_, _, rfl, (lit_length _).trans (by decide), CXR.word_top _ _⟩
theorem Encoding.rdcont (f : CXR) : Encoding.Statement (.rdcont f) := ⟨_, _, rfl, (lit_length _).trans (by decide), CXR.word_top _ _⟩
theorem Encoding.fltinj (f : CXR) : Encoding.Statement (.fltinj f) := ⟨_, _, rfl, (lit_length _).trans (by decide), CXR.word_top _ _⟩
theorem Encoding.tlbinv (f : CXR) : Encoding.Statement (.tlbinv f) := ⟨_, _, rfl, (lit_length _).trans (by decide), CXR.word_top _ _⟩
theorem Encoding.l2wb (f : CXR) : Encoding.Statement (.l2wb f) := ⟨_, _, rfl, (lit_length _).trans (by decide), CXR.word_top _ _⟩
theorem Encoding.bkpt (f : CXR) : Encoding.Statement (.bkpt f) := ⟨_, _, rfl, (lit_length _).trans (by decide), CXR.word_top _ _⟩
theorem Encoding.halt (f : CXN) : Encoding.Statement (.halt f) := ⟨_, _, rfl, by decide, CXN.word_top _ _⟩
theorem Encoding.ckpt (f : CXN) : Encoding.Statement (.ckpt f) := ⟨_, _, rfl, by decide, CXN.word_top _ _⟩
theorem Encoding.copyPieceLanded : Encoding.Statement .copyPieceLanded := rfl
theorem Encoding.mirrorAcknowledgement : Encoding.Statement .mirrorAcknowledgement := rfl
theorem Encoding.faultRingHeadAdvance : Encoding.Statement .faultRingHeadAdvance := rfl
theorem Encoding.deviceNumberAssign : Encoding.Statement .deviceNumberAssign := rfl
theorem Encoding.coreClockThrottle : Encoding.Statement .coreClockThrottle := rfl
theorem Encoding.frameTableSet : Encoding.Statement .frameTableSet := rfl

end Laws

end Sys2Proof
end

