-- ==== Sys2Proof/Laws/Vector.lean ====
section
/-! SUPPORT. Instructions that write registers at once: what `exec` answers for a body that is done, for lane-wise bodies
and for scalar bodies. -/

namespace Sys2Proof.Machine

open Sys2Proof

variable {i : Instr} {sh : Shape} {s : State} {gid : Nat} {g : Group} {c : Clause} {t : Team} {l : Launch}
  {body : Env → State → Res} {e : Eff}

/-- The vector register that an instruction without a counter writes. -/
theorem finish_vreg {s1 : State} {a : OpAct} {p : Option Row} (d : Nat) (r : Row) (m : Word)
    (as bs : List (Nat × Row × Word)) (hd : sh.dc = 6) (hg : s1.groups.find gid = some g)
    (he : e.vw = as ++ (d, r, m) :: bs) (h1 : d ∉ as.map (·.1)) (h2 : d ∉ bs.map (·.1)) (h3 : d ∈ sh.vw) :
    (s1.finish gid i sh c e a p).vregOf gid d = mergeRow m (g.vreg d) r := by
  obtain ⟨b, h⟩ := find_finish (s1 := s1) (gid := gid) (i := i) (sh := sh) (c := c) (e := e) (a := a) (pcv := p) hd gid
  rw [State.vregOf, h, hg]
  simp only [Option.map_some, if_true, Option.getD_some]
  rw [Group.vreg, goOn_rows]
  exact written_vreg _ _ d r m as bs he h1 h2 h3

/-- The scalar register that an instruction without a counter writes. -/
theorem finish_sreg {s1 : State} {a : OpAct} {p : Option Row} (n : Nat) (x : DWord) (hd : sh.dc = 6)
    (hg : s1.groups.find gid = some g) (he : e.sw = [(n, x)]) : (s1.finish gid i sh c e a p).sregOf gid n = x := by
  obtain ⟨b, h⟩ := find_finish (s1 := s1) (gid := gid) (i := i) (sh := sh) (c := c) (e := e) (a := a) (pcv := p) hd gid
  rw [State.sregOf, h, hg]
  simp only [Option.map_some, if_true, Option.getD_some]
  rw [Group.sreg, goOn_sregs, written_sregs, he]
  simp [setS_find]

/-- An instruction without a counter whose body is done and leaves the state alone. -/
theorem issue_registers (h : Issuable i sh s gid g c t l) (hb : body (seen s gid g c t l) s = .done e s) (hd : sh.dc = 6)
    (hv : ∀ v ∈ e.vw.map (·.1), v ∈ sh.vw) (hs : ∀ n ∈ e.sw.map (·.1), n ∈ sh.sw) :
    issue i sh body s = .next (s.finish gid i sh c e .none none) ∧
      PastInstr (s.finish gid i sh c e .none none) gid g c (encode i).length ∧
      RegisterOnly s (s.finish gid i sh c e .none none) gid g c sh :=
  ⟨issue_done h hb, finish_past hd h.group, finish_registerOnly hd h.group hv hs⟩

/-! ## Lane-wise bodies -/

/-- The result of a lane-wise body in a lane of the active set. -/
theorem vectorBody_done {d : Nat} {wide : Bool} {fn : Group → Nat → DWord × Nat} {e : Env} {s : State}
    (h : ∀ n < 32, inMask e.act n → (fn e.g n).2 &&& cfgFpt e.g.ctxcfg = 0) :
    vectorBody d wide fn e s = .done (vectorEff d wide e.act fun n => if e.on n then (fn e.g n).1 else 0) s := by
  have hr : raised (cfgFpt e.g.ctxcfg) e.act (fun n =>
      (((List.range 32).map fun l => if e.on l then fn e.g l else (0, 0)).getD n (0, 0)).2) = 0 := by
    unfold raised maskOf
    have : sumBy (fun l => if (inMask e.act l &&
        decide ((((List.range 32).map fun l => if e.on l then fn e.g l else (0, 0)).getD l (0, 0)).2 &&&
          cfgFpt e.g.ctxcfg ≠ 0)) = true then 2 ^ l else 0) (List.range 32) = 0 := by
      unfold sumBy
      have key : ∀ (f : Nat → Nat) (ls : List Nat) (k : Nat), (∀ x ∈ ls, f x = 0) → ls.foldl (fun n a => n + f a) k = k := by
        intro f ls
        induction ls with
        | nil => intro k _; rfl
        | cons x ls ih => intro k hx; rw [List.foldl_cons, hx x (by simp), Nat.add_zero]; exact ih k fun y hy => hx y (by simp [hy])
      apply key
      intro x hx
      have hx : x < 32 := List.mem_range.mp hx
      by_cases hm : inMask e.act x
      · have := h x hx hm
        simp [hm, List.getD_eq_getElem?_getD, hx, Env.on, this]
      · simp [hm]
    rw [this]
    rfl
  unfold vectorBody fpxCause
  simp only [hr, if_true]
  congr 1
  unfold vectorEff
  have hrow : ∀ k : DWord → Word, (rowOf fun l => k (((List.range 32).map fun l => if e.on l then fn e.g l else (0, 0)).getD l (0, 0)).1)
      = rowOf fun n => k (if e.on n then (fn e.g n).1 else 0) := by
    intro k
    unfold rowOf
    apply List.map_congr_left
    intro n hn
    have hn : n < 32 := List.mem_range.mp hn
    simp only [List.getD_eq_getElem?_getD, List.getElem?_map, List.getElem?_range hn, Option.map_some, Option.getD_some]
    split <;> rfl
  have h1 := hrow fun x => x.setWidth 32
  have h2 := hrow fun x => (x >>> 32).setWidth 32
  simp only [h1, h2]

/-- A lane-wise instruction on one register: its result in every lane, and what it keeps. -/
theorem issue_lanes {d : Nat} {fn : Group → Nat → DWord × Nat} (h : Issuable i sh s gid g c t l) (hd : sh.dc = 6)
    (hw : sh.vw = [d])
    (hx : ∀ n < 32, inMask c.active n → (fn (g.view s.tick) n).2 &&& cfgFpt (g.view s.tick).ctxcfg = 0) :
    ∃ t', issue i sh (vectorBody d false fn) s = .next t' ∧ PastInstr t' gid g c (encode i).length ∧
      RegisterOnly s t' gid g c sh ∧ ∀ n < 32, lane (t'.vregOf gid d) n =
        if inMask c.active n then ((fn (g.view s.tick) n).1).setWidth 32 else lane (g.vreg d) n := by
  have hb := vectorBody_done (d := d) (wide := false) (fn := fn) (e := seen s gid g c t l) (s := s) hx
  obtain ⟨h1, h2, h3⟩ := issue_registers h hb hd (by simp [vectorEff, hw]) (by simp [vectorEff])
  refine ⟨_, h1, h2, h3, fun n hn => ?_⟩
  rw [finish_vreg d _ _ [] [] hd h.group (by rfl) (by simp) (by simp) (by simp [hw]), lane_mergeRow _ _ _ _ hn]
  simp only [lane_rowOf, hn, if_true, seen, Env.act, Env.on]
  split <;> simp [*]

/-- A lane-wise instruction on a pair. -/
theorem issue_lanes_pair {d : Nat} {fn : Group → Nat → DWord × Nat} (h : Issuable i sh s gid g c t l) (hd : sh.dc = 6)
    (hw : sh.vw = [d, d + 1])
    (hx : ∀ n < 32, inMask c.active n → (fn (g.view s.tick) n).2 &&& cfgFpt (g.view s.tick).ctxcfg = 0) :
    ∃ t', issue i sh (vectorBody d true fn) s = .next t' ∧ PastInstr t' gid g c (encode i).length ∧
      RegisterOnly s t' gid g c sh ∧ ∀ n < 32,
        lane (t'.vregOf gid d) n =
          (if inMask c.active n then ((fn (g.view s.tick) n).1).setWidth 32 else lane (g.vreg d) n) ∧
        lane (t'.vregOf gid (d + 1)) n =
          if inMask c.active n then ((fn (g.view s.tick) n).1 >>> 32).setWidth 32 else lane (g.vreg (d + 1)) n := by
  have hb := vectorBody_done (d := d) (wide := true) (fn := fn) (e := seen s gid g c t l) (s := s) hx
  obtain ⟨h1, h2, h3⟩ := issue_registers h hb hd (by simp [vectorEff, hw]) (by simp [vectorEff])
  refine ⟨_, h1, h2, h3, fun n hn => ⟨?_, ?_⟩⟩
  · rw [finish_vreg d _ _ [] [(d + 1, _, _)] hd h.group (by rfl) (by simp) (by simp) (by simp [hw]), lane_mergeRow _ _ _ _ hn]
    simp only [lane_rowOf, hn, if_true, seen, Env.act, Env.on]
    split <;> simp [*]
  · rw [finish_vreg (d + 1) _ _ [(d, _, _)] [] hd h.group (by rfl) (by simp) (by simp) (by simp [hw]),
      lane_mergeRow _ _ _ _ hn]
    simp only [lane_rowOf, hn, if_true, seen, Env.act, Env.on]
    split <;> simp [*]

/-- An integer instruction of two sources. -/
theorem int2_next {f : VR} {fn : Word → Word → Word} (h : Issuable i (({} : Form).shape f) s gid g c t l) :
    ∃ t', int2 i f fn s = .next t' ∧ PastInstr t' gid g c (encode i).length ∧
      RegisterOnly s t' gid g c (({} : Form).shape f) ∧ ∀ n < 32, lane (t'.vregOf gid f.d.toNat) n =
        if inMask c.active n then
          fn ((g.view s.tick).v32 f.a.toNat n) ((g.view s.tick).code32 f.b.toNat f.lit n)
        else lane (g.vreg f.d.toNat) n := by
  have := issue_lanes (fn := intLane f fun a b _ => fn a b) h rfl rfl (by simp [intLane])
  simpa [int2, intLane] using this

/-- An integer instruction of one source. -/
theorem int1_next {f : VR} {fn : Word → Word} (h : Issuable i (({ two := false } : Form).shape f) s gid g c t l) :
    ∃ t', int1 i f fn s = .next t' ∧ PastInstr t' gid g c (encode i).length ∧
      RegisterOnly s t' gid g c (({ two := false } : Form).shape f) ∧ ∀ n < 32, lane (t'.vregOf gid f.d.toNat) n =
        if inMask c.active n then fn ((g.view s.tick).code32 f.b.toNat f.lit n) else lane (g.vreg f.d.toNat) n := by
  have := issue_lanes (fn := intLane f fun _ b _ => fn b) h rfl rfl (by simp [intLane])
  simpa [int1, intLane] using this

/-- An integer instruction that also reads its destination. -/
theorem int3_next {f : VR} {fn : Word → Word → Word → Word}
    (h : Issuable i (({ three := true } : Form).shape f) s gid g c t l) :
    ∃ t', int3 i f fn s = .next t' ∧ PastInstr t' gid g c (encode i).length ∧
      RegisterOnly s t' gid g c (({ three := true } : Form).shape f) ∧ ∀ n < 32, lane (t'.vregOf gid f.d.toNat) n =
        if inMask c.active n then
          fn ((g.view s.tick).v32 f.a.toNat n) ((g.view s.tick).code32 f.b.toNat f.lit n)
            ((g.view s.tick).v32 f.d.toNat n)
        else lane (g.vreg f.d.toNat) n := by
  have := issue_lanes (fn := intLane f fn) h rfl rfl (by simp [intLane])
  simpa [int3, intLane] using this

/-! ## Scalar bodies -/

/-- A scalar instruction of two sources. -/
theorem scalar2_next {f : SR} {fn : DWord → DWord → DWord}
    (h : Issuable i { sr := f.a.toNat :: srBRegs f, sw := [f.d.toNat], stall := f.stall.toNat } s gid g c t l) :
    ∃ t', scalar2 i f fn s = .next t' ∧ PastInstr t' gid g c (encode i).length ∧
      RegisterOnly s t' gid g c { sr := f.a.toNat :: srBRegs f, sw := [f.d.toNat], stall := f.stall.toNat } ∧
      t'.sregOf gid f.d.toNat = fn (srA f (g.view s.tick)) (srB f (g.view s.tick)) := by
  obtain ⟨h1, h2, h3⟩ := issue_registers (e := { sw := [(f.d.toNat, fn (srA f (g.view s.tick)) (srB f (g.view s.tick)))] })
    (body := fun e s => .done { sw := [(f.d.toNat, fn (srA f e.g) (srB f e.g))] } s) h rfl rfl (by simp) (by simp)
  exact ⟨_, h1, h2, h3, finish_sreg _ _ rfl h.group rfl⟩

/-- A scalar instruction of one source. -/
theorem scalar1_next {f : SR} {fn : DWord → DWord}
    (h : Issuable i { sr := srBRegs f, sw := [f.d.toNat], stall := f.stall.toNat } s gid g c t l) :
    ∃ t', scalar1 i f fn s = .next t' ∧ PastInstr t' gid g c (encode i).length ∧
      RegisterOnly s t' gid g c { sr := srBRegs f, sw := [f.d.toNat], stall := f.stall.toNat } ∧
      t'.sregOf gid f.d.toNat = fn (srB f (g.view s.tick)) := by
  obtain ⟨h1, h2, h3⟩ := issue_registers (e := { sw := [(f.d.toNat, fn (srB f (g.view s.tick)))] })
    (body := fun e s => .done { sw := [(f.d.toNat, fn (srB f e.g))] } s) h rfl rfl (by simp) (by simp)
  exact ⟨_, h1, h2, h3, finish_sreg _ _ rfl h.group rfl⟩

end Sys2Proof.Machine
end

