-- ==== Sys2Proof/Tests/Slice0.lean ====
section
/-! SUPPORT. Tests: ill-formed terms that the checks refuse, words of the manual that decode, single steps, and, for every
statement with hypotheses, a state and operands that meet them. -/

namespace Sys2Proof.Tests

open Sys2Proof Sys2Proof.Machine Sys2Proof.Claims

set_option Elab.async false

/-! ## Ill-formed terms: one for each check of WellFormed -/

def vr0 : VR := { d := 1, a := 2, la := false, b := 3, lb := false, stall := 0, lit := none }
def vx0 : VX := { v := { d := 2, a := 4, la := false, b := 6, lb := false, stall := 0, lit := none }
                  rm := 0, sub := 0, k := 0, fl := 0, mbz := 0 }
def sr0 : SR := { d := 1, a := 2, b := 3, stall := 0, lit := none }
def mx0 : MX := { data := 4, off := 0, base := 10, dc := 6, sz := 0 }
def cxr0 : CXR := { p := 70, q := 0, imm := 0, lit := none }

theorem test_vr_literal_without_code : (Instr.iadd { vr0 with lit := some 5 }).wf = false := by decide
theorem test_vr_code_without_literal : (Instr.iadd { vr0 with b := 127 }).wf = false := by decide
theorem test_vx_code_without_literal : (Instr.fadd { vx0 with v := { vr0 with b := 127 } }).wf = false := by decide
theorem test_sr_code_without_literal : (Instr.sadd { sr0 with b := 127 }).wf = false := by decide
theorem test_cxr_code_without_literal : (Instr.sleep { cxr0 with p := 127 }).wf = false := by decide
theorem test_cxr_second_code_without_literal : (Instr.tlbinv { cxr0 with q := 127 }).wf = false := by decide
theorem test_bfpcvt_with_expand : (Instr.bfpcvt { vx0 with fl := 4 }).wf = false := by decide
theorem test_expand_without_flag : (Instr.bfpcvtExpand vx0).wf = false := by decide
theorem test_redux_long_form : (Instr.redux { mx0 with sz := 2 }).wf = false := by decide
theorem test_redux_short_form : (Instr.reduxLong mx0).wf = false := by decide
theorem test_prfx_long_form : (Instr.prfx { mx0 with sz := 3 }).wf = false := by decide
theorem test_prfx_short_form : (Instr.prfxLong { mx0 with sz := 1 }).wf = false := by decide
theorem test_ttq_mem_form : (Instr.ttq { mx0 with sz := 1 }).wf = false := by decide
theorem test_ttq_register_form : (Instr.ttqMem mx0).wf = false := by decide
theorem test_part_that_does_not_exist : EventArg.wf .partLost ⟨0, 0, 0, false, .part ⟨.core, 384⟩⟩ = false := by decide
theorem test_part_without_body : EventArg.wf .partLost ⟨0, 0, 0, false, .none⟩ = false := by decide
theorem test_context_that_does_not_exist : EventArg.wf .contextDestroy ⟨64, 0, 0, false, .none⟩ = false := by decide
theorem test_bus_that_does_not_exist : EventArg.wf .busRetrainDue ⟨7936, 0, 0, false, .none⟩ = false := by decide
theorem test_lane_that_does_not_exist : EventArg.wf .laneRepairStart ⟨0, 74, 0, false, .none⟩ = false := by decide
theorem test_task_that_does_not_exist : EventArg.wf .taskReady ⟨0, 0, 0, false, .task ⟨48, 0, 0⟩⟩ = false := by decide
theorem test_well_formed_terms : (Instr.iadd { vr0 with b := 127, lit := some 5 }).wf = true ∧ (Instr.sleep cxr0).wf = true ∧
    (Instr.reduxLong { mx0 with sz := 2 }).wf = true ∧ EventArg.wf .partLost ⟨0, 0, 0, false, .part ⟨.core, 383⟩⟩ = true := by
  decide

/-! ## Words that the manual writes out -/

/-- Whether words decode to an instruction and nothing remains. -/
def decodesTo (ws : List Word) (i : Instr) : Bool :=
  match decode ws with
  | .ok (j, []) => j == i
  | _ => false

/-- Why words do not decode. -/
def refusal (ws : List Word) : Option DecodeError :=
  match decode ws with
  | .ok _ => none
  | .error e => some e

/-- R212: `bfpcvt` from the block example. -/
theorem test_word_bfpcvt : decodesTo [0x3C300010, 0x04001000] (.bfpcvt { v := { d := 12, a := 0, la := false, b := 1, lb := false, stall := 0, lit := none }, rm := 0, sub := 4, k := 0, fl := 1, mbz := 0 }) = true := by decide
/-- R213: the same with `.expand`. -/
theorem test_word_bfpcvt_expand : decodesTo [0x3C3400C0, 0x04004000] (.bfpcvtExpand { v := { d := 13, a := 0, la := false, b := 12, lb := false, stall := 0, lit := none }, rm := 0, sub := 4, k := 0, fl := 4, mbz := 0 }) = true := by decide
/-- R217: RESC with a literal, MODOP with last uses. -/
theorem test_word_resc : decodesTo [0x3D1007F2, 0x02000000, 0xFFFFFFFE] (.resc { v := { d := 4, a := 0, la := false, b := 127, lb := false, stall := 2, lit := some 0xFFFFFFFE }, rm := 0, sub := 2, k := 0, fl := 0, mbz := 0 }) = true := by decide
theorem test_word_modop : decodesTo [0x3E182848, 0x04000000] (.modop { v := { d := 6, a := 2, la := true, b := 4, lb := true, stall := 0, lit := none }, rm := 0, sub := 4, k := 0, fl := 0, mbz := 0 }) = true := by decide
/-- R76: the worked clause. -/
theorem test_word_iadd : decodesTo [0x00042038] (.iadd { d := 1, a := 2, la := false, b := 3, lb := true, stall := 0, lit := none }) = true := by decide
theorem test_word_ssub : decodesTo [0x410E1FF8, 1] (.ssub { d := 7, a := 7, b := 127, stall := 0, lit := some 1 }) = true := by decide
/-- R309: the scalar memory words. -/
theorem test_word_sldk : decodesTo [0x5B0A0BF8, 0x10] (.sldk { d := 5, a := 2, b := 127, stall := 0, lit := some 0x10 }) = true := by decide
theorem test_word_sacas : decodesTo [0x5F125056] (.sacas { d := 9, a := 20, b := 10, stall := 6, lit := none }) = true := by decide
/-- R164, R165: special registers. -/
theorem test_word_srdsr : decodesTo [0x58822000] (.srdsr { d := 65, a := 8, b := 0, stall := 0, lit := none }) = true := by decide
theorem test_word_swrsr : decodesTo [0x59002C20] (.swrsr { d := 0, a := 11, b := 4, stall := 0, lit := none }) = true := by decide
/-- R306: LDG and STG. -/
theorem test_word_stg : decodesTo [0x82182159] (.stg { data := 6, off := 2, base := 10, dc := 6, sz := 1 }) = true := by decide
/-- R313: AMIN and ACAS. -/
theorem test_word_acas : decodesTo [0x92283118] (.acas { data := 10, off := 3, base := 8, dc := 6, sz := 0 }) = true := by decide
/-- R319, R320: lids. -/
theorem test_word_lidbind : decodesTo [0x9B000318] (.lidbind { data := 0, off := 0, base := 24, dc := 6, sz := 0 }) = true := by decide
/-- R249: CBWAIT. -/
theorem test_word_cbwait : decodesTo [0xA51C0298] (.cbwait { data := 7, off := 0, base := 20, dc := 6, sz := 0 }) = true := by decide
/-- R348 to R350: SHFL, VOTE, REDUX, PRFX. -/
theorem test_word_shfl : decodesTo [0xAB1020C3] (.shfl { data := 4, off := 2, base := 6, dc := 0, sz := 3 }) = true := by decide
theorem test_word_vote : decodesTo [0xAC1C3006] (.vote { data := 7, off := 3, base := 0, dc := 1, sz := 2 }) = true := by decide
theorem test_word_prfx : decodesTo [0xAE245148] (.prfx { data := 9, off := 5, base := 10, dc := 2, sz := 0 }) = true := by decide
/-- R354: CPG2S. -/
theorem test_word_cpg2s : decodesTo [0xAF000200] (.cpg2s { data := 0, off := 0, base := 16, dc := 0, sz := 0 }) = true := by decide
/-- R152, R153: LAUNCH and CANCEL; R100, R102: TRAP and PCVRD; R301: L2WB. -/
theorem test_word_launch : decodesTo [0xD1891400] (.launch { p := 68, q := 69, imm := 0, lit := none }) = true := by decide
theorem test_word_cancel : decodesTo [0xD28C0000] (.cancel { p := 70, q := 0, imm := 0, lit := none }) = true := by decide
theorem test_word_trap : decodesTo [0xD3000005] (.trap { p := 0, q := 0, imm := 5, lit := none }) = true := by decide
theorem test_word_pcvrd : decodesTo [0xD60A0000] (.pcvrd { p := 5, q := 0, imm := 0, lit := none }) = true := by decide
theorem test_word_l2wb : decodesTo [0xDB912403] (.l2wb { p := 72, q := 73, imm := 3, lit := none }) = true := by decide
/-- R71 to R73: opcodes that no table assigns, at both ends of each gap; R55: words that are missing. -/
theorem test_unassigned : ([0x60000000, 0x7F000000, 0xBC000000, 0xBF000000, 0xDF000000, 0xFF000000] : List Word).all
    (fun w => match refusal [w] with | some (.unassigned _) => true | _ => false) = true := by decide
theorem test_assigned_at_the_gaps : ([0x5F000000, 0x80000000, 0xBB000000, 0xC0000000, 0xDE000000] : List Word).all
    (fun w => (refusal [w]).isNone) = true := by decide
theorem test_missing_literal : refusal [0x410E1FF8] = some .truncated := by decide
theorem test_missing_extension : refusal [0x3C300010] = some .truncated := by decide
/-- R54: headers of the worked clauses. -/
theorem test_header : (headerOf 0xF0000000).n = 15 ∧ (headerOf 0x16000000).cls = 3 ∧ (headerOf 0x16000000).n = 1 ∧
    (headerOf 0x22000000).cls = 1 := by decide
/-- R55: a control transfer before another instruction; R69: a branch in an ALU clause; R74: order of the causes. -/
theorem test_checks : checkClause (headerOf 0x26000000) false [0xC8000000, 0xC8000000] = some 1 ∧
    checkClause (headerOf 0x10000000) false [0xC8000000] = some 1 ∧
    checkClause (headerOf 0x26000000) false [0xDD000000, 0xFF000000] = some 2 ∧
    checkClause (headerOf 0x26000000) false [0xDD000000, 0xC9000001] = some 3 ∧
    checkClause (headerOf 0x16000000) false [0xDD000000] = some 4 ∧
    checkClause (headerOf 0x16000000) true [0xDD000000] = none := by decide

/-! ## A group that may issue -/

/-- A clause of fifteen words at which a group stands, all lanes active. -/
def spot : Clause := { addr := 0, header := 0xF0000000, words := List.replicate 15 0, pos := 0, begun := true, active := 0xFFFFFFFF }

/-- Group 0 of team 0, slot 0 of core 0. -/
def grp : Group := { newGroup 0 0 0 false 0 0 [] 0 with clause := some spot }

/-- A READY device on which a group of a team of a launch of context 0 is to issue. -/
def stage (l : Launch) (t : Team) (g : Group) : State :=
  { State.reset with
    dev := { Device.reset with st := .ready, step := 9, epoch := 1 }
    ctxs := [(0, { freshCtx with st := .resident })], launches := [(0, l)], teams := [(0, t)], groups := [(0, g)], cur := some 0 }

def base : State := stage laidLaunch laidTeam grp

theorem mem_of_find {α : Type} {t : Tbl α} {n : Nat} {v : α} (h : t.find n = some v) : (n, v) ∈ t := by
  induction t with
  | nil => cases h
  | cons p t ih =>
    obtain ⟨k, w⟩ := p
    by_cases e : k = n
    · simp [Tbl.find, e] at h; simp [e, h]
    · simp [Tbl.find, e] at h; exact List.mem_cons_of_mem _ (ih h)

/-- Slices that hold nothing have room. -/
theorem roomy_blank (s : State) (h : (s.towers.all fun p => p.2.l2.isEmpty) = true) : Roomy s := by
  intro t sl
  unfold State.slicedBy State.tower Tbl.findD
  cases hf : s.towers.find t with
  | none => simp [freshTower]
  | some w =>
    have : w.l2 = [] := by
      have hm := mem_of_find hf
      have := List.all_eq_true.mp h _ hm
      simpa using this
    simp [this]

/-- A state with these parts lets an instruction issue that has no defect and whose rows and counter are free. -/
theorem may_issue {i : Instr} {sh : Shape} {s : State} {gid : Nat} {g : Group} {c : Clause} {t : Team} {l : Launch}
    (h1 : s.cur = some gid) (h2 : s.groups.find gid = some g) (h3 : g.clause = some c) (h4 : s.teams.find g.team = some t)
    (h5 : s.launches.find t.launch = some l) (h6 : i.defect (cfgPriv g.ctxcfg) = none) (h7 : g.spilled = [])
    (h8 : s.askRows gid g (g.newNames sh.vw).length = .granted) (h9 : cfgSbchk g.ctxcfg = false)
    (h10 : (decide (sh.dc ≥ 6) || decide (g.dc sh.dc < 63)) = true) (h11 : l.redundant = false) : Issuable i sh s gid g c t l :=
  ⟨h1, h2, h3, h4, h5, h6, h7, h8, .inl h9, fun h => by simp only [Bool.or_eq_true, decide_eq_true_eq] at h10; omega, h11⟩

/-- A group as `base` has it issues an instruction without a defect that writes at most four registers. -/
theorem base_issues {i : Instr} {sh : Shape} (h : i.defect false = none) (hr : base.askRows 0 grp (grp.newNames sh.vw).length = .granted) :
    Issuable i sh base 0 grp spot laidTeam laidLaunch :=
  ⟨rfl, rfl, rfl, rfl, rfl, h, rfl, hr, .inl rfl, fun _ => by simp [grp, newGroup, Group.dc, Tbl.findD, Tbl.find], rfl⟩

/-! ## Witnesses: vector and scalar instructions -/

theorem no_defect {α : Type} {l : List α} {f : α → Instr} (h : (l.all fun p => ((f p).defect false).isNone) = true)
    (p : α) (hp : p ∈ l) : (f p).defect false = none := by
  simpa using List.all_eq_true.1 h p hp

theorem witness_VectorTwoSourceResult : ∀ p ∈ twoSource, Issuable (p.1 vr0) (shape2 vr0) base 0 grp spot laidTeam laidLaunch :=
  fun p hp => base_issues (no_defect (f := fun p => p.1 vr0) (by decide) p hp) (by decide)

theorem witness_VectorComparisonMask : ∀ p ∈ comparisons, Issuable (p.1 vr0) (shape2 vr0) base 0 grp spot laidTeam laidLaunch :=
  fun p hp => base_issues (no_defect (f := fun p => p.1 vr0) (by decide) p hp) (by decide)

theorem witness_VectorOneSourceResult : ∀ p ∈ oneSource,
    Issuable (p.1 { vr0 with a := 0 }) (shape1 { vr0 with a := 0 }) base 0 grp spot laidTeam laidLaunch :=
  fun p hp => base_issues (no_defect (f := fun p => p.1 { vr0 with a := 0 }) (by decide) p hp) (by decide)

theorem witness_VectorThreeSourceResult : ∀ p ∈ threeSource,
    Issuable (p.1 vr0) (shape3 vr0) base 0 grp spot laidTeam laidLaunch :=
  fun p hp => base_issues (no_defect (f := fun p => p.1 vr0) (by decide) p hp) (by decide)

theorem witness_BitFieldResult : Issuable (.bfeN vr0) (shape2 vr0) base 0 grp spot laidTeam laidLaunch ∧
    Issuable (.bfeI vr0) (shape2 vr0) base 0 grp spot laidTeam laidLaunch ∧
    Issuable (.bfi vr0) (shape3 vr0) base 0 grp spot laidTeam laidLaunch :=
  ⟨base_issues rfl (by decide), base_issues rfl (by decide), base_issues rfl (by decide)⟩

theorem witness_ScalarTwoSourceResult : ∀ p ∈ scalarTwo, Issuable (p.1 sr0) (shapeS2 sr0) base 0 grp spot laidTeam laidLaunch :=
  fun p hp => base_issues (no_defect (f := fun p => p.1 sr0) (by decide) p hp) (by decide)

theorem witness_ScalarOtherResult :
    (∀ p ∈ scalarOne, Issuable (p.1 { sr0 with a := 0 }) (shapeS1 { sr0 with a := 0 }) base 0 grp spot laidTeam laidLaunch) ∧
    Issuable (.ssel sr0) (shapeS3 sr0) base 0 grp spot laidTeam laidLaunch ∧
    Issuable (.sbfe sr0) (shapeS2 sr0) base 0 grp spot laidTeam laidLaunch :=
  ⟨fun p hp => base_issues (no_defect (f := fun p => p.1 { sr0 with a := 0 }) (by decide) p hp) (by decide),
    base_issues rfl (by decide), base_issues rfl (by decide)⟩

/-! ## Witnesses: floating point, residues and blocks -/

theorem witness_FloatResult : ∃ sh d wide, floatForm (.fadd vx0) = some (sh, d, wide) ∧
    Issuable (.fadd vx0) sh base 0 grp spot laidTeam laidLaunch ∧ fpxLanes (.fadd vx0) base grp spot = 0 :=
  ⟨_, _, _, rfl, base_issues rfl (by decide), by decide⟩

theorem witness_FloatResult_wide : ∃ sh d, floatForm (.dadd vx0) = some (sh, d, true) ∧
    Issuable (.dadd vx0) sh base 0 grp spot laidTeam laidLaunch ∧ fpxLanes (.dadd vx0) base grp spot = 0 :=
  ⟨_, _, rfl, base_issues rfl (by decide), by decide⟩

/-- The invalid operation of 0 × ∞ is enabled. -/
def grpFpx : Group := { grp with ctxcfg := 0x7C, rows := [(6, rowOf fun _ => 0x7F800000)] }

theorem witness_FpxTrap : ∃ sh d wide, floatForm (.fmul vx0) = some (sh, d, wide) ∧
    Issuable (.fmul vx0) sh (stage laidLaunch laidTeam grpFpx) 0 grpFpx spot laidTeam laidLaunch ∧
    fpxLanes (.fmul vx0) (stage laidLaunch laidTeam grpFpx) grpFpx spot ≠ 0 :=
  ⟨_, _, _, rfl, may_issue rfl rfl rfl rfl rfl (by decide) rfl (by decide) rfl (by decide) rfl, by decide⟩

/-- 1.0 in each format, with the least and the greatest number of mantissa bits. -/
theorem witness_ExactRounding : fp64.read 0x3FF0000000000000 = .fin false (2 ^ 52) (-52) ∧
    bf16.read 0x3F80 = .fin false (2 ^ 7) (-7) ∧ fp16.read 1 = .fin false 1 (-24) := by decide

theorem witness_ResidueResult :
    Issuable (.resc { vx0 with v := { vx0.v with a := 0 }, k := 2 }) (({ two := false, lat := 16 } : Form).shape { vx0.v with a := 0 })
      base 0 grp spot laidTeam laidLaunch ∧
    Issuable (.modop { vx0 with k := 2 }) (({ lat := 16 } : Form).shape vx0.v) base 0 grp spot laidTeam laidLaunch :=
  ⟨base_issues rfl (by decide), base_issues rfl (by decide)⟩

theorem witness_BlockResult :
    Issuable (.bfpcvt { vx0 with v := { vx0.v with a := 0 }, sub := 4 }) (({ two := false, lat := 24 } : Form).shape { vx0.v with a := 0 })
      base 0 grp spot laidTeam laidLaunch ∧
    Issuable (.bfpcvtExpand { vx0 with v := { vx0.v with a := 0 }, sub := 4, fl := 4 })
      { (({ two := false, lat := 24 } : Form).shape { vx0.v with a := 0 }) with lanes := fun r _ act => if r = vx0.v.b.toNat then 0xFFFFFFFF else act }
      base 0 grp spot laidTeam laidLaunch :=
  ⟨base_issues rfl (by decide), base_issues rfl (by decide)⟩

/-! ## Witnesses: special registers, control, exceptions -/

/-- A kernel with a handler at word 64. -/
def launchH : Launch := { laidLaunch with desc := toBytes 4 1 ++ toBytes 4 0 ++ toBytes 4 64 ++ laidDescriptor.drop 12 }

/-- A group of a context with PRIV. -/
def grpP : Group := { grp with ctxcfg := 1 }

/-- A group in its handler, one lane of which had exited. -/
def grpH : Group := { grp with hmode := true, spcv := rowOf fun n => if n = 31 then exitPc else 8, tword := 2, tmask := 0x7FFFFFFF, tclause := 8 }

theorem witness_SpecialReadResult :
    (∀ d ∈ [(0 : BitVec 7), 63], Issuable (.srdsr { sr0 with d := d, a := 6, b := 0 })
      (srdsrShape { sr0 with d := d, a := 6, b := 0 }) base 0 grp spot laidTeam laidLaunch ∧ d.toNat < 64) ∧
    (∀ d ∈ [(64 : BitVec 7), 126], Issuable (.srdsr { sr0 with d := d, a := 8, b := 0 })
      (srdsrShape { sr0 with d := d, a := 8, b := 0 }) base 0 grp spot laidTeam laidLaunch ∧ 64 ≤ d.toNat ∧ d.toNat < 127) ∧
    Issuable (.srdl sr0) (srdlShape sr0) base 0 grp spot laidTeam laidLaunch ∧
    Issuable (.sfirst { sr0 with a := 0, b := 0 }) { sw := [1], stall := 0 } base 0 grp spot laidTeam laidLaunch := by
  refine ⟨?_, ?_, base_issues rfl (by decide), base_issues rfl (by decide)⟩
  · intro d hd
    simp only [List.mem_cons, List.not_mem_nil, or_false] at hd
    rcases hd with rfl | rfl
    · exact ⟨base_issues rfl (by decide), by decide⟩
    · exact ⟨base_issues rfl (by decide), by decide⟩
  · intro d hd
    simp only [List.mem_cons, List.not_mem_nil, or_false] at hd
    rcases hd with rfl | rfl
    · exact ⟨base_issues rfl (by decide), by decide⟩
    · exact ⟨base_issues rfl (by decide), by decide⟩

theorem witness_SpecialWriteResult :
    (∀ a ∈ [(0x0B : BitVec 7), 0x0C, 0x0E, 0x0F], Issuable (.swrsr { sr0 with d := 0, a := a, b := 3 })
      { vr := codeV false 3, sr := codeS 3, stall := 0, setsRev := decide (a.toNat = 0x0B) } (stage laidLaunch laidTeam grpP) 0 grpP spot laidTeam laidLaunch) ∧
    Issuable (.swrsr { sr0 with d := 0, a := 0x0C, b := 127, lit := some 5 })
      { vr := codeV false 127, sr := codeS 127, stall := 0, setsRev := false } base 0 grp spot laidTeam laidLaunch ∧
    spot.header.getLsbD 15 = false ∧ ({ spot with header := 0xF0008000 } : Clause).header.getLsbD 15 = true ∧
    Issuable (.chkerr { cxr0 with p := 63, imm := 1 }) { vw := codeV false 63, sw := codeS 63 } base 0 grp spot laidTeam laidLaunch ∧
    Issuable (.chkerr { cxr0 with p := 126, imm := 1 }) { vw := codeV false 126, sw := codeS 126 } base 0 grp spot laidTeam laidLaunch := by
  refine ⟨?_, base_issues rfl (by decide), by decide, by decide, base_issues rfl (by decide), base_issues rfl (by decide)⟩
  intro a ha
  simp only [List.mem_cons, List.not_mem_nil, or_false] at ha
  rcases ha with rfl | rfl | rfl | rfl <;> exact may_issue rfl rfl rfl rfl rfl (by decide) rfl (by decide) rfl (by decide) rfl

theorem witness_ControlTransfer :
    Issuable (.nop ⟨0⟩) {} base 0 grp spot laidTeam laidLaunch ∧ Issuable (.bra ⟨0xFFFFFF⟩) {} base 0 grp spot laidTeam laidLaunch ∧
    (∀ k : BitVec 2, Issuable (.brv ⟨1, k, 0x7FFF⟩) { vr := [1] } base 0 grp spot laidTeam laidLaunch ∧
      Issuable (.brs ⟨127, k, 1⟩) { sr := [127] } base 0 grp spot laidTeam laidLaunch) ∧
    Issuable (.brx { cxr0 with p := 9 }) (codeRegs 9) base 0 grp spot laidTeam laidLaunch ∧
    Issuable (.ret { cxr0 with p := 126 }) (codeRegs 126) base 0 grp spot laidTeam laidLaunch ∧
    Issuable (.call ⟨20, 10⟩) { vw := [20] } base 0 grp spot laidTeam laidLaunch ∧
    Issuable (.calli { cxr0 with p := 20, q := 6 }) { codeRegs 6 with vw := [20] } base 0 grp spot laidTeam laidLaunch ∧
    Issuable (.exit ⟨0⟩) {} base 0 grp spot laidTeam laidLaunch ∧ (∀ n < 32, inMask spot.active n ∨ lane grp.pcv n = exitPc) := by
  refine ⟨base_issues rfl (by decide), base_issues rfl (by decide), ?_, base_issues rfl (by decide), base_issues rfl (by decide),
    base_issues rfl (by decide), base_issues rfl (by decide), base_issues rfl (by decide), by decide⟩
  intro k
  exact ⟨base_issues rfl (by decide), base_issues rfl (by decide)⟩

theorem witness_TrapEntry : (stage launchH laidTeam grp).groups.find 0 = some grp ∧
    (stage launchH laidTeam grp).teams.find grp.team = some laidTeam ∧
    (stage launchH laidTeam grp).launches.find laidTeam.launch = some launchH ∧ laidTeam.st = .running ∧ grp.hmode = false ∧
    launchH.handler ≠ exitPc := ⟨rfl, rfl, rfl, rfl, rfl, by decide⟩

/-- Another group of the team that runs beside it and is to receive the halt. -/
theorem witness_TrapEntry_halt : laidTeam.halting = false ∧ (0x50 : Nat) ≠ 0x61 ∧
    ({ base with groups := [(0, grp), (1, { grp with num := 1 })] } : State).groups.find 1 = some { grp with num := 1 } ∧
    ({ grp with num := 1 } : Group).team = grp.team ∧ ({ grp with num := 1 } : Group).st = .ready ∧
    ({ grp with num := 1 } : Group).halt = none := ⟨rfl, by decide, rfl, rfl, rfl, rfl⟩

theorem witness_TeamFault : base.groups.find 0 = some grp ∧ base.launches.find laidTeam.launch = some laidLaunch ∧
    laidLaunch.st = .running ∧ laidLaunch.handler = exitPc ∧ inMask spot.active (lowLane 0x80000000) = true :=
  ⟨rfl, rfl, rfl, by decide, by decide⟩

theorem witness_TeamFault_in_handler : (stage launchH laidTeam grpH).groups.find 0 = some grpH ∧ grpH.hmode = true ∧
    launchH.st = .running := ⟨rfl, rfl, rfl⟩

theorem witness_SoftwareTrap : laidTeam.st = .running ∧ grp.hmode = false ∧ launchH.handler ≠ exitPc ∧
    Issuable (.trap { cxr0 with p := 0, imm := 1023 }) {} (stage launchH laidTeam grp) 0 grp spot laidTeam launchH ∧
    Issuable (.bkpt { cxr0 with p := 0 }) {} (stage launchH laidTeam grp) 0 grp spot laidTeam launchH :=
  ⟨rfl, rfl, by decide, may_issue rfl rfl rfl rfl rfl (by decide) rfl (by decide) rfl (by decide) rfl, may_issue rfl rfl rfl rfl rfl (by decide) rfl (by decide) rfl (by decide) rfl⟩

theorem witness_HandlerReturn :
    Issuable (.rte ⟨0⟩) {} (stage launchH laidTeam grpH) 0 grpH spot laidTeam launchH ∧ grpH.hmode = true ∧ grpH.pendHalt = false ∧
    Issuable (.rte ⟨0⟩) {} base 0 grp spot laidTeam laidLaunch ∧ grp.hmode = false ∧
    Issuable (.pcvrd { cxr0 with p := 5 }) { vw := [5], lanes := fun _ _ _ => 0xFFFFFFFF } base 0 grp spot laidTeam laidLaunch ∧
    Issuable (.pcvwr { cxr0 with p := 5 }) (codeRegs 5) (stage launchH laidTeam grpH) 0 grpH spot laidTeam launchH :=
  ⟨may_issue rfl rfl rfl rfl rfl (by decide) rfl (by decide) rfl (by decide) rfl, rfl, rfl, base_issues rfl (by decide), rfl, base_issues rfl (by decide), may_issue rfl rfl rfl rfl rfl (by decide) rfl (by decide) rfl (by decide) rfl⟩

/-- A group that sleeps, and whose time has come. -/
def grpS : Group := { grp with st := .waiting, wait := some ⟨.sleep, 0, 0, 0, 0⟩ }

theorem witness_LatheControl :
    Issuable (.yield ⟨0⟩) {} base 0 grp spot laidTeam laidLaunch ∧
    Issuable (.sleep cxr0) { sr := codeS 70 } base 0 grp spot laidTeam laidLaunch ∧ ((grp.view 0).sreg 6).toNat = 0 ∧
    Issuable (.sleep { cxr0 with p := 127, lit := some 500 }) { sr := codeS 127 } base 0 grp spot laidTeam laidLaunch ∧
    grp.wait = none ∧
    Issuable (.sleep cxr0) { sr := codeS 70 } (stage laidLaunch laidTeam grpS) 0 grpS spot laidTeam laidLaunch ∧
    (0 : Nat) ≤ (stage laidLaunch laidTeam grpS).time ∧
    Issuable (.halt ⟨0⟩) {} (stage laidLaunch laidTeam grpP) 0 grpP spot laidTeam laidLaunch ∧ laidTeam.st = .running ∧
    laidLaunch.portMask = 0 :=
  ⟨base_issues rfl (by decide), base_issues rfl (by decide), by decide, base_issues rfl (by decide), rfl, may_issue rfl rfl rfl rfl rfl (by decide) rfl (by decide) rfl (by decide) rfl, by decide, may_issue rfl rfl rfl rfl rfl (by decide) rfl (by decide) rfl (by decide) rfl, rfl,
    by decide⟩

/-! ## Witnesses: global memory -/

/-- One lane is active. -/
def spot1 : Clause := { spot with active := 1 }
def grp1 : Group := { grp with clause := some spot1, sregs := [(10, 0x1000)] }

/-- A page of HBM at address 0 of context 0, plain, writable and executable. -/
def page : TlbEntry :=
  { ctx := 0, va := 0, big := false, pa := 0x10000, w := true, x := true, p := false, c := false, mirror := false, s := false }

/-- A state whose cluster 0 holds a translation. -/
def withPage (x : TlbEntry) (s : State) : State := { s with clusters := [(0, { freshCluster with tlb := [x] })] }

def memBase : State := withPage page (stage laidLaunch laidTeam grp1)

/-- Every check of AccessCheck at one address: bits 63:52, alignment, privilege, permissions, seals, compressed pages. -/
theorem witness_AccessCheck :
    ((memBase.cluster 0).tlb.find? fun y => y.hits 0 0x1000) = some page ∧ 0x1001 % 4 ≠ 0 ∧
    ((withPage { page with va := 2 ^ 52 } memBase).cluster 0).tlb.find? (fun y => y.hits 0 (2 ^ 52)) = some { page with va := 2 ^ 52 } ∧
    (∀ x ∈ [{ page with p := true }, { page with w := false }, { page with x := false }, { page with s := true }, { page with c := true },
      { page with pa := 0x800000000000 }], ((withPage x memBase).cluster 0).tlb.find? (fun y => y.hits 0 0xFFFC) = some x) ∧
    spaceOf 0x1000 = .hbm ∧ spaceOf 0x80000000FFFC = .link ∧ (memBase.frame 0x11000).st = .normal ∧
    memBase.sealedAt 0 0x1000 4 = false ∧
    ({ memBase with ctxs := [(0, { freshCtx with seals := [(0x1000, 128)] })] } : State).sealedAt 0 0x1000 4 = true := by decide

/-- A root table at 0x10000 with an invalid entry, and one that leads to a leaf at each level. -/
def walkState : State := { base with mem := Mem.setBytes (Mem.setBytes (Mem.setBytes (Mem.setBytes [] 0x10000 (toBytes 8 0x2000001))
  0x20000 (toBytes 8 0x3000001)) 0x30000 (toBytes 8 0x4000001)) 0x40000 (toBytes 8 0x5000003) }

theorem witness_PageWalk : walkState.badTable 0x10000 65536 = false ∧ walkState.pteAt 0x10000 = some 0x2000001 ∧
    walkState.badTable (0x2000001 / 2 ^ 8 % 2 ^ 40 * 256) 4096 = false := by decide +kernel

theorem witness_PageWalk_invalid : walkState.pteAt (0x10000 + 8 * 1) = some 0 := by decide +kernel

theorem witness_GlobalLoadResult : ∃ A rd eff, accessOf memBase grp1 spot1 (.ldg mx0) = some A ∧ loadOf (.ldg mx0) spot1 = some (rd, eff) ∧
    Issuable (.ldg mx0) A.sh memBase 0 grp1 spot1 laidTeam laidLaunch ∧ memBase.loadsOf 0 = [] ∧
    Granted memBase (seen memBase 0 grp1 spot1 laidTeam laidLaunch) A.kind A.acc A.posted A.n A.lanes
      [⟨0, 0x1000, .ok 0x11000 page⟩] memBase :=
  ⟨_, _, _, rfl, rfl, may_issue rfl rfl rfl rfl rfl (by decide) rfl (by decide) rfl (by decide) rfl, rfl, rfl, by
    intro p hp; simp only [List.mem_cons, List.not_mem_nil, or_false] at hp; subst hp; exact ⟨_, _, rfl, by decide⟩⟩

theorem witness_LoadedBytes : memBase.home 8 0x11000 = .here 0x11000 ∧ 0x11000 % 128 = 0x1000 % 128 ∧ 0x1000 % 128 + 128 ≤ 128 ∧
    cacheable page 0x11000 = true ∧ memBase.l1Line 0 0 (0x1000 / 128) = none ∧ homeTower 0x11000 = towerOfCore 0 ∧
    spaceOf 0x11000 = .hbm ∧ (∀ j < 4, memBase.poisoned (0x11000 + j) = false) ∧ cacheable { page with c := true } 0x11000 = false ∧
    (∀ j < 4, (memBase.addPoison (sectorOf 0x11000)).poisoned (0x11000 + j) = true) ∧
    ({ memBase with cores := [(0, { freshCore with l1 := [⟨0, 32, 0x220, ⟨0, 0⟩, false⟩] })] } : State).l1Line 0 0 32 =
      some ⟨0, 32, 0x220, ⟨0, 0⟩, false⟩ ∧ laidLaunch.hasEnded = false := by decide +kernel

theorem witness_GlobalStoreResult : ∃ A val, accessOf memBase grp1 spot1 (.stg mx0) = some A ∧ storeOf (.stg mx0) memBase grp1 = some val ∧
    Issuable (.stg mx0) A.sh memBase 0 grp1 spot1 laidTeam laidLaunch ∧
    Granted memBase (seen memBase 0 grp1 spot1 laidTeam laidLaunch) A.kind A.acc A.posted A.n A.lanes
      [⟨0, 0x1000, .ok 0x11000 page⟩] memBase ∧ memBase.reserveHolds 0x11000 = false ∧ cacheable page 0x11000 = true ∧
    (memBase.core 0).l1.length + 32 ≤ 1024 ∧ (memBase.tower 0).rdc.length + 32 ≤ 262144 :=
  ⟨_, _, rfl, rfl, may_issue rfl rfl rfl rfl rfl (by decide) rfl (by decide) rfl (by decide) rfl, ⟨rfl, by
    intro p hp; simp only [List.mem_cons, List.not_mem_nil, or_false] at hp; subst hp; exact ⟨_, _, rfl, by decide⟩⟩,
    by decide, by decide, by decide, by decide⟩

/-- A page of the compressed window that its lines bypass the L1 for: through the plain aperture. -/
def bypass : TlbEntry := { page with pa := 0x20000000000, c := true }

def framed : State := { memBase with
  clusters := [(0, { freshCluster with tlb := [bypass] })]
  towers := [(0, { freshTower with frames := [(frameNo 0x20000000000, ⟨.compressed, 0, 0x100000, 0⟩)], freeList := [0x40000000], reserve := 0 })] }

theorem witness_HomeStoreResult : ∃ A val, accessOf framed grp1 spot1 (.stg mx0) = some A ∧ storeOf (.stg mx0) framed grp1 = some val ∧
    Issuable (.stg mx0) A.sh framed 0 grp1 spot1 laidTeam laidLaunch ∧
    Granted framed (seen framed 0 grp1 spot1 laidTeam laidLaunch) A.kind A.acc A.posted A.n A.lanes
      [⟨0, 0x1000, .ok 0x20000001000 bypass⟩] framed ∧ Memory.wf framed.mem = true ∧ framed.reserveHolds 0x20000001000 = false ∧
    cacheable bypass 0x20000001000 = false ∧ framed.home 8 0x20000001000 = .here 0x20000001000 :=
  ⟨_, _, rfl, rfl, may_issue rfl rfl rfl rfl rfl (by decide) rfl (by decide) rfl (by decide) rfl, ⟨rfl, by
    intro p hp; simp only [List.mem_cons, List.not_mem_nil, or_false] at hp; subst hp; exact ⟨_, _, rfl, by decide⟩⟩,
    by decide, by decide, by decide, by decide⟩

/-- A misaligned address, and a page that is not present. -/
def grpOdd : Group := { grp1 with sregs := [(10, 0x1001)] }
def grpFar : Group := { grp1 with sregs := [(10, 0x80000)] }

theorem witness_GlobalAccessTrap : ∃ A ps k, accessOf (withPage page (stage laidLaunch laidTeam grpOdd)) grpOdd spot1 (.ldg mx0) = some A ∧
    Issuable (.ldg mx0) A.sh (withPage page (stage laidLaunch laidTeam grpOdd)) 0 grpOdd spot1 laidTeam laidLaunch ∧
    (withPage page (stage laidLaunch laidTeam grpOdd)).loadsOf 0 = [] ∧
    (withPage page (stage laidLaunch laidTeam grpOdd)).probe
      (seen (withPage page (stage laidLaunch laidTeam grpOdd)) 0 grpOdd spot1 laidTeam laidLaunch) A.kind A.acc A.posted A.n A.lanes =
      (ps, withPage page (stage laidLaunch laidTeam grpOdd)) ∧ causeOf (trapsOf ps) = some k ∧ k.code = 0x11 :=
  ⟨_, _, _, rfl, may_issue rfl rfl rfl rfl rfl (by decide) rfl (by decide) rfl (by decide) rfl, rfl, rfl, rfl, rfl⟩

theorem witness_AbsentPageWait : ∃ A pte, accessOf (stage laidLaunch laidTeam grpFar) grpFar spot1 (.ldg mx0) = some A ∧
    Issuable (.ldg mx0) A.sh (stage laidLaunch laidTeam grpFar) 0 grpFar spot1 laidTeam laidLaunch ∧
    (stage laidLaunch laidTeam grpFar).loadsOf 0 = [] ∧ grpFar.wait = none ∧ A.posted = false ∧
    ((stage laidLaunch laidTeam grpFar).probe (seen (stage laidLaunch laidTeam grpFar) 0 grpFar spot1 laidTeam laidLaunch)
      A.kind A.acc A.posted A.n A.lanes).1 = [⟨0, 0x80000, .absent pte false false⟩] :=
  ⟨_, _, rfl, may_issue rfl rfl rfl rfl rfl (by decide) rfl (by decide) rfl (by decide) rfl, rfl, rfl, rfl, rfl⟩

theorem witness_AtomicResult : ∃ A, accessOf memBase grp1 spot1 (.aadd mx0) = some A ∧
    Issuable (.aadd mx0) A.sh memBase 0 grp1 spot1 laidTeam laidLaunch ∧ memBase.loadsOf 0 = [] ∧ grp1.wait = none ∧
    Granted memBase (seen memBase 0 grp1 spot1 laidTeam laidLaunch) A.kind A.acc A.posted A.n A.lanes
      [⟨0, 0x1000, .ok 0x11000 page⟩] memBase ∧ memBase.reserveHolds 0x11000 = false :=
  ⟨_, rfl, may_issue rfl rfl rfl rfl rfl (by decide) rfl (by decide) rfl (by decide) rfl, rfl, rfl, ⟨rfl, by
    intro p hp; simp only [List.mem_cons, List.not_mem_nil, or_false] at hp; subst hp; exact ⟨_, _, rfl, by decide⟩⟩, by decide⟩

theorem witness_AtomicResult_scalar : ∃ A, accessOf (withPage page (stage laidLaunch laidTeam { grp1 with sregs := [(2, 0x1000)] }))
      { grp1 with sregs := [(2, 0x1000)] } spot1 (.saadd { sr0 with stall := 6 }) = some A ∧
    Issuable (.saadd { sr0 with stall := 6 }) A.sh (withPage page (stage laidLaunch laidTeam { grp1 with sregs := [(2, 0x1000)] })) 0
      { grp1 with sregs := [(2, 0x1000)] } spot1 laidTeam laidLaunch := ⟨_, rfl, may_issue rfl rfl rfl rfl rfl (by decide) rfl (by decide) rfl (by decide) rfl⟩

theorem witness_AtomicAtHome : atomicOf (.aadd mx0) = some (mx0, 0x09, fun w m b _ => (m + b) % 2 ^ w) ∧
    Memory.wf memBase.mem = true ∧ memBase.home 8 0x11000 = .here 0x11000 ∧ spaceOf 0x11000 = .hbm ∧ 0x11000 % 8 = 0 :=
  ⟨rfl, by decide, by decide, by decide, by decide⟩

/-! ## Witnesses: rows of memory and the scratchpad -/

/-- A buffer of two rows of team 0, plain or circular with two slots of one row. -/
def buf0 : Buf := { base := 0, rows := 2, tag := 200, cls := .save, team := 0, num := 1, gen := 1, circ := none, parked := false }
def ring : Circ := ⟨2, 1, 1, 1, 0, 0, 0, []⟩
def padCore (x : Option Circ) : Core := { freshCore with bufs := [(0, { buf0 with circ := x })] }

/-- The group whose s10 holds the handle and whose s11 and so on hold `xs`. -/
def grpPad (xs : List DWord) : Group :=
  { grp with clause := some spot1, sregs := (10, buf0.handle 0) :: xs.zipIdx.map fun p => (11 + p.2, p.1) }
def padOn (x : Option Circ) (g : Group) : State := { memBase with groups := [(0, g)], cores := [(0, padCore x)] }

theorem witness_buffer : bufAt (padOn none (grpPad [])) 0 (grpPad []) (((grpPad []).view 0).sreg 10) = some buf0 := by decide +kernel

/-- The descriptor of GATHER in s16: a matrix at 0, stride 16, an index list at 0x1000, one row of 16 bytes, and the buffer. -/
def grpRows (g : Group) : Group :=
  { g with clause := some spot1, sregs := [(16, 0), (17, 16), (18, 0x1000), (19, 1 + 16 * 2 ^ 32), (20, buf0.handle 0), (21, 0)] }
def rowsOn : State := padOn none (grpRows grp)
def mxRows : MX := { data := 0, off := 0, base := 16, dc := 6, sz := 0 }

theorem witness_GatherScatterPrefetch : rowsOn.loadsOf 0 = [] ∧ (grpRows grp).wait = none ∧
    (rows6 ((grpRows grp).view 0) 16 4).ok = true ∧ nextRow (grpRows grp) < (rows6 ((grpRows grp).view 0) 16 4).n ∧
    nextRow { grpRows grp with pidx := BitVec.ofNat 33 (2 ^ 32 + 1) } = (rows6 ((grpRows grp).view 0) 16 4).n ∧
    (rows6 (({ grpRows grp with sregs := [(16, 8)] } : Group).view 0) 16 4).ok = false := by decide

theorem witness_GatherScatterPrefetch_issue :
    Issuable (.gather mxRows) { sr := span 16 6, opc := 0x15, sz := 0, out := .output } rowsOn 0 (grpRows grp) spot1 laidTeam laidLaunch ∧
    Issuable (.scatter mxRows) { sr := span 16 6, opc := 0x16, sz := 0, out := .output } rowsOn 0 (grpRows grp) spot1 laidTeam laidLaunch ∧
    Granted rowsOn (seen rowsOn 0 (grpRows grp) spot1 laidTeam laidLaunch) .load (.load 4) false 4 [(0, 0x1000)]
      [⟨0, 0x1000, .ok 0x11000 page⟩] rowsOn ∧
    Granted rowsOn (seen rowsOn 0 (grpRows grp) spot1 laidTeam laidLaunch) .store .store true 16 [(0, 0)]
      [⟨0, 0, .ok 0x10000 page⟩] rowsOn ∧
    Issuable (.pref { mx0 with data := 0, dc := 0 }) { vr := [0], sr := [10], out := .input } memBase 0 grp1 spot1 laidTeam laidLaunch :=
  ⟨may_issue rfl rfl rfl rfl rfl (by decide) rfl (by decide) rfl (by decide) rfl, may_issue rfl rfl rfl rfl rfl (by decide) rfl (by decide) rfl (by decide) rfl, ⟨rfl, by
    intro p hp; simp only [List.mem_cons, List.not_mem_nil, or_false] at hp; subst hp; exact ⟨_, _, rfl, by decide⟩⟩, ⟨rfl, by
    intro p hp; simp only [List.mem_cons, List.not_mem_nil, or_false] at hp; subst hp; exact ⟨_, _, rfl, by decide⟩⟩, may_issue rfl rfl rfl rfl rfl (by decide) rfl (by decide) rfl (by decide) rfl⟩

/-- Lane 0 at offset 0, and at the last word of the buffer; an offset beyond it; a misaligned one. -/
theorem witness_ScratchAccessResult : ∃ A B, spadOf (padOn none (grpPad [])) (grpPad []) spot1 (.lds mx0) = some A ∧
    Issuable (.lds mx0) A.sh (padOn none (grpPad [])) 0 (grpPad []) spot1 laidTeam laidLaunch ∧ A.reads = true ∧
    spadOf (padOn none (grpPad [])) (grpPad []) spot1 (.sts mx0) = some B ∧
    Issuable (.sts mx0) B.sh (padOn none (grpPad [])) 0 (grpPad []) spot1 laidTeam laidLaunch ∧ B.reads = false :=
  ⟨_, _, rfl, may_issue rfl rfl rfl rfl rfl (by decide) rfl (by decide) rfl (by decide) rfl, rfl, rfl, may_issue rfl rfl rfl rfl rfl (by decide) rfl (by decide) rfl (by decide) rfl, rfl⟩

theorem witness_ScratchAccessResult_lanes :
    (let s := padOn none (grpPad []); let e := seen s 0 (grpPad []) spot1 laidTeam laidLaunch
     (s.spProbe e (buf0.handle 0) 4 true [(0, 0), (1, 2044)]).map (·.cls) = [.ok 0 0, .ok 1 1020] ∧
     (s.spProbe e (buf0.handle 0) 4 true [(0, 2048)]).map (·.cls) = [.out 0] ∧
     (causeOf (spTraps (s.spProbe e (buf0.handle 0) 4 true [(0, 2)]))).isSome = true ∧
     spTraps (s.spProbe e (buf0.handle 0) 4 true [(0, 0), (1, 2044)]) = []) := by decide +kernel

/-- A row that was written at time 0, and one that holds nothing any more. -/
def agedCore : Core := { padCore none with sp := [(0, { freshRow with st := .stamped }), (1, { freshRow with st := .void })] }

theorem witness_ScratchClassification : (0 : Nat) < 4 ∧ 1024 * buf0.rows < 2045 + 4 ∧ 2044 + 4 ≤ 1024 * buf0.rows ∧ 2042 % 4 ≠ 0 ∧
    (agedCore.row (buf0.base + 2044 / 1024)).st = .void ∧ (agedCore.row (buf0.base + 1020 / 1024)).st = .stamped ∧
    min buf0.tag agedCore.retnUs * 1000 < 200001 - (agedCore.row 0).stamp ∧
    200000 - (agedCore.row 0).stamp ≤ min buf0.tag agedCore.retnUs * 1000 ∧ (agedCore.row 2).st = .never := by decide

theorem witness_ScratchRetention : 1020 + ([1, 2, 3, 4] : List Byte).length ≤ 1024 ∧ (0 : Nat) < ([1, 2, 3, 4] : List Byte).length ∧
    min buf0.tag agedCore.retnUs * 1000 < 200001 - 0 ∧ 200000 - 0 ≤ min buf0.tag agedCore.retnUs * 1000 ∧
    ((agedCore.writeRow buf0 0 0 1020 [1, 2, 3, 4]).row 0).bad 1023 = false := by decide +kernel

/-- SPALLOC at the least and the greatest size and life, with the table full, with no run of rows, and malformed. -/
def smallRequest : DWord := 1 + 2 ^ 32
def largeRequest : DWord := BitVec.ofNat 64 (2048 + 2 ^ 12 * 2 + 2 ^ 32 * (2 ^ 20 - 1))
def fullTable : Core := { freshCore with bufs := (List.range 64).map fun k => (k, buf0) }

theorem witness_BufferAllocation :
    smallRequest.toNat % 2 ^ 12 = 1 ∧ smallRequest.toNat / 2 ^ 32 % 2 ^ 20 = 1 ∧ largeRequest.toNat % 2 ^ 12 = 2048 ∧
    largeRequest.toNat / 2 ^ 12 % 4 = 2 ∧ largeRequest.toNat / 2 ^ 14 % 2 ^ 18 = 0 ∧ largeRequest.toNat / 2 ^ 52 = 0 ∧
    (∀ k < 64, (fullTable.bufs.find k).isSome) ∧ (padCore none).bufs.find 1 = none ∧ (∀ k < 1, ((padCore none).bufs.find k).isSome) ∧
    (padCore none).rowFree 2 = true ∧ (∀ b < 2, ∃ j < 1, (padCore none).rowFree (b + j) = false) ∧ (padCore none).retnUs < 2 ^ 20 := by
  decide +kernel

/-- A buffer that takes every row: no run is free. -/
theorem witness_BufferAllocation_no_space : ∀ base, base + 1 ≤ 2048 → ∃ j < 1,
    ({ freshCore with bufs := [(0, { buf0 with rows := 2048 })] } : Core).rowFree (base + j) = false := by
  intro base h
  refine ⟨0, by decide, ?_⟩
  simp only [Core.rowFree, List.any_cons, List.any_nil, buf0, Bool.not_eq_false', Bool.or_eq_true, decide_eq_true_eq]
  exact .inl ⟨by omega, by omega⟩

theorem witness_BufferControl :
    Issuable (.spalloc { mx0 with data := 0 }) { sr := [10], sw := [10], opc := 0x20, out := .both } (padOn none (grpPad [])) 0
      (grpPad []) spot1 laidTeam laidLaunch ∧
    Issuable (.spfree { mx0 with data := 0 }) { sr := [10], opc := 0x21, out := .output } (padOn none (grpPad [])) 0
      (grpPad []) spot1 laidTeam laidLaunch ∧
    Issuable (.sprenew { mx0 with data := 0, dc := 3 }) { sr := [10], dc := 3, opc := 0x22, out := .output } (padOn none (grpPad [])) 0
      (grpPad []) spot1 laidTeam laidLaunch ∧
    Issuable (.spquery mx0) (loadShape mx0 0x23 1 [0]) (padOn none (grpPad [])) 0 (grpPad []) spot1 laidTeam laidLaunch ∧
    Issuable (.spquery { mx0 with sz := 1 }) (loadShape { mx0 with sz := 1 } 0x23 1 []) (padOn (some ring) (grpPad [])) 0 (grpPad [])
      spot1 laidTeam laidLaunch ∧ (grpPad []).wait = none :=
  ⟨may_issue rfl rfl rfl rfl rfl (by decide) rfl (by decide) rfl (by decide) rfl, may_issue rfl rfl rfl rfl rfl (by decide) rfl (by decide) rfl (by decide) rfl, may_issue rfl rfl rfl rfl rfl (by decide) rfl (by decide) rfl (by decide) rfl, may_issue rfl rfl rfl rfl rfl (by decide) rfl (by decide) rfl (by decide) rfl, may_issue rfl rfl rfl rfl rfl (by decide) rfl (by decide) rfl (by decide) rfl, rfl⟩

theorem witness_BufferControl_handles : bufAt (padOn none grp1) 0 grp1 ((grp1.view 0).sreg 10) = none ∧
    bufAt (padOn (some ring) (grpPad [])) 0 (grpPad []) (buf0.handle 0) = some { buf0 with circ := some ring } ∧
    (∀ p ∈ (padOn none (grpPad [])).groups, ∀ o ∈ p.2.ops, o.act ≠ .spad 0 1) := by
  refine ⟨by decide +kernel, by decide +kernel, ?_⟩
  intro p hp
  simp only [padOn, List.mem_cons, List.not_mem_nil, or_false] at hp
  subst hp
  exact fun o ho => absurd ho (List.not_mem_nil)

/-- CBCFG with two slots of one row, with none, and with too many; CBWAIT and CBREL on each state of the counts. -/
theorem witness_CircularBuffers :
    (∀ cfg ∈ [(0x2001 : DWord), 0, 0x3001], Issuable (.cbcfg { mx0 with data := 0 }) { sr := span 10 2, opc := 0x24, out := .output }
      (padOn none (grpPad [cfg])) 0 (grpPad [cfg]) spot1 laidTeam laidLaunch) ∧
    Issuable (.cbwait mx0) { loadShape mx0 0x25 1 [] with out := .both } (padOn (some ring) (grpPad [])) 0 (grpPad []) spot1 laidTeam laidLaunch ∧
    Issuable (.cbwait { mx0 with sz := 1 }) { loadShape { mx0 with sz := 1 } 0x25 1 [] with out := .both } (padOn (some { ring with filled := 0 }) (grpPad []))
      0 (grpPad []) spot1 laidTeam laidLaunch ∧
    Issuable (.cbrel { mx0 with data := 0 }) { sr := [10], opc := 0x26, out := .output } (padOn (some { ring with held := 1 }) (grpPad []))
      0 (grpPad []) spot1 laidTeam laidLaunch := by
  refine ⟨?_, may_issue rfl rfl rfl rfl rfl (by decide) rfl (by decide) rfl (by decide) rfl, may_issue rfl rfl rfl rfl rfl (by decide) rfl (by decide) rfl (by decide) rfl, may_issue rfl rfl rfl rfl rfl (by decide) rfl (by decide) rfl (by decide) rfl⟩
  intro cfg h
  simp only [List.mem_cons, List.not_mem_nil, or_false] at h
  rcases h with rfl | rfl | rfl <;> exact may_issue rfl rfl rfl rfl rfl (by decide) rfl (by decide) rfl (by decide) rfl

theorem witness_CircularBuffers_words : (0x2001 : Nat) / 2 ^ 11 % 2 = 0 ∧ (0x2001 : Nat) / 2 ^ 12 % 2 ^ 8 = 2 ∧ (0x2001 : Nat) % 2 ^ 11 = 1 ∧
    buf0.rows < 3 * 1 ∧ (0x3001 : Nat) / 2 ^ 12 % 2 ^ 8 = 3 ∧ (0 : Nat) < ring.filled ∧ ({ ring with claims := [(0, false)] } : Circ).claims ≠ [] := by
  decide

theorem witness_CircularCounts : ring.free + ring.claims.length + ring.filled + ring.held = ring.nslot ∧ 0 < ring.free ∧ 0 < ring.filled ∧
    ({ ring with filled := 0, held := 1 } : Circ).free + 0 + 0 + 1 = ring.nslot := by decide

/-! ## Witnesses: ports and lanes -/

/-- A kernel that declares every port, and a team on cores 0 and 1 whose other group has retired. -/
def launchP : Launch := { laidLaunch with desc := laidDescriptor.set 0x15 0x7F }
def launchG : Launch := { launchP with grid := [(0, 1), (1, 1)] }
def team2 : Team := { laidTeam with cores := [0, 1], members := [.on 0, .retired] }
def grpQ (e : List PortEntry) : Group := { grp with clause := some spot1, ports := [(32 * 1 + 1, e), (0, e)] }
def mxP (p : BitVec 6) : MX := { data := 3, off := p, base := 0, dc := 6, sz := 0 }

theorem witness_PortTransfer_issue :
    (∀ q ∈ [((.npush (mxP 0) : Instr), 0x27), (.npop (mxP 0), 0x28), (.npeek (mxP 0), 0x29)],
      Issuable q.1 (portShape (mxP 0) q.2) (stage laidLaunch laidTeam grp1) 0 grp1 spot1 laidTeam laidLaunch ∧
      Issuable q.1 (portShape (mxP 0) q.2) (stage launchP laidTeam grp1) 0 grp1 spot1 laidTeam launchP) ∧
    Issuable (.npush (mxP 2)) (portShape (mxP 2) 0x27) (stage launchG team2 grp1) 0 grp1 spot1 team2 launchG := by
  refine ⟨?_, may_issue rfl rfl rfl rfl rfl (by decide) rfl (by decide) rfl (by decide) rfl⟩
  intro q hq
  simp only [List.mem_cons, List.not_mem_nil, or_false] at hq
  rcases hq with rfl | rfl | rfl <;> exact ⟨may_issue rfl rfl rfl rfl rfl (by decide) rfl (by decide) rfl (by decide) rfl, may_issue rfl rfl rfl rfl rfl (by decide) rfl (by decide) rfl (by decide) rfl⟩

/-- Undeclared, an edge, a retired neighbour; a queue with room for one entry, a full one, one with an arrived entry. -/
theorem witness_PortTransfer :
    laidLaunch.portMask / 2 ^ 0 % 2 ≠ 1 ∧ launchP.portMask / 2 ^ 3 % 2 = 1 ∧
    (stage launchP laidTeam grp1).farEnd 0 grp1 laidTeam launchP 3 = .edge ∧
    (stage launchG team2 grp1).farEnd 0 grp1 team2 launchG 2 = .retired ∧
    (stage launchP laidTeam grp1).farEnd 0 grp1 laidTeam launchP 0 = .group 0 ∧
    freeSeen (grpQ (List.replicate 7 ⟨0, false⟩)) 1 1 = 1 ∧ freeSeen (grpQ (List.replicate 8 ⟨0, false⟩)) 1 1 = 0 ∧
    (arrivedVals (grpQ [⟨5, true⟩]) 0 0).length = 1 ∧ (arrivedVals (grpQ [⟨5, false⟩]) 0 0).length = 0 := by decide

theorem witness_PortStatus :
    Issuable (.npstat (mxP 0)) { vw := [3], opc := 0x2A, out := .input } (stage launchP laidTeam grp1) 0 grp1 spot1 laidTeam
      launchP ∧ (arrivedVals grp1 0 0).length < 16 := ⟨may_issue rfl rfl rfl rfl rfl (by decide) rfl (by decide) rfl (by decide) rfl, by decide⟩

/-- Neighbours on each side, and the edges of the grid. -/
theorem witness_PortsAreMutual : stepCore 0 2 = some 1 ∧ stepCore 1 3 = some 0 ∧ stepCore 4 4 = some 0 ∧ stepCore 0 5 = some 4 ∧
    (stepCore 0 6).isSome = true ∧ stepCore 95 2 = none ∧ destLane 0 31 = 0 ∧ destLane 1 0 = 31 := by decide

theorem witness_LaneExchange :
    (∀ z : BitVec 2, Issuable (.shfl { data := 4, off := 2, base := if z = 0 then 0 else 6, dc := 0, sz := z })
      { vr := if z.toNat = 0 then [4, 2] else [2], sr := if z.toNat = 0 then [] else [(if z = 0 then (0 : BitVec 7) else 6).toNat]
        vw := [4], dc := 0, opc := 0x2B, sz := z.toNat, lanes := fun r _ act => if r = 2 then 0xFFFFFFFF else act } base 0 grp spot laidTeam laidLaunch ∧
      Issuable (.vote { data := 7, off := 3, base := 0, dc := 1, sz := z }) { vr := [3], vw := [7], dc := 1, opc := 0x2C, sz := z.toNat }
        base 0 grp spot laidTeam laidLaunch) ∧ spot.active ≠ 0 := by
  refine ⟨?_, by decide⟩
  intro z
  refine ⟨base_issues ?_ ?_, base_issues ?_ ?_⟩ <;> revert z <;> decide

/-- Control words 10, the last operation, and 11, which names none. -/
def grpOp (n : DWord) : Group := { grp with clause := some spot1, sregs := [(10, n), (11, 0x1000), (12, 1)] }

theorem witness_LaneFolds : ∀ n ∈ [(0 : DWord), 10, 11],
    Issuable (.redux { data := 8, off := 5, base := 10, dc := 6, sz := 0 })
      { vr := [5], sr := [10], vw := [8], dc := 6, opc := 0x2D, sz := 0 } (stage laidLaunch laidTeam (grpOp n)) 0 (grpOp n) spot1 laidTeam
      laidLaunch ∧
    (∀ z ∈ [(0 : BitVec 2), 1], Issuable (.prfx { data := 9, off := 5, base := 10, dc := 2, sz := z })
      { vr := [5], sr := [10], vw := [9], dc := 2, opc := 0x2E, sz := z.toNat } (stage laidLaunch laidTeam (grpOp n)) 0 (grpOp n) spot1
      laidTeam laidLaunch) := by
  intro n hn
  simp only [List.mem_cons, List.not_mem_nil, or_false] at hn
  rcases hn with rfl | rfl | rfl
  all_goals
    refine ⟨may_issue rfl rfl rfl rfl rfl (by decide) rfl (by decide) rfl (by decide) rfl, ?_⟩
    intro z hz
    simp only [List.mem_cons, List.not_mem_nil, or_false] at hz
    rcases hz with rfl | rfl <;> exact may_issue rfl rfl rfl rfl rfl (by decide) rfl (by decide) rfl (by decide) rfl

theorem witness_LaneFolds_words : (reductions[10]?).isSome = true ∧ (reductions[11]?).isSome = false := by decide

theorem witness_LongFolds :
    Issuable (.reduxLong { data := 8, off := 0, base := 10, dc := 6, sz := 2 })
      { vr := [8], sr := span 10 3, vw := [8], opc := 0x2D, sz := 2, out := .input }
      (withPage page (stage laidLaunch laidTeam (grpOp 0))) 0 (grpOp 0) spot1 laidTeam laidLaunch ∧
    Issuable (.prfxLong { data := 8, off := 0, base := 10, dc := 6, sz := 3 })
      { vr := [8], sr := span 10 3, vw := [8], opc := 0x2E, sz := 3, out := .input }
      (withPage page (stage laidLaunch laidTeam (grpOp 0))) 0 (grpOp 0) spot1 laidTeam laidLaunch ∧
    (withPage page (stage laidLaunch laidTeam (grpOp 0))).loadsOf 0 = [] ∧ (grpOp 0).wait = none ∧
    nextRow (grpOp 0) < (((grpOp 0).view 0).sreg 12).toNat % 2 ^ 32 ∧
    Granted (withPage page (stage laidLaunch laidTeam (grpOp 0)))
      (seen (withPage page (stage laidLaunch laidTeam (grpOp 0))) 0 (grpOp 0) spot1 laidTeam laidLaunch) .load (.load 4) false 4
      [(0, 0x1000)] [⟨0, 0x1000, .ok 0x11000 page⟩] (withPage page (stage laidLaunch laidTeam (grpOp 0))) ∧
    Granted (withPage page (stage laidLaunch laidTeam (grpOp 0)))
      (seen (withPage page (stage laidLaunch laidTeam (grpOp 0))) 0 (grpOp 0) spot1 laidTeam laidLaunch) .store .store true 4
      [(0, 0x1000)] [⟨0, 0x1000, .ok 0x11000 page⟩] (withPage page (stage laidLaunch laidTeam (grpOp 0))) :=
  ⟨may_issue rfl rfl rfl rfl rfl (by decide) rfl (by decide) rfl (by decide) rfl, may_issue rfl rfl rfl rfl rfl (by decide) rfl (by decide) rfl (by decide) rfl, rfl, rfl, by decide, ⟨rfl, by
    intro p hp; simp only [List.mem_cons, List.not_mem_nil, or_false] at hp; subst hp; exact ⟨_, _, rfl, by decide⟩⟩, ⟨rfl, by
    intro p hp; simp only [List.mem_cons, List.not_mem_nil, or_false] at hp; subst hp; exact ⟨_, _, rfl, by decide⟩⟩⟩

/-- With every element done. -/
theorem witness_LongFolds_done : (((({ grpOp 0 with pidx := BitVec.ofNat 33 (2 ^ 32 + 1) } : Group).view 0).sreg 12).toNat % 2 ^ 32) ≤
    nextRow { grpOp 0 with pidx := BitVec.ofNat 33 (2 ^ 32 + 1) } := by decide

/-! ## Witnesses: lids, fences, seals, caches -/

/-- A group that logged a store on a page that is not present. -/
def logged (g : Group) : State :=
  { stage laidLaunch laidTeam g with
    cores := [(0, { freshCore with log := [⟨0, 0, 0, 0, 0, 0, 0, 0, 0x1000, ⟨0, 1⟩, none, 0, false⟩] })] }

theorem witness_FenceResult :
    (∀ k ∈ [(0 : BitVec 6), 5], Issuable (.fence { data := 0, off := k, base := 0, dc := 6, sz := 0 })
      { dc := 6, opc := 0x1A, out := .input } base 0 grp spot laidTeam laidLaunch) ∧
    Issuable (.fence { data := 0, off := 4, base := 0, dc := 0, sz := 0 }) { dc := 0, opc := 0x1A, out := .input } base 0 grp spot laidTeam
      laidLaunch ∧ base.loggedBy 0 = false ∧ grp.ops = [] ∧ base.peers = [] := by
  refine ⟨?_, base_issues rfl (by decide), rfl, rfl, rfl⟩
  intro k hk
  simp only [List.mem_cons, List.not_mem_nil, or_false] at hk
  rcases hk with rfl | rfl <;> exact base_issues rfl (by decide)

/-- A lid at 0x1000 in s10; the words of a free lid, one held shared and one held alone. -/
theorem witness_LidResult :
    Issuable (.acq { data := 0, off := 0, base := 10, dc := 6, sz := 0 }) { sr := [10], opc := 0x18, sz := 0, out := .input } memBase 0 grp1
      spot1 laidTeam laidLaunch ∧
    Issuable (.rel { data := 0, off := 0, base := 10, dc := 0, sz := 1 }) { sr := [10], dc := 0, opc := 0x19, sz := 1, out := .input } memBase
      0 grp1 spot1 laidTeam laidLaunch ∧
    Issuable (.rel { data := 0, off := 0, base := 10, dc := 6, sz := 0 }) { sr := [10], dc := 6, opc := 0x19, sz := 0, out := .input } memBase
      0 grp1 spot1 laidTeam laidLaunch ∧
    memBase.loadsOf 0 = [] ∧ grp1.wait = none ∧
    memBase.probe (seen memBase 0 grp1 spot1 laidTeam laidLaunch) .store .atomic false 8 [(0, 0x1000)] =
      ([⟨0, 0x1000, .ok 0x11000 page⟩], memBase) ∧ spaceOf 0x11000 ≠ .link :=
  ⟨may_issue rfl rfl rfl rfl rfl (by decide) rfl (by decide) rfl (by decide) rfl, may_issue rfl rfl rfl rfl rfl (by decide) rfl (by decide) rfl (by decide) rfl, may_issue rfl rfl rfl rfl rfl (by decide) rfl (by decide) rfl (by decide) rfl, rfl, rfl, rfl, by decide⟩

theorem witness_LidResult_words : (memBase.lidWord 0x11000).1 = 0 ∧
    (({ memBase with mem := [(0x11007, 0x80)] } : State).lidWord 0x11000).1 = 2 ^ 63 ∧
    (({ memBase with mem := [(0x11000, 2)] } : State).lidWord 0x11000).1 = 2 := by decide +kernel

theorem witness_LidEffect : Memory.wf [((0x11000 : Nat), (2 : BitVec 8))] = true ∧ memBase.home 8 0x11000 = .here 0x11000 ∧
    spaceOf 0x11000 = .hbm ∧ 0x11000 % 8 = 0 ∧ memBase.bound 0 0x1000 = false := by decide

def grpT (xs : List (Nat × DWord)) : Group := { grp with clause := some spot1, sregs := xs }

theorem witness_LidTable :
    (∀ n ∈ [(0 : DWord), 128, 2 ^ 40, 2 ^ 40 + 1], Issuable (.lidbind { data := 0, off := 0, base := 24, dc := 6, sz := 0 })
      (baseShape { data := 0, off := 0, base := 24, dc := 6, sz := 0 } 3 [27] 0x1B)
      (stage laidLaunch laidTeam (grpT [(24, 0x1000), (25, 0x2000), (26, n)])) 0 (grpT [(24, 0x1000), (25, 0x2000), (26, n)]) spot1 laidTeam
      laidLaunch) ∧
    Issuable (.lidunb { data := 0, off := 0, base := 24, dc := 6, sz := 0 })
      (baseShape { data := 0, off := 0, base := 24, dc := 6, sz := 0 } 1 [25] 0x1C) base 0 grp spot laidTeam laidLaunch ∧
    (∀ n < 256, ∃ x ∈ (List.range 256).map (fun n => LidBind.mk n 0 0 1), x.entry = n) := by
  refine ⟨?_, base_issues rfl (by decide), ?_⟩
  · intro n hn
    simp only [List.mem_cons, List.not_mem_nil, or_false] at hn
    rcases hn with rfl | rfl | rfl | rfl <;> exact may_issue rfl rfl rfl rfl rfl (by decide) rfl (by decide) rfl (by decide) rfl
  · intro n hn
    exact ⟨⟨n, 0, 0, 1⟩, List.mem_map.2 ⟨n, List.mem_range.2 hn, rfl⟩, rfl⟩

theorem witness_SealResult :
    (∀ n ∈ [(0 : DWord), 128, 2 ^ 40, 2 ^ 40 + 1], Issuable (.seal { data := 0, off := 0, base := 24, dc := 6, sz := 0 })
      (baseShape { data := 0, off := 0, base := 24, dc := 6, sz := 0 } 2 [26] 0x1D)
      (stage laidLaunch laidTeam (grpT [(24, 0x1000), (25, n)])) 0 (grpT [(24, 0x1000), (25, n)]) spot1 laidTeam laidLaunch) ∧
    Issuable (.unseal { data := 0, off := 0, base := 24, dc := 6, sz := 0 })
      (baseShape { data := 0, off := 0, base := 24, dc := 6, sz := 0 } 1 [25] 0x1E) base 0 grp spot laidTeam laidLaunch ∧
    (0x1000 < 0x1080 + 128 ∧ 0x1080 < 0x1000 + 256) ∧ ¬ (0x1000 < 0x1100 + 128 ∧ 0x1100 < 0x1000 + 256) ∧
    64 ≤ ((List.range 64).map fun n => (n * 4096, 128)).length := by
  refine ⟨?_, base_issues rfl (by decide), by decide, by decide, by decide⟩
  intro n hn
  simp only [List.mem_cons, List.not_mem_nil, or_false] at hn
  rcases hn with rfl | rfl | rfl | rfl <;> exact may_issue rfl rfl rfl rfl rfl (by decide) rfl (by decide) rfl (by decide) rfl

theorem witness_CacheControl :
    (∀ z ∈ [(0 : BitVec 2), 1], Issuable (.cinv { data := 0, off := 0, base := 10, dc := 2, sz := z })
      { sr := span 10 2, dc := 2, opc := 0x1F, sz := z.toNat, out := .input } base 0 grp spot laidTeam laidLaunch) ∧
    Issuable (.cinv { data := 0, off := 0, base := 0, dc := 6, sz := 2 }) { sr := [], dc := 6, opc := 0x1F, sz := 2, out := .input } base 0 grp
      spot laidTeam laidLaunch ∧
    Issuable (.tlbinv { p := 68, q := 69, imm := 5, lit := none }) { sr := codeS 68 ++ codeS 69, out := .input }
      (stage laidLaunch laidTeam grpP) 0 grpP spot laidTeam laidLaunch ∧
    Issuable (.l2wb { p := 72, q := 73, imm := 3, lit := none }) { sr := codeS 72 ++ codeS 73, out := .input }
      (stage laidLaunch laidTeam grpP) 0 grpP spot laidTeam laidLaunch ∧
    (stage laidLaunch laidTeam grpP).loggedBy 0 = false ∧ grpP.ops = [] ∧ (logged grpP).loggedBy 0 = true := by
  refine ⟨?_, base_issues rfl (by decide), may_issue rfl rfl rfl rfl rfl (by decide) rfl (by decide) rfl (by decide) rfl, may_issue rfl rfl rfl rfl rfl (by decide) rfl (by decide) rfl (by decide) rfl, rfl, rfl, by decide⟩
  intro z hz
  simp only [List.mem_cons, List.not_mem_nil, or_false] at hz
  rcases hz with rfl | rfl <;> exact base_issues rfl (by decide)


/-! ## Witnesses: copies and batches -/

/-- A copy's descriptor in s16: `n` bytes between 0x1000 and the start of the buffer. -/
def grpCp (ctl : DWord) (n : DWord) : Group := { grp with clause := some spot1, sregs :=
  [(16, 0x1000), (17, buf0.handle 0), (18, ctl), (19, n + 2 ^ 24 + 2 ^ 40), (20, 0), (21, 0), (22, 1)] }
def cpOn (x : Option Circ) (ctl n : DWord) : State := padOn x (grpCp ctl n)
def mxCp : MX := { data := 0, off := 0, base := 16, dc := 0, sz := 0 }

theorem witness_MemoryCopyIssue :
    (∀ p ∈ [((.cpg2s mxCp : Instr), 0x2F, 6), (.cps2g mxCp, 0x30, 6), (.cpmc mxCp, 0x31, 7)],
      ∀ n ∈ [(0 : DWord), 256, 2097153], Issuable p.1 (copyShape mxCp p.2.1 p.2.2) (cpOn none 0 n) 0 (grpCp 0 n) spot1 laidTeam
        laidLaunch) ∧
    Issuable (.cpg2s { mxCp with dc := 6, sz := 1 }) (copyShape { mxCp with dc := 6, sz := 1 } 0x2F 6) (cpOn none 0 256) 0
      (grpCp 0 256) spot1 laidTeam laidLaunch ∧
    Issuable (.cpg2s { mxCp with dc := 6 }) (copyShape { mxCp with dc := 6 } 0x2F 6) (cpOn (some ring) (2 ^ 36) 256) 0
      (grpCp (2 ^ 36) 256) spot1 laidTeam laidLaunch := by
  refine ⟨?_, may_issue rfl rfl rfl rfl rfl (by decide) rfl (by decide) rfl (by decide) rfl, may_issue rfl rfl rfl rfl rfl (by decide) rfl (by decide) rfl (by decide) rfl⟩
  intro p hp n hn
  simp only [List.mem_cons, List.not_mem_nil, or_false] at hp hn
  rcases hp with rfl | rfl | rfl <;> rcases hn with rfl | rfl | rfl <;> exact may_issue rfl rfl rfl rfl rfl (by decide) rfl (by decide) rfl (by decide) rfl

/-- Descriptors that are malformed by their size, an undefined bit, a slot where there is none, and one that is not. -/
theorem witness_MemoryCopyIssue_boxes :
    (let w := fun n c k => ((grpCp c n).view 0).sreg (16 + k)
     boxMalformed .g2s 0 (w 0 0) ∧ boxMalformed .g2s 0 (w 2097153 0) ∧ ¬ boxMalformed .g2s 0 (w 2097152 0) ∧
     boxMalformed .g2s 0 (w 256 (2 ^ 40)) ∧ boxMalformed .s2g 0 (w 256 (2 ^ 35)) ∧ ¬ boxMalformed .s2g 0 (w 256 0) ∧
     boxMalformed .g2s 0 (w 256 (2 ^ 36 + 4)) ∧ boxMalformed .multi 0 (w 256 0) ∧
     ¬ boxMalformed .mem 0 (w 256 (4 * 2 ^ 37))) := by
  refine ⟨?_, ?_, ?_, ?_, ?_, ?_, ?_, ?_, ?_⟩ <;> (unfold boxMalformed; decide +kernel)

theorem witness_MemoryCopyIssue_walks :
    (cpOn none 0 256).walkRanges 0 0 false .engineRead [(0x1000, 256)] = ([], cpOn none 0 256) ∧
    (cpOn none 0 256).walkRanges 0 0 false .engineWrite [(0x1000, 256)] = ([], cpOn none 0 256) ∧
    (boxOf (descr (cpOn none 0 256) (grpCp 0 256) mxCp 6)).ranges = [(0x1000, 256)] ∧
    ((cpOn none 0 256).copiesOf 0).length < 64 ∧ (cpOn (some ring) (2 ^ 36) 256).copiesOf 0 = [] ∧
    (buf0.handle 0 = ((grpCp 0 256).view 0).sreg 17 ∧ 0 < ring.free) ∧
    (((cpOn (some ring) (2 ^ 36) 256).core 0).bufOf 0 (buf0.handle 0)).isSome = true := by decide +kernel

/-- CPXF: a source row of 16 bytes at 0x1000, whose chain record stands at 0x2000. -/
def grpXf : Group := { grp with clause := some spot1, sregs := [(16, 0x1000), (17, buf0.handle 0), (19, 0x2000)] }
def xfOn : State := { padOn none grpXf with mem := [(0x12000, 1), (0x12008, 16), (0x1200A, 1), (0x1200C, 1)] }

theorem witness_EngineCopyIssue_xform :
    Issuable (.cpxf mxCp) (copyShape mxCp 0x32 6) xfOn 0 grpXf spot1 laidTeam laidLaunch ∧ grpXf.wait = none ∧ xfOn.loadsOf 0 = [] ∧
    Granted xfOn (seen xfOn 0 grpXf spot1 laidTeam laidLaunch) .load (.load 64) false 64 [(0, 0x2000), (1, 0x2040)]
      [⟨0, 0x2000, .ok 0x12000 page⟩, ⟨1, 0x2040, .ok 0x12040 page⟩] xfOn := by
  refine ⟨may_issue rfl rfl rfl rfl rfl (by decide) rfl (by decide) rfl (by decide) rfl, rfl, rfl, by decide +kernel, ?_⟩
  intro p hp
  simp only [List.mem_cons, List.not_mem_nil, or_false] at hp
  rcases hp with rfl | rfl <;> exact ⟨_, _, rfl, by decide⟩

/-- The record passes; one of version 0 does not. -/
theorem witness_EngineCopyIssue_record :
    (let ps : List Probe := [⟨0, 0x2000, .ok 0x12000 page⟩, ⟨1, 0x2040, .ok 0x12040 page⟩]
     let rd := xfOn.readLanes (seen xfOn 0 grpXf spot1 laidTeam laidLaunch) 64 [] readLdg ps
     let x := xformOf (bytesOf rd.1 0 ++ bytesOf rd.1 1) 0x1000 0 0 0
     (rd.2.checkXform 0 0 false (ctlOf 0) x).1 = .ok ∧ x.outBytes = 32 ∧ { x with version := 0 }.malformed = true) := by decide +kernel

/-- A tensor of 64 × 2 elements of 4 bytes with handle 0, and a copy of `e0` elements of its row `c1`. -/
def tens : Tensor := { gen := 0, esz := 4, ndim := 2, dims := [64, 2], layout := 0, tower := 0, start := 0, size := 512, destroying := false }
def grpTs (c1 e0 : DWord) : Group := { grp with clause := some spot1, sregs :=
  [(17, buf0.handle 0), (19, 2 ^ 16 * c1), (20, 2 ^ 16 * e0 + 2 ^ 32 + 2 ^ 48)] }
def tsOn (c1 e0 : DWord) : State := { padOn none (grpTs c1 e0) with ctxs := [(0, { freshCtx with st := .resident, tensors := [(0, tens)] })] }

theorem witness_EngineCopyIssue_tensor : ∀ p ∈ [((.cpt2s mxCp : Instr), 0x33), (.cps2t mxCp, 0x34)],
    Issuable p.1 (copyShape mxCp p.2 5) (tsOn 1 64) 0 (grpTs 1 64) spot1 laidTeam laidLaunch ∧
    Issuable p.1 (copyShape mxCp p.2 5) (tsOn 2 64) 0 (grpTs 2 64) spot1 laidTeam laidLaunch ∧
    Issuable p.1 (copyShape mxCp p.2 5) (cpOn none 0 256) 0 (grpCp 0 256) spot1 laidTeam laidLaunch := by
  intro p hp
  simp only [List.mem_cons, List.not_mem_nil, or_false] at hp
  rcases hp with rfl | rfl <;> exact ⟨may_issue rfl rfl rfl rfl rfl (by decide) rfl (by decide) rfl (by decide) rfl, may_issue rfl rfl rfl rfl rfl (by decide) rfl (by decide) rfl (by decide) rfl, may_issue rfl rfl rfl rfl rfl (by decide) rfl (by decide) rfl (by decide) rfl⟩

theorem witness_EngineCopyIssue_boxes :
    (let w := fun k => ((grpTs 1 64).view 0).sreg (16 + k)
     ¬ tboxMalformed .t2s 4 w ∧ ((tsOn 1 64).ctx 0).tensorOf (w 0).toNat = some tens ∧
     tboxMalformed .t2s 4 (fun k => if k = 2 then 2 else w k) ∧ tens.dim 1 < 2 + 1 ∧ 1 + 1 ≤ tens.dim 1 ∧ 0 + 64 ≤ tens.dim 0 ∧
     1 ≤ tens.dim 2 ∧ 1 ≤ tens.dim 4 ∧ ((tsOn 1 64).ctx 0).tensorOf 0x1000 = none ∧
     (tsOn 1 64).bankGone ⟨.tsBank, 0⟩ = false) := by
  refine ⟨?_, ?_, ?_, ?_⟩
  · unfold tboxMalformed; decide +kernel
  · decide +kernel
  · unfold tboxMalformed; decide +kernel
  · decide +kernel

/-- A CPG2S of 256 bytes of group 0 under counter 0. -/
def cp1 : Copy := { newCopy 0 0 0 0 0 0x2F 0 (descr (cpOn none 0 256) (grpCp 0 256) mxCp 6) [] 256 0 0 with
  ends := [⟨0, 0, 1, 0, 2048, none⟩] }
def cpRun (x : Copy) : State :=
  { cpOn none 0 256 with
    copies := [(0, x)]
    groups := [(0, { grpCp 0 256 with ops := [⟨0, 0, 0x2F, 0, [], [], .copy 0, 0⟩], dcs := [(0, 1)] })] }

theorem witness_CopyProgress : (cpRun cp1).copies.find (cpRun cp1).arg.a = some cp1 ∧ cp1.total < 192 + 128 ∧ 128 + 128 ≤ cp1.total ∧
    128 % 128 = 0 ∧ copyKind cp1.opc cp1.sz ≠ .xform ∧ cp1.total ≤ ([(128, 128), (0, 128)].map fun p : Nat × Nat => p.2).sum ∧
    (cpRun cp1).peers = [] ∧ ((cpRun cp1).piece 0 cp1 128 128).1.isSome = true ∧
    CutsAt (cpRun cp1) cp1 128 ∧ CutsAt (cpRun cp1) cp1 256 ∧ (∀ p ∈ [(0, 128)], ¬ (p.1 < 128 + 128 ∧ 128 < p.1 + p.2)) := by
  unfold CutsAt
  decide +kernel

theorem witness_CopyProgress_put :
    (match (cpRun cp1).piece 0 cp1 128 128 with
     | (some l, s) => (s.putPiece .copyWrite 0 3 cp1 l).1.isSome
     | _ => false) = true := by decide +kernel

/-- A landed slot before one that has not landed. -/
theorem witness_CopyProgress_slots :
    (let y : Circ := { ring with claims := [(0, true), (1, false)] }
     ((cpOn (some y) 0 256).core 0).bufs.find 0 = some { buf0 with circ := some y } ∧ (y.claims.takeWhile (·.2)).length = 1) := by
  decide

def mxB : MX := { data := 0, off := 0, base := 10, dc := 6, sz := 0 }

theorem witness_BatchesAndByteCounters :
    Issuable (.cseal mxB) { sw := [10], opc := 0x35, out := .input } { cpOn none 0 256 with copies := [(0, cp1)] } 0 (grpCp 0 256) spot1
      laidTeam laidLaunch ∧ ({ cpOn none 0 256 with copies := [(0, cp1)] } : State).copies.find 0 = some cp1 := ⟨may_issue rfl rfl rfl rfl rfl (by decide) rfl (by decide) rfl (by decide) rfl, rfl⟩

theorem witness_BatchesAndByteCounters_wait :
    Issuable (.cwait { mxB with dc := 2 }) { sr := [10], dc := 2, opc := 0x36, out := .input } memBase 0 grp1 spot1 laidTeam laidLaunch ∧
    Issuable (.cwait mxB) { sr := [10], dc := 6, opc := 0x36, out := .input } memBase 0 grp1 spot1 laidTeam laidLaunch ∧
    grp1.ops.length < 16 ∧ baseReg memBase grp1 mxB 0 = 0x1000 ∧ memBase.copies = [] := ⟨may_issue rfl rfl rfl rfl rfl (by decide) rfl (by decide) rfl (by decide) rfl, may_issue rfl rfl rfl rfl rfl (by decide) rfl (by decide) rfl (by decide) rfl, by decide, by decide, rfl⟩

theorem witness_BatchesAndByteCounters_bytes :
    (∀ n ∈ [(0 : DWord), 2 ^ 40 - 1, 2 ^ 40], Issuable (.bcarm { p := 74, q := 0, imm := 3, lit := none })
      { sr := codeS 74, out := .input } (stage laidLaunch laidTeam (grpOp n)) 0 (grpOp n) spot1 laidTeam laidLaunch) ∧
    (∀ u ∈ [laidTeam, { laidTeam with bcs := [(3, (0, 1))] }],
      Issuable (.bcwait { p := 0, q := 0, imm := 3, lit := none }) { out := .input } (stage laidLaunch u grp1) 0 grp1 spot1 u laidLaunch) ∧
    (laidTeam.bc 0 3).2 ≤ (laidTeam.bc 0 3).1 ∧
    ({ laidTeam with bcs := [(3, (0, 1))] } : Team).bc 0 3 = (0, 1) := by
  refine ⟨?_, ?_, by decide, by decide⟩
  · intro n hn
    simp only [List.mem_cons, List.not_mem_nil, or_false] at hn
    rcases hn with rfl | rfl | rfl <;> exact may_issue rfl rfl rfl rfl rfl (by decide) rfl (by decide) rfl (by decide) rfl
  · intro u hu
    simp only [List.mem_cons, List.not_mem_nil, or_false] at hu
    rcases hu with rfl | rfl <;> exact may_issue rfl rfl rfl rfl rfl (by decide) rfl (by decide) rfl (by decide) rfl

/-! ## Witnesses: barriers, reductions, signals, queues and tasks -/

def cx1 (k : BitVec 10) : CXR := { p := 2, q := 3, imm := k, lit := none }
def cxB (k : BitVec 10) : CXR := { p := 0, q := 0, imm := k, lit := none }
def grpB (x : BarSt) (w : Option Wait) : Group := { grp with bars := [x, .none, .none, .none], wait := w }

theorem witness_TeamBarriers :
    (∀ i ∈ [(.bar (cxB 0) : Instr), .bara (cxB 0), .barw (cxB 0)], Issuable i { out := .input } (stage laidLaunch laidTeam
      { grp with hmode := true }) 0 { grp with hmode := true } spot laidTeam laidLaunch) ∧
    (∀ x ∈ [BarSt.none, .arrived, .passed], ∀ w ∈ [none, some (⟨.barrier 0, 0, 0, 0, 0⟩ : Wait)],
      Issuable (.bar (cxB 0)) { out := .input } (stage laidLaunch laidTeam (grpB x w)) 0 (grpB x w) spot laidTeam laidLaunch ∧
      Issuable (.bara (cxB 0)) { out := .input } (stage laidLaunch laidTeam (grpB x w)) 0 (grpB x w) spot laidTeam laidLaunch ∧
      Issuable (.barw (cxB 0)) { out := .input } (stage laidLaunch laidTeam (grpB x w)) 0 (grpB x w) spot laidTeam laidLaunch) ∧
    laidTeam.bars.length = 4 ∧ grp.bars.length = 4 ∧ grp.hmode = false := by
  refine ⟨?_, ?_, rfl, rfl, rfl⟩
  · intro i hi
    simp only [List.mem_cons, List.not_mem_nil, or_false] at hi
    rcases hi with rfl | rfl | rfl <;> exact may_issue rfl rfl rfl rfl rfl (by decide) rfl (by decide) rfl (by decide) rfl
  · intro x hx w hw
    simp only [List.mem_cons, List.not_mem_nil, or_false] at hx hw
    rcases hx with rfl | rfl | rfl <;> rcases hw with rfl | rfl <;> exact ⟨may_issue rfl rfl rfl rfl rfl (by decide) rfl (by decide) rfl (by decide) rfl, may_issue rfl rfl rfl rfl rfl (by decide) rfl (by decide) rfl (by decide) rfl, may_issue rfl rfl rfl rfl rfl (by decide) rfl (by decide) rfl (by decide) rfl⟩

/-- A team whose barrier 0 expects one group: nobody has arrived, and it has. -/
theorem witness_TeamBarriers_release :
    (let t : Team := { laidTeam with bars := ⟨1, 1, false⟩ :: List.replicate 3 ⟨1, 0, false⟩ }
     t.onCores = true ∧ (t.bar 0).arr = (t.bar 0).exp ∧ 0 < (t.bar 0).arr ∧ (laidTeam.bar 0).arr ≠ (laidTeam.bar 0).exp) := by decide

/-- Groups 0 and 1 of a team of two that joined a reduction, with operation codes `a` and `b`. -/
def joinedGrp (num : Nat) (a : BitVec 10) : Group :=
  { grp with num := num, st := .waiting, wait := some ⟨.treduce, 0, 0, 0, 0⟩
             clause := some { spot with words := encode (.treduce (cx1 a)) ++ List.replicate 14 0 } }
def joinedOn (a b : BitVec 10) : State :=
  { base with launches := [(0, { laidLaunch with desc := laidDescriptor.set 0x10 2 })]
              teams := [(0, { laidTeam with per := 2, members := [.on 0, .on 1] })], groups := [(0, joinedGrp 0 a), (1, joinedGrp 1 b)] }

theorem witness_TeamReduction_join : Issuable (.treduce (cx1 0)) { vr := [2], vw := [3], out := .input } base 0 grp spot laidTeam laidLaunch ∧
    Issuable (.treduce (cx1 0)) { vr := [2], vw := [3], out := .input } (stage laidLaunch laidTeam { grp with hmode := true }) 0
      { grp with hmode := true } spot laidTeam laidLaunch := ⟨may_issue rfl rfl rfl rfl rfl (by decide) rfl (by decide) rfl (by decide) rfl, may_issue rfl rfl rfl rfl rfl (by decide) rfl (by decide) rfl (by decide) rfl⟩

theorem witness_TeamReduction :
    ((joinedOn 10 10).joined 0).length = 2 ∧ ((joinedOn 10 10).joined 0).all (fun j => j.f.imm.toNat % 16 == 10) = true ∧
    (reductions[10]?).isSome = true ∧ field (laidDescriptor.set 0x10 2) 0x10 2 = 2 ∧ 2 ≤ 2 ^ 1 ∧ 2 ^ (1 - 1) < 2 ∧
    (((joinedOn 10 10).groupsOf 0).filter fun p => ! p.2.shadow).length = 2 ∧ laidLaunch.redundant = false ∧
    ((joinedOn 0 1).joined 0).map (fun j => j.f.imm.toNat % 16) = [0, 1] := by decide +kernel

/-- A signal at 0x1000 holding 5, and the value 5 and 6 in s11. -/
def grpSig (v : DWord) : Group := grpT [(10, 0x1000), (11, v)]
def sigOn (v : DWord) : State := { withPage page (stage laidLaunch laidTeam (grpSig v)) with mem := [(0x11000, 5)] }
def mxS (d : BitVec 3) : MX := { data := 0, off := 0, base := 10, dc := d, sz := 0 }

theorem witness_SignalResult : ∀ v ∈ [(5 : DWord), 6], ∀ d ∈ [(0 : BitVec 3), 6],
    Issuable (.sigadd (mxS d)) { sr := span 10 2, dc := d.toNat, opc := 0x38, sz := 0, out := .output } (sigOn v) 0 (grpSig v) spot1
      laidTeam laidLaunch ∧
    Issuable (.sigwait (mxS d)) { sr := span 10 2, sw := [12], dc := d.toNat, opc := 0x39, sz := 0, out := .input } (sigOn v) 0 (grpSig v)
      spot1 laidTeam laidLaunch ∧
    OneGranted (sigOn v) (seen (sigOn v) 0 (grpSig v) spot1 laidTeam laidLaunch) .atomic .atomic true 8 (0, 0x1000) 0x11000 (sigOn v) ∧
    OneGranted (sigOn v) (seen (sigOn v) 0 (grpSig v) spot1 laidTeam laidLaunch) .load (.load 8) false 8 (0, 0x1000) 0x11000 (sigOn v) ∧
    (sigOn v).reserveHolds 0x11000 = false ∧ (grpSig v).reserved = false ∧ (sigOn v).fenceReady 0 5 (grpSig v).ops = true := by
  intro v hv d hd
  simp only [List.mem_cons, List.not_mem_nil, or_false] at hv hd
  rcases hv with rfl | rfl <;> rcases hd with rfl | rfl <;>
    exact ⟨may_issue rfl rfl rfl rfl rfl (by decide) rfl (by decide) rfl (by decide) rfl, may_issue rfl rfl rfl rfl rfl (by decide) rfl (by decide) rfl (by decide) rfl, ⟨0, page, rfl, by decide, rfl⟩, ⟨0, page, rfl, by decide, rfl⟩, by decide, rfl, by decide⟩

theorem witness_SignalResult_meets : ((sigOn 5).homeWord 0 0x11000).1 = 5 ∧ signalMeets 0 5 5 ∧ ¬ signalMeets 0 6 5 ∧ signalMeets 1 6 5 ∧
    signalMeets 2 5 5 ∧ signalMeets 3 5 6 ∧ AtHome (sigOn 5) 0x11000 0x11000 ∧ Memory.wf (sigOn 5).mem = true := by
  refine ⟨by decide +kernel, ?_, ?_, ?_, ?_, ?_, ?_, by decide⟩
  iterate 5 (unfold signalMeets; decide)
  exact ⟨rfl, rfl, rfl, rfl, rfl, rfl, by decide, by decide, roomy_blank _ rfl⟩

/-- A stage queue at 0x1000 with room for two items at 0x2000; `n` items are in it. -/
def sqOn (n : Byte) (closed : Byte) : State :=
  { memBase with mem := [(0x11000, 1), (0x11009, 0x20)] ++ (if n = 0 then [] else [(0x11010, n)]) ++
      if closed = 0 then [] else [(0x11020, closed)] }

theorem witness_StageQueues : ∀ n ∈ [(0 : Byte), 1, 2], ∀ k ∈ [(0 : Byte), 1],
    Issuable (.sqadd (mxS 6)) { vr := span 0 2, sr := [10], opc := 0x3A, out := .output } (sqOn n k) 0 grp1 spot1 laidTeam laidLaunch ∧
    Issuable (.sqtake (mxS 6)) { sr := [10], vw := span 0 2, opc := 0x3B, out := .input } (sqOn n k) 0 grp1 spot1 laidTeam laidLaunch ∧
    OneGranted (sqOn n k) (seen (sqOn n k) 0 grp1 spot1 laidTeam laidLaunch) .atomic .atomic true 128 (0, 0x1000) 0x11000 (sqOn n k) ∧
    grp1.pidx = 0 := by
  intro n hn k hk
  simp only [List.mem_cons, List.not_mem_nil, or_false] at hn hk
  rcases hn with rfl | rfl | rfl <;> rcases hk with rfl | rfl <;> exact ⟨may_issue rfl rfl rfl rfl rfl (by decide) rfl (by decide) rfl (by decide) rfl, may_issue rfl rfl rfl rfl rfl (by decide) rfl (by decide) rfl (by decide) rfl, ⟨0, page, rfl, by decide, rfl⟩, rfl⟩

theorem witness_StageQueues_fill :
    ((sqOn 1 0).sqBlock 0 0x11000).1 = ⟨2, 0x2000, 1, 0, false⟩ ∧ ((sqOn 0 1).sqBlock 0 0x11000).1 = ⟨2, 0x2000, 0, 0, true⟩ ∧
    ¬ (2 < 1 - 0 + 1) ∧ 2 < 2 - 0 + 1 ∧ (activeLanes spot1).length = 1 ∧
    (match (sqOn 1 0).sqItems (seen (sqOn 1 0) 0 grp1 spot1 laidTeam laidLaunch) .store .store true [0x2008] with
     | (.open, ps, s) => ps == [⟨0, 0x2008, .ok 0x12008 page⟩] && Memory.wf s.mem && s.towers.all fun p => p.2.l2.isEmpty
     | _ => false) = true ∧
    (match (sqOn 1 0).sqItems (seen (sqOn 1 0) 0 grp1 spot1 laidTeam laidLaunch) .load (.load 8) false [0x2000] with
     | (.open, ps, s) => ps == [⟨0, 0x2000, .ok 0x12000 page⟩] && Memory.wf s.mem
     | _ => false) = true ∧
    (match (sqOn 0 1).sqItems (seen (sqOn 0 1) 0 grp1 spot1 laidTeam laidLaunch) .load (.load 8) false [] with
     | (.open, [], _) => true
     | _ => false) = true ∧ Memory.wf (sqOn 1 0).mem = true ∧ 0x11010 ≠ 0x12008 := by decide +kernel

theorem witness_StageQueues_home : ∀ n ∈ [(0 : Byte), 1], ∀ a ∈ [0x11010, 0x11018, 0x12000, 0x12008], AtHome (sqOn n 0) a a := by
  intro n hn a ha
  simp only [List.mem_cons, List.not_mem_nil, or_false] at hn ha
  rcases hn with rfl | rfl <;> rcases ha with rfl | rfl | rfl | rfl <;>
    exact ⟨rfl, rfl, rfl, rfl, rfl, rfl, by decide, by decide, roomy_blank _ rfl⟩

/-- A queue control block at 0x1000 whose ring of 2^`z` places stands at 0x4000 and holds `n` records; a record at 0x3000. -/
def qcbOn (z n : Byte) : State :=
  { withPage page (stage laidLaunch laidTeam (grpT [(4, 0x1000), (5, 0x3000)])) with
    mem := (if n = 0 then [] else [(0x11000, n)]) ++ [(0x11051, 0x40)] ++ (if z = 0 then [] else [(0x11058, z)]) ++ [(0x13000, 7)] }
def cxL : CXR := { p := 68, q := 69, imm := 0, lit := none }

theorem witness_LaunchAndCancel : ∀ z ∈ [(3 : Byte), 4, 16, 17], ∀ n ∈ [(0 : Byte), 16],
    Issuable (.launch cxL) { sr := codeS 68 ++ codeS 69, out := .output } (qcbOn z n) 0 (grpT [(4, 0x1000), (5, 0x3000)]) spot1 laidTeam
      laidLaunch ∧
    Issuable (.cancel { cxL with q := 0 }) { sr := codeS 68, out := .output } (qcbOn z n) 0 (grpT [(4, 0x1000), (5, 0x3000)]) spot1 laidTeam laidLaunch ∧
    OneGranted (qcbOn z n) (seen (qcbOn z n) 0 (grpT [(4, 0x1000), (5, 0x3000)]) spot1 laidTeam laidLaunch) .atomic .atomic false 128
      (0, 0x1000) 0x11000 (qcbOn z n) ∧
    OneGranted (qcbOn z n) (seen (qcbOn z n) 0 (grpT [(4, 0x1000), (5, 0x3000)]) spot1 laidTeam laidLaunch) .atomic .atomic true 32
      (0, 0x1000) 0x11000 (qcbOn z n) ∧
    OneGranted (qcbOn z n) (seen (qcbOn z n) 0 (grpT [(4, 0x1000), (5, 0x3000)]) spot1 laidTeam laidLaunch) .load (.load 64) false 64
      (32, 0x3000) 0x13000 (qcbOn z n) ∧
    OneGranted (qcbOn z n) (seen (qcbOn z n) 0 (grpT [(4, 0x1000), (5, 0x3000)]) spot1 laidTeam laidLaunch) .store .store false 64
      (0, 0x4000) 0x14000 (qcbOn z n) := by
  intro z hz n hn
  simp only [List.mem_cons, List.not_mem_nil, or_false] at hz hn
  rcases hz with rfl | rfl | rfl | rfl <;> rcases hn with rfl | rfl <;>
    exact ⟨may_issue rfl rfl rfl rfl rfl (by decide) rfl (by decide) rfl (by decide) rfl, may_issue rfl rfl rfl rfl rfl (by decide) rfl (by decide) rfl (by decide) rfl, ⟨0, page, rfl, by decide, rfl⟩, ⟨0, page, rfl, by decide, rfl⟩, ⟨32, page, rfl, by decide, rfl⟩,
      ⟨0, page, rfl, by decide, rfl⟩⟩

theorem witness_LaunchAndCancel_room : ((qcbOn 4 15).readQcb 0x11000).1 = ⟨15, 0, 0x4000, 4⟩ ∧ 15 < 2 ^ 4 ∧
    ((qcbOn 4 16).readQcb 0x11000).1.tail = 16 ∧ ((qcbOn 3 0).readQcb 0x11000).1.logsz = 3 ∧
    (qcbOn 4 15).fenceReady 0 5 [] = true ∧ Memory.wf (qcbOn 4 15).mem = true ∧ (0x14000 : Nat) / 128 ≠ 0x11000 / 128 := by decide +kernel

/-- A task queue of context 0 on cluster 0 whose ring of two records stands at 0x2000. -/
def tq (n : Nat) : TaskQueue :=
  { ctx := 0, ring := 0x2000, logsz := 1, head := 0, tail := n, tasks := (List.range n).map fun k => newTask k 0 0 []
    aids := [], bids := [], destroying := false }
def tqOn (n : Nat) : State := { memBase with clusters := [(0, { freshCluster with tlb := [page], queues := [(0, tq n)] })] }

theorem witness_TaskInstructions :
    (∀ d ∈ [(0 : BitVec 3), 6],
      Issuable (.ttq { mxS d with base := 0 }) { vr := [0], dc := d.toNat, opc := 0x37, sz := 0, lanes := fun _ _ _ => 0xFFFF, out := .output } (tqOn 1) 0 grp1
        spot1 laidTeam laidLaunch ∧
      Issuable (.ttq { mxS d with base := 0 }) { vr := [0], dc := d.toNat, opc := 0x37, sz := 0, lanes := fun _ _ _ => 0xFFFF, out := .output } memBase 0 grp1
        spot1 laidTeam laidLaunch ∧
      Issuable (.ttqMem { mxS d with sz := 1 }) { sr := [10], dc := d.toNat, opc := 0x37, sz := 1, out := .output } (tqOn 1) 0 grp1 spot1
        laidTeam laidLaunch) ∧
    OneGranted (tqOn 1) (seen (tqOn 1) 0 grp1 spot1 laidTeam laidLaunch) .load (.load 64) false 64 (0, 0x1000) 0x11000 (tqOn 1) := by
  refine ⟨?_, 0, page, rfl, by decide, rfl⟩
  intro d hd
  simp only [List.mem_cons, List.not_mem_nil, or_false] at hd
  rcases hd with rfl | rfl <;> exact ⟨may_issue rfl rfl rfl rfl rfl (by decide) rfl (by decide) rfl (by decide) rfl, may_issue rfl rfl rfl rfl rfl (by decide) rfl (by decide) rfl (by decide) rfl, may_issue rfl rfl rfl rfl rfl (by decide) rfl (by decide) rfl (by decide) rfl⟩

theorem witness_TaskInstructions_room :
    (∀ p ∈ (memBase.cluster 0).queues, p.2.ctx ≠ 0) ∧ (tqOn 1).queueFor 0 0 = some (0, tq 1) ∧
    (tq 1).tail - (tq 1).headNow < 2 ^ (tq 1).logsz ∧ (tqOn 1).fenceReady 0 4 [] = true ∧ (tqOn 1).ttqReady 0 [] = true ∧
    ((tqOn 1).ringPlace 0 0 0x2040).1 = some 0x12040 ∧ ((tqOn 1).ttqRead 0 0 0 0x1000 false).1.isSome = true ∧
    ((tqOn 1).appendTask 0 0 0 0 []).1.isSome = true ∧ ((tqOn 2).appendTask 0 0 0 0 []).1.isSome = false := by decide +kernel

def grpF (v : DWord) : Group := { grpT [(6, v)] with ctxcfg := 1 }

theorem witness_TaskInstructions_faults :
    (∀ k ∈ [(0 : BitVec 10), 1], Issuable (.rdcont { cxr0 with imm := k }) { sw := span 6 2, out := .input } base 0 grp spot laidTeam
      laidLaunch) ∧
    (∀ v ∈ [(0 : DWord), 8, 0x8000000000000000, 0x8000000007000000], Issuable (.fltinj cxr0) { sr := [6], out := .output }
      (stage laidLaunch laidTeam (grpF v)) 0 (grpF v) spot1 laidTeam laidLaunch) := by
  refine ⟨?_, ?_⟩
  · intro k hk
    simp only [List.mem_cons, List.not_mem_nil, or_false] at hk
    rcases hk with rfl | rfl <;> exact may_issue rfl rfl rfl rfl rfl (by decide) rfl (by decide) rfl (by decide) rfl
  · intro v hv
    simp only [List.mem_cons, List.not_mem_nil, or_false] at hv
    rcases hv with rfl | rfl | rfl | rfl <;> exact may_issue rfl rfl rfl rfl rfl (by decide) rfl (by decide) rfl (by decide) rfl

/-- The profile of context 0 uses some channels but not channel 7, or another. -/
theorem witness_TaskInstructions_channels : (base.taskRun 0 0).mods.length ≤ 7 := by decide

/-! ## Witnesses: scratchpad atomics, CKPT and the events of groups -/

def mxA (data : BitVec 6) (off : BitVec 6) : MX := { data := data, off := off, base := 10, dc := 6, sz := 2 }

theorem witness_ScratchAtomicResult : ∀ p ∈ [((.aadd (mxA 4 32) : Instr), 0x09), (.acas (mxA 4 0), 0x12)], ∃ f fn sh,
    atomicOf p.1 = some (f, p.2, fn) ∧ f.sz.getLsbD 1 = true ∧
    sh = ({ vr := f.off.toNat % 32 :: span f.data.toNat (if p.2 = 0x12 then 2 else 1), sr := [f.base.toNat]
            vw := if f.off.getLsbD 5 then [] else span f.data.toNat 1, dc := f.dc.toNat, opc := p.2, sz := f.sz.toNat
            out := if f.off.getLsbD 5 then .output else .both } : Shape) ∧
    Issuable p.1 sh (padOn none (grpPad [])) 0 (grpPad []) spot1 laidTeam laidLaunch := by
  intro p hp
  simp only [List.mem_cons, List.not_mem_nil, or_false] at hp
  rcases hp with rfl | rfl <;> exact ⟨_, _, _, rfl, rfl, rfl, may_issue rfl rfl rfl rfl rfl (by decide) rfl (by decide) rfl (by decide) rfl⟩

theorem witness_ScratchAtomicResult_lanes :
    (let s := padOn none (grpPad []); let e := seen s 0 (grpPad []) spot1 laidTeam laidLaunch
     spTraps (s.spProbe e (buf0.handle 0) 4 true [(0, 0)]) = [] ∧
     (causeOf (spTraps (s.spProbe e (buf0.handle 0) 4 true [(0, 2)]))).isSome = true ∧
     (s.spProbe e (buf0.handle 0) 4 true [(0, 2044)]).map (·.cls) = [.ok 1 1020]) := by decide +kernel

theorem witness_ScratchAtomicResult_operation : ∀ m : Nat, m < 2 ^ (8 * 4) → (m + 1) % 2 ^ 32 < 2 ^ (8 * 4) := by
  intro m _; exact Nat.mod_lt _ (by decide)

/-- A launch with SNAP. -/
def launchS : Launch := { laidLaunch with record := (List.replicate 64 0).set 0x34 2 }
/-- Another group of the team, which waits at CKPT or does not. -/
def peerGrp (w : Bool) : Group :=
  if w then { grp with num := 1, st := .waiting, wait := some ⟨.ckpt, 0, 0, 0, 0⟩ } else { grp with num := 1 }
def pairOn (l : Launch) (g h : Group) (time : Nat) : State := { stage l laidTeam g with groups := [(0, g), (1, h)], time := time }

theorem witness_CheckpointResult :
    Issuable (.ckpt ⟨0⟩) {} base 0 grp spot laidTeam laidLaunch ∧ laidLaunch.snap = false ∧ launchS.snap = true ∧
    Issuable (.ckpt ⟨0⟩) {} (stage launchS laidTeam { grp with hmode := true }) 0 { grp with hmode := true } spot laidTeam launchS ∧
    (∀ w ∈ [true, false], ∀ n ∈ [0, 4999999, 5000000],
      Issuable (.ckpt ⟨0⟩) {} (pairOn launchS grp (peerGrp w) n) 0 grp spot laidTeam launchS) ∧
    Issuable (.ckpt ⟨0⟩) {} { stage launchS laidTeam grp with time := 5000000 } 0 grp spot laidTeam launchS := by
  refine ⟨may_issue rfl rfl rfl rfl rfl (by decide) rfl (by decide) rfl (by decide) rfl, rfl, rfl, may_issue rfl rfl rfl rfl rfl (by decide) rfl (by decide) rfl (by decide) rfl, ?_, may_issue rfl rfl rfl rfl rfl (by decide) rfl (by decide) rfl (by decide) rfl⟩
  intro w hw n hn
  simp only [List.mem_cons, List.not_mem_nil, or_false] at hw hn
  rcases hw with rfl | rfl <;> rcases hn with rfl | rfl | rfl <;> exact may_issue rfl rfl rfl rfl rfl (by decide) rfl (by decide) rfl (by decide) rfl

theorem witness_CheckpointResult_period : field launchS.record 0x36 1 = 0 ∧
    (((pairOn launchS grp (peerGrp true) 0).groupsOf 0).filter fun p => p.1 != 0 && p.2.st != .retiring).map (fun p => p.2.waitsFor .ckpt) =
      [true] ∧ (base.opsDone 0) = true ∧ (((base.groupsOf 0).filter fun p => p.1 != 0 && p.2.st != .retiring).map (·.1)) = [] ∧
    ((pairOn launchS grp (peerGrp true) 0).groups.map (·.1)).Nodup := by decide

/-- A group that is to fetch its clause at word 0, and a page that holds IADD of R76 in a clause of one word. -/
def grpFetch : Group := { grp with clause := none }
def fetchOn (header : Nat) (word : Nat) : State :=
  { withPage { page with x := true } (stage laidLaunch laidTeam grpFetch) with
    mem := Mem.setBytes (Mem.setBytes [] 0x10000 (toBytes 4 header)) 0x10004 (toBytes 4 word) }

theorem witness_ClauseFetch : grpFetch.clause = none ∧ grpFetch.stepDue = false ∧ grpFetch.st = .ready ∧ minPc grpFetch.pcv ≠ exitPc ∧
    ((fetchOn 0x10000000 0x00042038).groups.find (fetchOn 0x10000000 0x00042038).arg.a) = some grpFetch := by decide +kernel

theorem witness_ClauseFetch_reads :
    (let read := fun (u : State) ws => u.fetchWords 0 grpFetch 0 0 ((u.ctx 0).codeBase) ws
     (match read (fetchOn 0x10000000 0x00042038) [0] with
      | (.ok [w], s) => w == 0x10000000 && (match read s [1] with
          | (.ok ws, _) => ws == [0x00042038] && checkClause (headerOf w) false ws == none
          | _ => false)
      | _ => false) = true ∧
     (match read { fetchOn 0 0 with clusters := [] } [0] with
      | (.absent _ _ _ _, _) => true
      | (.trap _ _, _) => true
      | _ => false) = true) := by decide +kernel

theorem witness_ClauseFetch_refused : (0x0FFFFFFF : Nat) / 2 ^ 28 = 0 ∧ 3 < 0x18000000 / 2 ^ 25 % 8 ∧ 0x10000001 % 2 ^ 14 ≠ 0 ∧
    checkClause (headerOf 0x10000000) false [0x60000000] = some 2 := by decide

/-- A counted load of 5 into v3 of lanes 0 to 15 and of 7 into s4. -/
def opDone : Op := ⟨3, 1, 2, 0, [(3, rowOf fun _ => 5, 0xFFFF)], [(4, 7)], .none, 0⟩
def evOn (g : Group) (a b : Nat) : State := { stage laidLaunch laidTeam g with arg := ⟨a, b, 0, false, .none⟩, cur := none }

theorem witness_GroupEvents_complete :
    (evOn { grp with ops := [opDone], dcs := [(1, 1)] } 0 3).groups.find 0 = some { grp with ops := [opDone], dcs := [(1, 1)] } ∧
    [opDone].find? (fun x => x.id == 3) = some opDone ∧ opDone.act = .none ∧ (opDone.vres.map (·.1)).Nodup ∧
    (opDone.sres.map (·.1)).Nodup ∧ laidTeam.st = .running := by decide

def peerLoad (k : PeerKind) : PeerReq := 
  ⟨k, 0, 0, 0, 2 ^ 47, 1, .read, 16, 0, false, [], [], 16, 0, some 3⟩

theorem witness_GroupEvents_answers : ∀ k ∈ [PeerKind.load, .copyRead, .taskRead, .posted, .copyWrite, .taskWrite],
    ({ evOn grp 1 0 with peers := [(0, peerLoad k)] } : State).groups.find 1 = none ∧
    ([(0, peerLoad k)].map (·.1)).Nodup ∧ Tbl.find [(0, peerLoad k)] 0 = some (peerLoad k) ∧ (peerLoad k).kind = k ∧
    (peerLoad k).done = false ∧ (peerLoad k).port.isSome = true ∧ base.time ≤ (peerLoad k).when + 200000 := by decide

/-- A RETIRING group beside another of its team. -/
theorem witness_GroupEvents_release :
    (pairOn laidLaunch { grp with st := .retiring } (peerGrp false) 0).mayRelease 0 { grp with st := .retiring } = true ∧
    (pairOn laidLaunch { grp with st := .retiring } (peerGrp false) 0).groups.find 1 = some (peerGrp false) ∧
    (peerGrp false).team = grp.team ∧ grp.shadow = false := by decide

/-- Two groups in WAIT_ALLOC: one that asks for a row, one whose name 2 was written out. -/
def grpAlloc : Group := { grp with st := .waitAlloc, wanted := 1 }
def grpSpilled : Group := { grp with st := .waitAlloc, spilled := [2], rows := [(2, zeroRow)] }
def allocOn (g : Group) (time : Nat) : State :=
  { evOn g 0 0 with cores := [(0, { freshCore with allocWait := [(0, 0)], freedAt := 0 })], time := time }

theorem witness_GroupEvents_rows : ∀ g ∈ [grpAlloc, grpSpilled],
    ((allocOn g 10000).core 0).allocWait = [(0, 0)] ∧ g.st = .waitAlloc ∧
    g.poolWant ((allocOn g 10000).rminOf g) ≤ (allocOn g 10000).poolFree 0 ∧ (0 : Nat) + 10000 ≤ (allocOn g 10000).time ∧
    ((allocOn g 10000).core 0).freedAt + 10000 ≤ (allocOn g 10000).time := by decide

/-- A waiting group that holds eight rows where RMIN is four may give up four. -/
theorem witness_GroupEvents_victim :
    (let g : Group := { grp with rows := (List.range 8).map fun n => (n, zeroRow), st := .waiting, wait := some ⟨.bcwait, 0, 0, 0, 0⟩ }
     g.mayYieldRows 4 false = true ∧ g.held - 4 = 4) := by decide

theorem witness_GroupEvents_drowsy : (evOn { grp with rows := [(2, zeroRow)] } 0 2).groups.find 0 = some { grp with rows := [(2, zeroRow)] } ∧
    ((({ grp with rows := [(2, zeroRow)] } : Group).rows.find 2).isSome = true) ∧ 2 ∉ grp.spilled ∧ base.dev.st = .ready ∧
    ((evOn grp 0 2).groups.find 0) = some grp ∧ (grp.rows.find 2).isSome = false := by decide

/-- A leader in slot 0 that has held an operation since time 0, and its shadow in slot 80, which differs. -/
def leader : Group := { grp with heldOp := some [] }
def shadowG : Group := { grp with shadow := true, st := .waiting, wait := some ⟨.shadow, 0, 0, 0, 2⟩ }
def twins : State := { stage launchH laidTeam leader with groups := [(0, leader), (80, shadowG)], time := 4001 }

theorem witness_CoreEvents_shadow : twinOf 0 = 80 ∧ twins.groups.find 0 = some leader ∧ twins.groups.find 80 = some shadowG ∧
    launchH.handler ≠ exitPc ∧ leader.hmode = false ∧ leader.st = .ready ∧ shadowG.st = .waiting ∧ twins.mismatched 0 = true ∧
    leader.heldOp.isSome = true ∧ leader.matched = false ∧ leader.heldAt + 4000 < twins.time := by decide

/-- RETN: the bounds of R224 around an old value of 800 µs. -/
theorem witness_CoreEvents_retn :
    (let lawful := fun old us tj : Nat => 100 ≤ us ∧ us < 2 ^ 20 ∧ tj < 256 ∧ (tj ≤ 95 → 200 ≤ us) ∧ old ≤ us + old / 8
     lawful 800 700 95 ∧ ¬ lawful 800 699 95 ∧ lawful 112 100 96 ∧ ¬ lawful 112 100 95 ∧ ¬ lawful 0 99 96) := by decide

def mirrored : MirrorReq := ⟨0, 0, 0, 0x10000, some 0⟩

theorem witness_CoreEvents_mirrors :
    ({ base with mirrors := [(0, mirrored)], time := 30000 } : State).mirrors.find 0 = some mirrored ∧
    ([(0, mirrored)].map (·.1)).Nodup ∧ mirrored.since = some 0 ∧ base.launches.find 0 = some laidLaunch ∧
    laidLaunch.hasEnded = false := by decide +kernel

/-- A queue whose second entry has not arrived; a wait for one entry on port 0 that PORTTO has outlasted. -/
def grpPort : Group := { grp with st := .waiting, wait := some ⟨.port, 0, 0, 1001, 16⟩, ctxcfg := 0x100, ports := [(3, [⟨1, true⟩, ⟨2, false⟩])] }

theorem witness_CoreEvents_ports :
    (∀ f ∈ [true, false], ({ stage laidLaunch laidTeam grpPort with arg := ⟨0, 3, 0, f, .none⟩ } : State).groups.find 0 = some grpPort) ∧
    grpPort.queue 3 = [⟨1, true⟩] ++ ⟨2, false⟩ :: [] ∧ cfgPortto grpPort.ctxcfg = 1 ∧ 16 / 8 % 2 = 0 ∧ 16 / 16 = 1 ∧
    (arrivedVals grpPort 0 0).length < 1 ∧ cfgPortto grpPort.ctxcfg * 1000 < 1001 := by decide

/-- A group that waits at the instruction before it. -/
def waiting (k : WaitKind) (i : Instr) : Group :=
  { grp with st := .waiting, wait := some ⟨k, 0, 0, 0, 0⟩, clause := some { spot with words := encode i ++ List.replicate 14 0 } }

theorem witness_WaitsRunAgain :
    (∀ p ∈ [(WaitKind.bcwait, (.bcwait (cxB 0) : Instr)), (.sleep, .sleep cxr0), (.signal, .sigwait (mxS 6)), (.port, .npush (mxP 0)),
        (.port, .npop (mxP 0)), (.port, .npeek (mxP 0)), (.stageQueue, .sqadd (mxS 6)), (.stageQueue, .sqtake (mxS 6)),
        (.lid, .acq (mxS 6))],
      (waiting p.1 p.2).wait.map (·.kind) = some p.1 ∧
      ((waiting p.1 p.2).clause.map fun c => match c.instr with
        | .ok (j, _) => j == p.2
        | .error _ => false) = some true) := by decide +kernel

/-! ## Witnesses: the device, its services and its contexts -/

/-- A device in a state and at a step of bring-up, with an event's operands. -/
def devOn (st : DevState) (step : Nat) (x : EventArg) : State :=
  { State.reset with dev := { Device.reset with st := st, step := step }, arg := x }
def ev (a b : Nat) (x : EventBody) : EventArg := ⟨a, b, 0, false, x⟩
def goodStep : StepReport := { failed := [], lanes := [], fuseOk := true, image := none, homeChannelsLock := true }

theorem witness_DeviceLife :
    (∀ n ∈ [1, 7, 8], (devOn .bringup n (ev 0 0 (.step goodStep))).dev.st = .bringup ∧ stepFailure goodStep n = none ∧
      ¬ 4000000 * typicalMs n < (devOn .bringup n (ev 0 0 (.step goodStep))).time - 0 ∧
      (devOn .bringup n (ev 0 0 (.step goodStep))).dev.fuses = []) ∧
    (4000000 * typicalMs 2 < 240000001 - 0 ∧ ¬ 4000000 * typicalMs 2 < 240000000 - 0) ∧
    stepFailure { goodStep with fuseOk := false } 1 = some 5 ∧ stepFailure { goodStep with image := some (0, false) } 2 = some 1 ∧
    stepFailure { goodStep with homeChannelsLock := false } 3 = some 4 ∧
    stepFailure { goodStep with lanes := (List.range 5).map fun k => (0, k) } 4 = some 4 ∧
    stepFailure { goodStep with lanes := (List.range 4).map fun k => (0, k) } 4 = none := by decide +kernel

theorem witness_DeviceLife_floors : (devOn .bringup 4 (ev 0 0 (.step goodStep))).floorsMet = true ∧
    ({ State.reset with dev := { Device.reset with mapped := [⟨.hbmStack, 0⟩, ⟨.hbmStack, 1⟩] } } : State).floorsMet = false := by
  decide +kernel

theorem witness_DeviceLife_states :
    (∀ st ∈ [DevState.off, .bringup, .ready, .failed], (devOn st 1 (ev 0 0 .none)).dev.st = st) ∧
    (devOn .bringup 1 (ev 1023 0 .none)).arg.a < 1024 ∧ 1024 ≤ (devOn .bringup 1 (ev 1024 0 .none)).arg.a ∧
    serviceRequests.length = 22 ∧ base.dev.st = .ready ∧ (base.ctx 0).st ≠ .free ∧ (base.ctx 0).st ≠ .destroyed := by decide

def bank (n : Nat) : PartRef := ⟨.tsBank, n⟩
def withDev (f : Device → Device) (x : EventArg) : State :=
  { devOn .ready 9 x with dev := f { Device.reset with st := .ready, step := 9, epoch := 1 } }

theorem witness_ServiceActions :
    (∀ n ∈ [0, 255, 256], (withDev id (ev n 0 .none)).dev.st = .ready) ∧
    bank 3 ∈ (withDev (fun d => { d with mapped := [bank 3] }) (ev 3 0 .none)).dev.mapped ∧
    (let s := withDev (fun d => { d with actions := [⟨⟨.hbmStack, 1⟩, .retire⟩] }) (ev 3 0 .none)
     s.excluded (bank 3) = true ∧ ∃ a ∈ s.dev.actions, partTower a.part = 3 / 4) ∧
    (let s := withDev id (ev 255 0 .none)
     bank 255 ∉ s.dev.mapped ∧ bank 255 ∉ s.dev.fenced ∧ s.excluded (bank 255) = false ∧ ∀ a ∈ s.dev.actions, a.part ≠ bank 255) := by
  decide

def image1 : FirmwareImage := ⟨15, 3, 7, 0, 0⟩

theorem witness_ServiceActions_complete :
    (∀ q ∈ [((bank 3 : PartRef), Action.fence), (⟨.hbmStack, 1⟩, .retire), (⟨.firmware, 15⟩, .update image1), (⟨.bus, 0⟩, .recalibrate)],
      (withDev (fun d => { d with actions := [⟨q.1, q.2⟩] }) (ev 0 0 (.part q.1))).firstAction q.1 = some q.2) ∧
    (withDev (fun d => { d with actions := [⟨⟨.firmware, 15⟩, .update image1⟩] }) (ev 0 0 .none)).updating ⟨.firmware, 15⟩ = true ∧
    image1.core < 16 ∧ image1.kind < 4 ∧ (withDev id (ev 0 0 .none)).excluded ⟨.firmware, 15⟩ = false := by decide +kernel

theorem witness_ContextServices_profile :
    badProfile (BitVec.ofNat 128 (2 ^ 127)) = true ∧ (BitVec.ofNat 128 (2 ^ 127)).getLsbD 127 = true ∧
    ((0 : BitVec 128).getLsbD 127 = false) ∧ (base.ctx 0).profile = 0 ∧
    (∃ p ∈ base.ctxs, p.2.st ≠ .free ∧ p.2.st ≠ .destroyed ∧ p.2.profile = 0) ∧
    ¬ ∃ p ∈ base.ctxs, p.2.st ≠ .free ∧ p.2.st ≠ .destroyed ∧ p.2.profile = 7 := by decide

def createReq (c : Nat) (p : Nat) (v : DWord) : CreateReq :=
  { ctx := c, ptRoot := 0x20000, profile := p, ctxcfg := v, codeBase := 0, saveBase := 0, saveSize := 2 ^ 52, snapBase := 0, snapSize := 0 }

theorem witness_ContextServices_create :
    (let good := fun r : CreateReq => r.ptRoot % 65536 = 0 ∧ spaceOf r.ptRoot = .hbm ∧ r.ctxcfg.toNat / 2 ^ 20 % 2 ^ 4 = 0 ∧
        r.ctxcfg.toNat / 2 ^ 30 = 0 ∧ r.profile < 8 ∧ r.saveBase + r.saveSize ≤ 2 ^ 52 ∧ r.snapBase + r.snapSize ≤ 2 ^ 52
     good (createReq 1 0 0xFFFFF) ∧ ¬ good (createReq 1 0 0x100000) ∧ ¬ good { createReq 1 0 0 with saveBase := 1 }) ∧
    (base.ctx 1).st = .free ∧ (base.ctx 0).st ≠ .free ∧
    ((withDev (fun d => { d with profiles := [(1, BitVec.ofNat 128 (2 ^ 127))] }) (ev 0 0 .none)).dev.profiles.findD 1 0).getLsbD 127 = true ∧
    (base.dev.profiles.findD 5 0).getLsbD 127 = false := by decide +kernel

/-- A context that is DESTROYED with nothing left, and one that has been PARKED for 100 ms. -/
theorem witness_ContextServices_ends :
    (let s := { withDev id (ev 0 0 .none) with ctxs := [(0, { freshCtx with st := .destroyed })] }
     (s.ctx s.arg.a).st = .destroyed ∧ s.released s.arg.a = true) ∧
    (let s := { withDev id (ev 0 0 .none) with ctxs := [(0, { freshCtx with st := .parked })], time := 100000000 }
     (s.ctx s.arg.a).st = .parked ∧ (s.ctx s.arg.a).parkedSince + 100000000 ≤ s.time) ∧
    base.released 0 = false := by decide +kernel

theorem witness_ContextServices_renewal :
    (let s := { padOn none (grpPad []) with cores := [(0, { padCore none with bufs := [(0, { buf0 with parked := true })]
                                                                              sp := [(1, { freshRow with st := .stamped })] })] }
     (s.core 0).bufs = [(0, { buf0 with parked := true })] ∧ s.teams.find buf0.team = some laidTeam ∧ buf0.base ≤ 1 ∧
     1 < buf0.base + buf0.rows ∧ ((s.core 0).row 1).st = .stamped ∧
     s.time - ((s.core 0).row 1).stamp ≤ min buf0.tag (s.core 0).retnUs * 1000) := by decide +kernel

def tensorReq (e : Nat) : TensorReq := { ctx := 0, esz := e, ndim := 2, dims := [64, 2, 1, 1, 1], layout := 0, tower := 3 }

theorem witness_ContextServices_tensors :
    tensorBad (tensorReq 4) = false ∧ tensorBad (tensorReq 3) = true ∧ tensorBad { tensorReq 4 with ctx := 64 } = true ∧
    (base.ctx 0).tensors.find 0 = none ∧ (base.ctx 0).st ≠ .free ∧ (tensorFor (tensorReq 4) 0 0).size = 512 ∧
    firstGap 262144 0 (base.tsUsed 3) + 262144 ≤ 2 ^ 36 ∧ ((tsOn 1 64).ctx 0).tensors.find 0 = some tens ∧ tens.destroying = false ∧
    ((((tsOn 1 64).ctx 0).tensors.map (·.1)).Pairwise (· < ·)) ∧ cp1.names 0 0 = false ∧
    ({ cp1 with opc := 0x33, ops := [0] } : Copy).names 0 0 = true := by decide +kernel

theorem witness_ContextServices_sessions :
    (let good := fun r : SessionReq => r.tower < 4 ∧ r.ctx < 64 ∧ 1 ≤ r.w ∧ r.w ≤ 8192 ∧ 1 ≤ r.h ∧ r.h ≤ 8192 ∧ 0 < r.len ∧
        r.va + r.len ≤ 2 ^ 52
     good ⟨3, 0, false, true, 0, 2 ^ 52, 8192, 1⟩ ∧ ¬ good ⟨3, 0, false, true, 1, 2 ^ 52, 8192, 1⟩ ∧ ¬ good ⟨0, 0, false, true, 0, 1, 8193, 1⟩) ∧
    (base.tower 3).sessions.find 0 = none ∧
    (let s := { base with towers := [(0, { freshTower with sessions := [(0, ⟨0, false, false, 0, 1, 1, 1⟩)] })] }
     ((s.tower 0).sessions.find 0).isSome = true ∧ ((s.tower 0).sessions.map (·.1)).Nodup) := by decide

/-! ## Witnesses: what the driver does about pages -/

/-- A READY device with one resident context 0, whose faults, ring and so on `f` gives. -/
def ctxOn (f : Context → Context) (x : EventArg) : State :=
  { withDev id x with ctxs := [(0, f { freshCtx with st := .resident })] }
def fault1 : PageFault := ⟨1, 1, List.replicate 32 9, false⟩

theorem witness_FaultRings :
    (let good := fun c b k : Nat => c < 64 ∧ 6 ≤ k ∧ k ≤ 16 ∧ b % 32 = 0 ∧ b + 32 * 2 ^ k ≤ 2 ^ 40
     good 0 0x10000 6 ∧ good 63 0x10000 16 ∧ ¬ good 0 0x10000 5 ∧ ¬ good 0 0x10010 6 ∧ ¬ good 0 0x10000 17) ∧
    (∀ fs ∈ [[], [fault1]], ((ctxOn (fun c => { c with faults := fs }) ⟨0, 0x10000, 6, false, .none⟩).ctx 0).faults = fs) ∧
    fault1.record.length = 32 ∧ fault1.written = false ∧ Memory.wf ([] : List Host.Cell) = true := by decide +kernel

theorem witness_FaultRings_head : ∀ n ∈ [(3 : Nat), 5, 6, 4],
    ((ctxOn (fun c => { c with ring := some ⟨0x10000, 6, 4, 5⟩ }) (ev 0 n .none)).ctx 0).ring = some ⟨0x10000, 6, 4, 5⟩ ∧
    (n < 4 ∨ 5 < n ∨ (4 ≤ n ∧ n ≤ 5)) := by decide

/-- A group that waits on page 0, an entry of the side log on that page, and one on another page. -/
def grpPage : Group := { grp with st := .waiting, wait := some ⟨.page 0x1000 0, 0, 0, 0, 0⟩ }
def logEntry (vline : Nat) : LogEntry :=
  { ctx := 0, launch := 0, team := 0, tnum := 0, stage := 0, gnum := 0, gid := 0, seq := 0, vline := vline, line := ⟨5, 15⟩, red := none
    clause := 0, reserve := false }
def resolveOn (l : List LogEntry) (ok : Bool) : State :=
  { withPage page (stage laidLaunch laidTeam grpPage) with cores := [(0, { freshCore with log := l })], arg := ⟨0, 0xFFFF, 0, ok, .none⟩ }

theorem witness_FaultRings_resolve :
    (resolveOn [logEntry 512] true).ends = [] ∧ (∀ x ∈ [logEntry 512], x.vline / 512 ≠ 0xFFFF / 65536) ∧
    (resolveOn [logEntry 511] true).cores = [(0, { freshCore with log := [logEntry 511] })] ∧ (logEntry 511).vline / 512 = 0xFFFF / 65536 ∧
    (logEntry 511).red = none ∧ ((resolveOn [logEntry 511] true).forgetFault 0 [0]).reach 0 0 false .store (511 * 128) 128 =
      (.ok (0x10000 + 511 * 128) page, (resolveOn [logEntry 511] true).forgetFault 0 [0]) ∧ spaceOf (0x10000 + 511 * 128) = .hbm ∧
    (({ stage laidLaunch laidTeam grpPage with arg := ⟨0, 0xFFFF, 0, false, .none⟩ } : State).clusters = []) := by decide +kernel

def towerOn (w : Tower) (x : EventArg) : State := { withDev id x with towers := [(0, w)] }

theorem witness_ChunksOfATower :
    (let fits := fun (w : Tower) c => c < 2 ^ 40 ∧ c / 2 ^ 38 = 0 ∧ c % 2048 = 0 ∧ ((towerOn w (ev 0 0 .none)).frame c).st = .normal ∧
        c ∉ w.freeList ∧ w.chunks.find c = none
     fits freshTower 0x10000 ∧ ¬ fits freshTower 0x10400 ∧ ¬ fits freshTower (2 ^ 38) ∧ ¬ fits { freshTower with freeList := [0x10000] } 0x10000) ∧
    (∃ p ∈ (framed.tower 0).frames, p.2.st = .compressed) ∧ ¬ (∃ p ∈ freshTower.frames, p.2.st = .compressed) ∧ 49151 < 49152 := by
  decide +kernel

theorem witness_ChunksOfATower_replay :
    (let w : Tower := { freshTower with freeList := (List.range 1025).map fun k => 2048 * k, reserve := 0 }
     ((towerOn w (ev 0 0 .none)).tower 0).reserve + 1024 < ((towerOn w (ev 0 0 .none)).tower 0).freeList.length ∧
     (towerOn w (ev 0 0 .none)).cores = []) ∧
    ({ grp with st := .waiting, wait := some ⟨.reserve, 0, 0, 0, 0⟩ } : Group).wait.map (·.lim) = some 0 := by decide +kernel

theorem witness_ChunksOfATower_writeback :
    (let w : Tower := { freshTower with l2 := [(512, ⟨0, true, 0, 0⟩)] }
     ((towerOn w (ev 512 0 .none)).l2 (512 * 128)).isSome = true ∧ spaceOf (512 * 128) = .hbm ∧
     ((((towerOn w (ev 512 0 .none)).tower (homeTower (512 * 128))).l2.map (·.1)).Pairwise (· < ·)) ∧
     (towerOn w (ev 513 0 .none)).l2 (513 * 128) = none) := by decide +kernel

theorem witness_FramesMove :
    (let good := fun t base : Nat => t < 4 ∧ base % 16 = 0 ∧ t * 2 ^ 38 ≤ base ∧ base + 2 ^ 27 ≤ (t + 1) * 2 ^ 38
     good 3 (2 ^ 40 - 2 ^ 27) ∧ ¬ good 3 (2 ^ 40 - 2 ^ 27 + 16) ∧ ¬ good 0 8 ∧ good 0 0) ∧ (∀ p ∈ (withDev id (ev 0 0 .none)).ctxs, p.2.st = .free) ∧
    (let s := withDev id (ev 0 0 .none)
     s.frameEntry 0x20000 3 0 = some .held ∧ s.frameEntry 0x20000 2 0x30000 = some .forward ∧
     s.frameEntry 0x20000000000 1 0x100000 = some .compressed ∧ s.frameEntry 0x20000 4 0 = none) := by decide +kernel

/-- Frames of HBM at 0x20000 and 0x30000; a window frame; a tower that has 512 chunks, or none. -/
theorem witness_FramesMove_states :
    (let frame := fun pa => pa % 65536 = 0 ∧ (spaceOf pa = .hbm ∨ spaceOf pa = .window)
     frame 0x20000 ∧ frame 0x30000 ∧ frame 0x20000000000 ∧ ¬ frame 0x20001 ∧ spaceOf 0x20000 ≠ spaceOf 0x20000000000 ∧
     0x100000 % 4096 = 0 ∧ homeTower 0x100000 = homeTower 0x20000000000) ∧
    ((towerOn freshTower (ev 0x20000 0x30000 .none)).frame 0x20000).st = .normal ∧ (framed.frame 0x20000000000).st = .compressed ∧
    framed.dev.st = .ready ∧ ((framed.tower 0).freeList).length < 512 ∧
    512 ≤ ({ freshTower with freeList := (List.range 512).map fun k => 2048 * k } : Tower).freeList.length ∧
    Mem.get [(0x20000, 1)] (0x20000 + 0) ≠ 0 ∧
    (({ withDev id (ev 0x20000 0 .none) with towers := [(0, { freshTower with frames := [(2, ⟨.forward, 0, 0x30000, 0⟩)] })] } : State).frame
      0x20000).st = .forward := by decide +kernel

theorem witness_SliceRetires :
    (let actives := fun (w : Tower) => (List.range 48).filter fun n => w.slices.findD n .active == .active
     40 < (actives freshTower).length ∧
     (actives { freshTower with slices := (List.range 8).map fun k => (k, .off) }).length ≤ 40) ∧
    (towerOn freshTower (ev 191 0 .none)).excluded ⟨.l2Slice, 191⟩ = false ∧
    (withDev (fun d => { d with actions := [⟨⟨.hbmStack, 0⟩, .retire⟩] }) (ev 0 0 .none)).excluded ⟨.l2Slice, 0⟩ = true ∧
    (∃ q ∈ ({ freshTower with slices := [(1, .stub)] } : Tower).slices, q.2 = .stub) := by decide +kernel

/-- Slice 0 in STUB holds line 0, or nothing. -/
theorem witness_SliceRetires_lines :
    (let w : Tower := { freshTower with slices := [(0, .stub)], l2 := [(0, ⟨0, true, 0, 0⟩)] }
     let s := towerOn w (ev 0 0 .none)
     (s.tower 0).slices.findD 0 .active = .stub ∧ homeTower 0 = 0 ∧ (s.tower 0).sliceOld.findD (sliceIdx 0) (sliceIdx 0 % 48) = 0 ∧
     s.l2 0 = some ⟨0, true, 0, 0⟩ ∧ ¬ (∀ l ∈ (s.tower 0).l2, l.2.slice ≠ 0) ∧ s.l2 (768 * 128) = none) ∧
    (∀ l ∈ ((towerOn { freshTower with slices := [(0, .stub)] } (ev 0 0 .none)).tower 0).l2, l.2.slice ≠ 0) := by decide +kernel

/-! ## Witnesses: the links, the stack and the loss of parts -/

theorem witness_PeersAtHome_tables :
    (let bad := fun n : Nat => n / 2 ^ 4 % 2 ^ 4 ≠ 0 ∨ n / 2 ^ 18 % 2 ^ 18 ≠ 0 ∨ 3 < n / 2 % 8
     ¬ bad 7 ∧ bad 8 ∧ bad 0x10 ∧ bad 0x40000) ∧ (withDev id (ev 2047 0 (.dword 7))).arg.a < 2048 ∧
    (withDev id (ev 255 0 (.inboundEntry ⟨0, 1, true⟩))).arg.a < 256 := by decide

/-- A range of 64 KiB at 0x10000 that peers may read, or write as well. -/
def inboundOn (w : Bool) : State := withDev (fun d => { d with inbound := [(0, ⟨1, 1, w⟩)] }) (ev 0 0 .none)

theorem witness_PeersAtHome :
    (let covers := fun (r : InboundReq) (e : InboundEntry) => e.base * 65536 ≤ r.addr ∧ r.addr + r.size ≤ (e.base + e.len) * 65536
     covers ⟨1, 0x1FF80, 128, .read⟩ ⟨1, 1, false⟩ ∧ ¬ covers ⟨1, 0x1FF84, 128, .read⟩ ⟨1, 1, false⟩) ∧
    (∃ p ∈ (inboundOn true).dev.inbound, p.2.w = true) ∧ ¬ (∃ p ∈ (inboundOn false).dev.inbound, p.2.w = true) ∧
    spaceOf 0x20000000000 = .window ∧ spaceOf 0x1FF80 = .hbm ∧ spaceOf (2 ^ 47) = .link ∧ (inboundOn true).stackGone 0x10000 = false ∧
    (inboundOn true).home 8 0x10040 = .here 0x10040 ∧ 0x10040 % 128 + 64 ≤ 128 ∧ 0x10040 % upPow2 64 + 64 ≤ upPow2 64 ∧ (0x12 : Nat) ≤ 0x12 ∧
    0x10040 % 8 = 0 ∧ (inboundOn true).poisoned 0x10040 = false ∧
    (∀ j < 64, (inboundOn true).home 8 (0x10040 + j) = .here (0x10040 + j)) ∧ Memory.wf (inboundOn true).mem = true ∧
    (∀ op ∈ [PeerOp.read, .write (List.replicate 64 1) [], .atomic 0x12 1 2], inboundForm ⟨1, 0x10040, 64, .read⟩ = true ∧
      (op = .read ∨ op ≠ .read)) := by decide +kernel

theorem witness_PeersAtHome_room : Roomy (inboundOn true) := roomy_blank _ rfl

def peersOn (k : PeerKind) : State :=
  { withDev id (ev 0 5 .none) with peers := [(0, peerLoad k)], launches := [(0, laidLaunch)], copies := [(16, cp1)], time := 200000 }

theorem witness_PeersFail : ∀ k ∈ [PeerKind.load, .taskRead, .opRead, .posted, .copyRead, .copyWrite, .taskWrite], (peersOn k).peers.find 0 = some (peerLoad k) ∧
    (peerLoad k).done = false ∧ 5 ∈ [1, 2, 3, 5] ∧ (peerLoad k).when + 200000 ≤ (peersOn k).time ∧ ((peersOn k).peers.map (·.1)).Nodup ∧
    (peersOn k).copies.find (peerLoad k).owner = some cp1 ∧ (peerLoad k).port = some 3 ∧ (peerLoad k).gid ≠ goneGid ∧ (peersOn k).launches.find 0 = some laidLaunch ∧ laidLaunch.hasEnded = false := by
  decide +kernel

def linkOn (n : Nat) (l : LinkPort) : State := { withDev id (ev n 0 .none) with links := [(n, l)], time := 10000000 }

theorem witness_PortLife :
    (∀ st ∈ [PortSt.training, .up, .retrain, .fenced], ∀ r ∈ [true, false],
      (((linkOn 63 { freshPort with st := st, returning := r }).links.map (·.1)).Pairwise (· < ·)) ∧
      ((linkOn 63 { freshPort with st := st, returning := r }).link 63).st = st) ∧
    (linkOn 63 freshPort).excluded ⟨.linkPort, 63⟩ = false ∧ (0 : Nat) + 10000000 ≤ (linkOn 63 freshPort).time ∧ 1 + 1 < 3 ∧ 3 ≤ 2 + 1 := by
  decide +kernel

def busOn (x : Bus) (a : EventArg) : State := { withDev id a with towers := [(3, { freshTower with buses := [(1983, x)] })] }

theorem witness_VerticalBuses :
    (∀ st ∈ [BusSt.service, .due, .retrain, .quiesce, .repair, .lost],
      ((busOn { freshBus with st := st } (ev 7935 0 .none)).bus 7935).st = st) ∧
    busOwner 0 = some (0, 0, 0) ∧ busOwner 288 = some (1, 0, 0) ∧ busOwner 1823 = some (1, 95, 0) ∧ busOwner 1824 = none ∧
    busOwner 1 = busOwner 0 ∧ ¬ noSpareFor freshBus 69 ∧ noSpareFor freshBus 64 ∧ noSpareFor { freshBus with swapped := [0, 1, 2, 3] } 4 := by
  refine ⟨by decide, by decide, by decide, by decide, by decide, by decide, ?_, ?_, ?_⟩ <;> (unfold noSpareFor; decide)

/-- The third retry of a lane within a second; one that is a second old does not count. -/
theorem witness_VerticalBuses_retries :
    (let s : State := { busOn { freshBus with retries := [(5, 1), (5, 0)] } ⟨7935, 0, 0, false, .nats [5]⟩ with time := 1000000000 }
     recentRetries s 7935 5 = 1) ∧
    (withDev (fun d => { d with actions := [⟨⟨.bus, 7935⟩, .swap 5⟩] }) (ev 7935 5 .none)).firstAction ⟨.bus, 7935⟩ = some (.swap 5) := by
  decide +kernel

theorem witness_PartsAreLost :
    (∀ p ∈ [(⟨.core, 383⟩ : PartRef), ⟨.channelDie, 31⟩, ⟨.l2Slice, 191⟩, ⟨.hbmStack, 15⟩, ⟨.linkPort, 63⟩, ⟨.tsBank, 255⟩, ⟨.bus, 7935⟩,
        ⟨.spadLayer, 3⟩], ¬ (p ∈ (withDev id (ev 0 0 (.part p))).dev.fenced ∨ p ∈ (withDev id (ev 0 0 (.part p))).dev.mapped)) ∧
    (∀ x ∈ base.teams, 383 ∉ x.2.cores) ∧ (base.core 383).bufs = [] ∧ base.teams = [(0, laidTeam)] ∧ 0 ∈ laidTeam.cores ∧
    laidTeam.onCores = true ∧ base.retireAnswer 31 = .ok ∧ base.sliceAnswer 191 = .ok ∧ (base.bus 7935).st ≠ .lost := by decide +kernel

theorem witness_PartsAreLost_errors :
    ((⟨3, 15, 262143, 511, some 71⟩ : ArrayError).layer < 4) ∧ (71 : Nat) < 72 ∧
    (withDev id ⟨3, 0, 0, false, .errors [⟨3, 15, 262143, 511, none⟩]⟩).arg.a < 4 ∧
    (let s := towerOn { freshTower with lights := [(47, { freshLight with lostRings := 6 })] } ⟨0, 0, 0, false, .nats [47]⟩
     (((s.tower 0).lights.find 47).map (·.lostRings)).getD 0 = 6 ∧ s.sliceAnswer 47 = .ok) := by decide +kernel

theorem witness_ChannelDies :
    (let s := withDev id (ev 31 0 .none)
     s.stackRetiring 3 = false ∧ ∀ d < 8, (s.tower 3).dies.findD d .live = .live ∧ (⟨.channelDie, 24 + d⟩ : PartRef) ∉ s.dev.mapped) ∧
    (let s := towerOn { freshTower with dies := [(2, .retiring)] } (ev 0 0 .none)
     (s.tower 0).dies.find? (fun x => x.2 == .retiring) = some (2, .retiring) ∧ s.tasksRun 0 = false) ∧
    (let s := towerOn { freshTower with dies := [(2, .rebuild)] } (ev 0 0 .none)
     (s.tower 0).dies.find? (fun x => x.2 == .rebuild) = some (2, .rebuild) ∧ ∀ d ∈ (s.tower 0).dies, d.2 ≠ .retiring) ∧
    (let s := { towerOn { freshTower with dies := [(2, .retired)] } (ev 3 65535 .none) with groups := [] }
     (∃ d < 8, (s.tower 0).dies.findD d .live ≠ .live) ∧ s.arg.a < 4 ∧ s.arg.b ≤ 65535) := by decide +kernel

/-! ## Witnesses: tile tasks -/

/-- The record of a task: kind, engine, both ids, P0 and the fields at 0x10, 0x18 and 0x20. -/
def recBytes (kind eng aid bid p0 dsig sig x20 : Nat) : List Byte :=
  toBytes 8 (kind + 16 * eng) ++ [BitVec.ofNat 8 aid, BitVec.ofNat 8 bid, 0, 0] ++ toBytes 4 p0 ++ toBytes 8 dsig ++ toBytes 8 sig ++
    toBytes 8 x20 ++ List.replicate 24 0
/-- A task 0 of queue 0 of cluster 0 in a state, on engine 0 with its slots 0. -/
def taskOf (st : TaskSt) (l : List Byte) : Task := { newTask 0 0 0 l with st := st, eng := 0, aslot := 0, bslot := 0 }
def tref : TaskRef := ⟨0, 0, 0⟩
def tqWith (ts : List Task) : TaskQueue := { tq 0 with tasks := ts, tail := ts.length, aids := [(1, (0, 0))], bids := [(1, (0, 0))] }
def taskOn (ts : List Task) : State :=
  { memBase with clusters := [(0, { freshCluster with tlb := [page], queues := [(0, tqWith ts)] })], arg := ⟨0, 0, 0, false, .task tref⟩ }

theorem witness_TaskQueues_requests :
    (let good := fun r : TaskQueueReq => r.ctx < 64 ∧ r.cluster < 48 ∧ r.ring % 4096 = 0 ∧ 6 ≤ r.logsz ∧ r.logsz ≤ 12
     good ⟨63, 47, 0x1000, 12⟩ ∧ ¬ good ⟨63, 47, 0x1000, 5⟩ ∧ ¬ good ⟨63, 47, 0x1800, 6⟩) ∧
    (∃ q ∈ ((tqOn 0).cluster 0).queues, q.2.ctx = 0) ∧ ¬ (∃ q ∈ ((tqOn 0).cluster 0).queues, q.2.ctx = 1) ∧
    ¬ 8 ≤ ((tqOn 0).cluster 0).queues.length ∧ ((tqOn 0).cluster 0).queues.find 0 = some (tq 0) ∧ (tq 0).tasks = [] ∧ (tq 1).tasks ≠ [] ∧
    ((((tqOn 0).cluster 0).queues.map (·.1)).Nodup) := by decide

/-- A ZERO of accumulator id 1, well formed; one whose signal address is misaligned; one of kind 8. -/
def zeroTask (st : TaskSt) : Task := taskOf st (recBytes 1 0 1 128 0 0 0 0)

theorem witness_TaskQueues :
    (∀ st ∈ [TaskSt.queued, .waiting, .ready], (taskOn [zeroTask st]).taskAt tref = some (tqWith [zeroTask st], zeroTask st)) ∧
    (zeroTask .queued).fields.dsig = 0 ∧ (zeroTask .queued).fields.sig = 0 ∧
    (∃ l, (taskOf .queued l).fields.bad = true) ∧ (recOf (recBytes 1 0 1 128 0 12 0 0)).dsig % 8 ≠ 0 := by
  refine ⟨by decide, by decide, by decide, ⟨recBytes 8 0 1 128 0 0 0 0, by decide⟩, by decide⟩

theorem witness_TaskQueues_wellFormed : ∃ b, (recOf (recBytes 1 0 1 b 0 0 0 0)).bad = false := by
  refine ⟨?_, ?_⟩
  · exact 255
  · decide

/-- A later ZERO of the same accumulator is ordered; two MMAs of one accumulator are not. -/
theorem witness_TaskQueues_order :
    ordersBefore (recOf (recBytes 1 0 1 255 0 0 0 0)) (recOf (recBytes 1 0 1 255 0 0 0 0)) ∧
    ¬ ordersBefore (recOf (recBytes 3 0 1 1 0 0 0 0)) (recOf (recBytes 3 0 1 1 0 0 0 0)) := by
  constructor <;> (unfold ordersBefore; decide)

theorem witness_TaskQueues_signal :
    (let t := taskOf .waiting (recBytes 1 0 1 255 0 0x1000 0 0)
     t.fields.dsig = 0x1000 ∧ (taskOn [t]).taskAt tref = some (tqWith [t], t) ∧
     (taskOn [t]).reach 0 0 false .engineRead 0x1000 8 = (.ok 0x11000 page, taskOn [t])) := by decide +kernel

theorem witness_TaskStarts :
    (let t := taskOf .ready (recBytes 1 0 1 255 0 0 0 0)
     let c := (taskOn [t]).cluster 0
     (taskOn [t]).taskAt tref = some (tqWith [t], t) ∧ ((taskOn [t]).tower 0).dies = [] ∧ t.fields.dbnd = 0 ∧
     c.bindx (tqWith [t]) t.fields = false ∧ c.isNext 0 (tqWith [t]) t = true ∧ t.fields.ranges.1 = [] ∧
     (taskOn [t]).tensorFault 0 t.fields = none ∧ (c.slotsFor (tqWith [t]) t.fields).isSome = true) := by decide +kernel

/-- An MMA whose accumulator id 2 is not bound; one whose engine is another; a LOADB of a page that is not present, of one that
is, and of a tensor that does not exist; a bound of 48 bits. -/
theorem witness_TaskStarts_ends :
    (tqWith []).aids.find (taskOf .ready (recBytes 3 0 2 1 0x20 0 0 0)).fields.aid = none ∧
    (tqWith []).bids.find (taskOf .ready (recBytes 3 0 1 2 0x20 0 0 0)).fields.bid = none ∧
    (taskOf .ready (recBytes 3 3 1 1 0x20 0 0 0)).fields.eng = 3 ∧ (tqWith []).aids.find 1 = some (0, 0) ∧
    (let t := taskOf .ready (recBytes 2 0 255 2 0x820 0 0 0)
     t.fields.tensor = true ∧ (taskOn [t]).tensorFault 0 t.fields = some 1 ∧ t.fields.ranges.1 = []) ∧
    (let t := taskOf .ready (recBytes 2 0 255 2 0x20 0 0 (2 ^ 52))
     firstFault ((taskOn [t]).walkRanges 0 0 false .engineRead t.fields.ranges.1).1 = some (0x10, 1)) ∧
    (recOf (toBytes 8 (1 + 62 * 2 ^ 10) ++ List.replicate 56 0)).dbnd = 62 := by decide +kernel

/-- RUNNING tasks of each kind. -/
theorem witness_TaskWork :
    (∀ k ∈ [0, 1, 3, 4, 5, 6, 7], let t := taskOf .running (recBytes k 0 1 1 0 0 0 0)
      (taskOn [t]).workOf k = some (tref, tqWith [t], t) ∧ (taskOn [t]).workOf 2 = none ∧ t.fields.nrows = 1) ∧
    (recOf (recBytes 1 0 1 255 1 0 0 0)).emode < 2 ∧ (recOf (recBytes 5 0 1 255 0 0 0 0)).global = false := by decide +kernel

theorem witness_TaskWork_loadb :
    (let t := taskOf .running (recBytes 2 0 255 1 0x20 0 0 0x1000)
     (taskOn [t]).workOf 2 = some (tref, tqWith [t], t) ∧ t.fields.m = 2 ∧ t.fields.kb = 1) := by decide +kernel

/-- A profile of three information channels and two check channels. -/
def run1 : Run := ⟨[3, 5, 7, 11, 13], [0, 1, 2, 3, 4], 3, false, 0⟩

theorem witness_ResiduesAreExact : runSound run1 ∧ run1.big = 105 ∧ run1.top = 52 ∧
    run1.value (run1.re8 (-52)) = -52 ∧ run1.rcu (run1.re8 52) = .clean 52 := by
  unfold runSound; decide +kernel

/-- The element of 52 with channel 1 changed is corrected. -/
theorem witness_ResiduesAreExact_corrected :
    (match run1.rcu (run1.re8 52 ^^^ 0x100) with
     | .corrected x e => x == 52 && e == 1
     | _ => false) = true := by decide +kernel

theorem witness_MmaIsExact :
    (let row : ARow := ⟨List.replicate 256 (run1.re8 5), some 0, 5, false⟩
     row.eref = some 0 ∧ (∀ j < 256, row.res.getD j 0 = run1.re8 5) ∧ row.bnd ≤ run1.top ∧ (5 : Int).natAbs ≤ row.bnd) := by decide +kernel

theorem witness_TaskEnds :
    (let t := { taskOf .ended (recBytes 0 0 255 255 0 0 0 0) with status := 1 }
     t.status &&& 0x1F0 = 0 ∧ t.spoor = 0 ∧ t.fields.sig = 0 ∧
     ((taskOn [t]).ringPlace 0 0 (0x2000 + 64 * 0 + 0x38)).1 = some 0x12038 ∧ Memory.wf (taskOn [t]).mem = true ∧
     ((taskOn [t]).sigPlace 0 0 0).1 = some none ∧ (tqWith [t]).destroying = false ∧ ((tqWith [t]).aids.map (·.1)).Nodup) ∧
    (let t := { taskOf .running (recBytes 0 0 255 255 0 0 0x1000 0) with worked := true }
     t.fields.sig = 0x1000 ∧ ((taskOn [t]).sigPlace 0 0 0x1000).1 = some (some 0x11000)) := by decide +kernel

/-! ## Witnesses: queues, launches, the dispatcher, saving -/

def queueReq (logsz : Nat) : QueueReq := ⟨0, 0x2000, logsz, 3, 0, 0x1000⟩
def queue1 (st : QueueSt) : Queue := ⟨0, 0x2000, 4, 0, 0, 0x1000, st, 0, 0, 16⟩
def queueOn (st : QueueSt) (ls : List (Nat × Launch)) : State :=
  { memBase with queues := [(1, queue1 st)], launches := ls, arg := ev 1 0 .none }

theorem witness_QueueLife :
    (let formed := fun r : QueueReq => 4 ≤ r.logsz ∧ r.logsz ≤ 16 ∧ r.prio ≤ 3 ∧ r.tower ≤ 3 ∧ r.ring % 64 = 0 ∧ r.qcb % 128 = 0
     formed (queueReq 4) ∧ formed (queueReq 16) ∧ ¬ formed (queueReq 3) ∧ ¬ formed (queueReq 17)) ∧ (memBase.ctx 0).st = .resident ∧
    memBase.dev.st = .ready ∧ (memBase.translated 0 0 2 0x2000 1024).1 = true ∧ (memBase.translated 0 0 18 0x10000 1024).1 = false ∧
    (memBase.translated 0 0 2 0x1000 128) = (true, memBase) := by decide +kernel

theorem witness_QueueLife_states :
    (∀ st ∈ [QueueSt.created, .active, .suspended, .draining, .destroyed], (queueOn st []).queues.find 1 = some (queue1 st)) ∧
    (∃ p ∈ (queueOn .active [(0, { laidLaunch with q := 1 })]).launches, p.2.q = 1 ∧ p.2.hasEnded = false) ∧
    (queueOn .suspended []).queues.find 0 = none := by decide +kernel

theorem witness_QueueLife_tail :
    (match (queueOn .active []).frontGet ((queue1 .active).agent (2 ^ 64)) 0x1000 8 with
     | .ok bs s => bs == List.replicate 8 0 && s.queues == [(1, queue1 .active)] && s.groups == memBase.groups && s.teams == memBase.teams
     | _ => false) = true ∧ ((0 : Nat) ≤ 0 ∧ 0 ≤ 0 + 2 ^ 4) ∧ 17 > 0 + 2 ^ 4 := by decide +kernel

theorem witness_LaunchLife_read :
    (match ({ queueOn .active [] with fresh := 1 } : State).frontGet ((queue1 .active).agent 0) (0x2000 + 64 * (0 % 2 ^ 4)) 64 with
     | .ok bs s => field bs 0x10 8 == 0 && s.queues == [(1, queue1 .active)]
     | _ => false) = true := by decide +kernel

def launchIn (st : LaunchSt) : Launch := { laidLaunch with st := st, endv := 1 }

theorem witness_LaunchLife :
    (∀ st ∈ [LaunchSt.submitted, .admitted, .dispatching, .running, .draining],
      (queueOn .active [(1, launchIn st)]).launches.find 1 = some (launchIn st)) ∧
    (queueOn .active [(1, launchIn .submitted)]).chainCancelled ((launchIn .submitted).agent 1) 1024 0 = false ∧
    field laidLaunch.record 0x18 8 = 0 ∧ laidLaunch.inorder = false ∧ (launchIn .draining).endv ∈ [1, 2, 3] ∧
    ({ queueOn .active [(1, launchIn .draining)] with teams := [], groups := [] } : State).drained 1 = true ∧
    (queueOn .active [(0, launchIn .draining)]).drained 0 = false := by decide +kernel

/-- A block at 0x1000 with bit 0 of CTRL set cancels; a record that is not well formed. -/
theorem witness_LaunchLife_cancelled :
    ({ queueOn .active [] with mem := [(0x11010, 1)] } : State).chainCancelled (laidLaunch.agent 1) 1024 0x1000 = true ∧
    (match (queueOn .active [(1, launchIn .submitted)]).readLaunch 1 (launchIn .submitted) with
     | .ok none s => (s.launches.find 1).isSome
     | _ => false) = true := by decide +kernel

def endSeq (block : Nat) (first : Bool) : EndSeq := ⟨0, 0, 0, block, first, some 3, 9, 0⟩

theorem witness_EndSequence :
    (memBase.endPlace (endSeq 0x1000 true) (0x1000 + 0x18) 40).1 = .here 0x11018 page ∧ memBase.home 8 0x11018 = .here 0x11018 ∧
    0x11018 % 64 = 24 ∧ spaceOf 0x11018 = .hbm ∧ 0x1000 % 64 = 0 ∧ (memBase.endReady (endSeq 0x1000 true)).1 = .here 0x11000 page ∧
    (memBase.endReady (endSeq 0x1010 true)).1 = .stop := by decide +kernel

/-- A block on a page that is not present waits. -/
theorem witness_EndSequence_waits :
    (memBase.endReady (endSeq 0x10000 true)).1 = .wait := by decide +kernel

theorem witness_EndSequence_count : (memBase.endPlace (endSeq 0x1000 true) 0x1000 8).1 = .here 0x11000 page ∧
    (memBase.endAtomic (endSeq 0x1000 true) 0x1000 0x09 (BitVec.ofInt 64 (-1))).1 = .got (2 ^ 64 - 1) ∧
    (({ memBase with mem := [(0x11000, 1)] } : State).endAtomic (endSeq 0x1000 true) 0x1000 0x09 (BitVec.ofInt 64 (-1))).1 = .got 0 ∧
    (({ memBase with mem := [(0x11000, 1)] } : State).endParent (endSeq 0x1000 true)).1 = .got 0 := by decide +kernel

/-- A launch of one team of one group on one core, whose descriptor names no ports, buffers, stages or bindings. -/
def launchOne : Launch :=
  { laidLaunch with
    st := .dispatching, placed := []
    record := ((List.replicate 64 0).set 0x30 1).set 0x37 1
    desc := laidDescriptor.set 0xA5 255 }
def dispatchOn : State :=
  { memBase with
    queues := [(0, queue1 .active)], launches := [(0, launchOne)], teams := [], groups := []
    ctxs := [(0, { freshCtx with st := .resident, saveSize := 2 ^ 24 })], arg := ev 0 0 .none }

theorem witness_DispatcherActs : launchOne.portMask = 0 ∧ launchOne.redundant = false ∧ launchOne.snap = false ∧ launchOne.nbind = 0 ∧
    launchOne.nbuf = 0 ∧ launchOne.teamSize = 1 ∧ launchOne.coreCount = 1 ∧ launchOne.perCore = 1 ∧ launchOne.nstage = 1 ∧
    launchOne.outq 0 = 255 ∧ launchOne.maxt 0 = 0 ∧ 0 < launchOne.nteams ∧ launchOne.prio ≠ 0 := by decide +kernel

theorem witness_DispatcherActs_room : (dispatchOn.areaSlots launchOne).isSome = true ∧
    (dispatchOn.placements keepAll (dispatchOn.heldCores 0) launchOne.want).head? = some [[0]] := by decide +kernel

/-- A team stuck in SQADD for 100 µs, a held team. -/
def stuckGrp : Group := { waiting .stageQueue (.sqadd (mxS 6)) with wait := some ⟨.stageQueue, 0, 0, 0x1000, 0⟩ }
def launchQ : Launch := { laidLaunch with desc := (laidDescriptor.set 0xA5 0).set 0xA4 0 }

theorem witness_DispatcherActs_teams :
    stuckGrp.addStuck 100000 0x1000 = true ∧ stuckGrp.addStuck 99999 0x1000 = false ∧ stuckGrp.addStuck 100000 0x1040 = false ∧ launchQ.outq 0 ≠ 255 ∧
    ((List.range launchQ.nstage).find? fun k => launchQ.inq k == launchQ.outq 0).isSome = true ∧
    ({ laidTeam with st := .saved .held } : Team).st = .saved .held ∧ (launchIn .running).st = .running := by decide +kernel

def haltGrp (c : Bool) : Group := { grpFetch with halt := some c, skid := 1 }

theorem witness_StopAndSave :
    (∀ c ∈ [true, false], (evOn (haltGrp c) 0 0).groups.find 0 = some (haltGrp c) ∧ (haltGrp c).hmode = false ∧ (haltGrp c).st = .ready ∧
      (haltGrp c).clause = none ∧ (haltGrp c).hword = 0 ∧ (haltGrp c).stepDue = false ∧ (haltGrp c).halt = some c) ∧
    launchH.handler ≠ exitPc ∧ ({ laidTeam with st := .stopping .preempt } : Team).st = .stopping .preempt ∧
    ({ grpFetch with stepDue := true } : Group).stepDue = true ∧ grp.clause = some spot ∧ spot.begun = true := by decide

/-- A team whose stopped group waits for copies, 2 µs after it was told to stop; one that has nothing to wait for. -/
def opWait : Op := ⟨0, 2, 0x36, 0, [], [], .cwait 5, 0⟩
def stopping (ops : List Op) : State :=
  { stage laidLaunch { laidTeam with st := .stopping .preempt } { grpFetch with st := .stopped, ops := ops } with time := 2000 }

theorem witness_StopAndSave_teams :
    (stopping [opWait]).groups = [(0, { grpFetch with st := .stopped, ops := [opWait] })] ∧ opWait.act = .cwait 5 ∧
    laidTeam.stoppedAt + 2000 ≤ (stopping [opWait]).time ∧ (stopping []).copies = [] ∧ laidLaunch.portMask = 0 ∧
    (∀ x ∈ (stopping []).groups, x.2.st = .stopped) := by decide +kernel

/-! A team whose save area is the page at 0 is saved: every write of its record succeeds. -/

def teamStop : Team := { laidTeam with st := .stopping .preempt, members := [.retired] }
def areaOn : State := { withPage page (stage laidLaunch teamStop grp) with
  groups := [], ctxs := [(0, { freshCtx with st := .resident, saveSize := 2 ^ 24, saveUsed := [0] })] }

/-- What a write to the area leaves as it is. -/
def Kept (s : State) : Prop :=
  s.clusters = areaOn.clusters ∧ s.ctxs = areaOn.ctxs ∧ (s.teams = areaOn.teams ∧ s.cores = areaOn.cores) ∧ s.poison = [] ∧
  (∀ pa, (s.frame pa).st = .normal) ∧ ∀ t, ∀ p ∈ (s.tower t).l2, p.1 < 2 ^ 33

theorem kept_foldl {α : Type} (f : State → α → State) (l : List α) (hf : ∀ s, Kept s → ∀ a ∈ l, Kept (f s a)) :
    ∀ s, Kept s → Kept (l.foldl f s) := by
  induction l with
  | nil => exact fun _ h => h
  | cons a t ih => exact fun s h => ih (fun s h b hb => hf s h b (List.mem_cons_of_mem _ hb)) _ (hf s h a List.mem_cons_self)

theorem kept_modTower {s : State} (n : Nat) (f : Tower → Tower) (h : Kept s)
    (hf : ∀ w k, (w.frames.findD k freshFrame).st = .normal → ((f w).frames.findD k freshFrame).st = .normal)
    (hl : (∀ p ∈ (s.tower n).l2, p.1 < 2 ^ 33) → ∀ p ∈ (f (s.tower n)).l2, p.1 < 2 ^ 33) : Kept (s.modTower n f) := by
  obtain ⟨h1, h2, h3, h0, h4, h5⟩ := h
  refine ⟨h1, h2, h3, h0, fun pa => ?_, fun t => ?_⟩
  · have := h4 pa
    simp only [State.frame, State.tower, State.modTower, State.setTower] at *
    by_cases hn : homeTower pa = n
    · rw [hn, Tbl.findD_put_self]; rw [hn] at this; exact hf _ _ this
    · rw [Tbl.findD_put_ne _ _ _ hn]; exact this
  · simp only [State.tower, State.modTower, State.setTower] at *
    by_cases hn : t = n
    · rw [hn, Tbl.findD_put_self]; exact hl (h5 n)
    · rw [Tbl.findD_put_ne _ _ _ hn]; exact h5 t

theorem kept_setFrame {s : State} (pa : Nat) (f : Frame) (h : Kept s) (hf : f.st = .normal) : Kept (s.setFrame pa f) :=
  kept_modTower _ _ h (fun w k hw => by
    by_cases hn : k = frameNo pa
    · subst hn; rw [Tbl.findD_put_self]; exact hf
    · rw [Tbl.findD_put_ne _ _ _ hn]; exact hw) id

theorem kept_setL2 {s : State} (pa : Nat) (l : L2Line) (h : Kept s) (hp : lineNo pa < 2 ^ 33) : Kept (s.setL2 pa l) :=
  kept_modTower _ _ h (fun _ _ h => h) fun h p hm => by
    have : ∀ (t : Tbl L2Line), (∀ p ∈ t, p.1 < 2 ^ 33) → ∀ p ∈ t.put (lineNo pa) l, p.1 < 2 ^ 33 := by
      intro t
      induction t with
      | nil => intro _ p hm; simp [Tbl.put] at hm; subst hm; exact hp
      | cons q t ih =>
        intro ht p hm
        have ht' := fun p hp => ht p (List.mem_cons_of_mem _ hp)
        unfold Tbl.put at hm
        split at hm
        · rcases List.mem_cons.1 hm with rfl | hm
          · exact hp
          · exact ht p hm
        · split at hm
          · rcases List.mem_cons.1 hm with rfl | hm
            · exact hp
            · exact ht' p hm
          · rcases List.mem_cons.1 hm with rfl | hm
            · exact ht _ List.mem_cons_self
            · exact ih ht' p hm
    exact this _ h p hm

theorem kept_dropClean {s : State} (pa : Nat) (h : Kept s) : Kept (s.dropClean pa) := by
  obtain ⟨a, b, c, d, e, f⟩ := h
  have hm : ∀ n, Tbl.find (s.dropClean pa).towers n = (s.towers.find n).map fun w => { w with
      rdc := w.rdc.filterMap (s.refreshCopy (lineNo pa) (lineOf (Mem.getBytes s.mem (lineNo pa * 128) 128))) } :=
    fun n => Tbl.find_map s.towers (fun _ (w : Tower) => { w with
      rdc := w.rdc.filterMap (s.refreshCopy (lineNo pa) (lineOf (Mem.getBytes s.mem (lineNo pa * 128) 128))) }) n
  refine ⟨a, b, c, d, fun p => ?_, fun t => ?_⟩
  · have := e p
    simp only [State.frame, State.tower, Tbl.findD] at *
    rw [hm]
    cases hw : s.towers.find (homeTower p) with
    | none => rw [hw] at this; exact this
    | some w => rw [hw] at this; simpa using this
  · have := f t
    simp only [State.tower, Tbl.findD] at *
    rw [hm]
    cases hw : s.towers.find t with
    | none => rw [hw] at this; exact this
    | some w => rw [hw] at this; simpa using this

theorem mem_del {α : Type} (n : Nat) : ∀ (t : Tbl α), ∀ p ∈ t.del n, p ∈ t
  | [], _, h => by cases h
  | (k, w) :: t, p, h => by
    unfold Tbl.del at h
    split at h
    · exact List.mem_cons_of_mem _ h
    · rcases List.mem_cons.1 h with rfl | h
      · exact List.mem_cons_self
      · exact List.mem_cons_of_mem _ (mem_del n t p h)

theorem kept_evictHome {s : State} (n : Nat) (h : Kept s) (hn : n < 2 ^ 33) : Kept (s.evictHome (n * 128)) := by
  have hs : spaceOf (n * 128) = .hbm := by unfold spaceOf; rw [if_pos (by omega)]
  have hl : lineNo (n * 128) < 2 ^ 33 := by unfold lineNo homeKey; rw [hs]; simp; omega
  have h1 : Kept (s.writeBackHome (n * 128)) := by
    unfold State.writeBackHome
    simp only [hs, reduceCtorEq, if_false]
    split
    · exact kept_setL2 _ _ h hl
    · exact h
  unfold State.evictHome
  dsimp only
  split
  · split
    · exact h1
    · unfold State.dropHome
      simp only [hs, reduceCtorEq, if_false]
      exact kept_modTower _ _ h1 (fun _ _ h => h) fun h p hp => h p (mem_del _ _ p hp)
  · exact h1

theorem kept_makeRoom {s : State} (key : Nat) (h : Kept s) : Kept (s.makeRoom key) := by
  unfold State.makeRoom
  dsimp only
  split
  · exact h
  · split
    · rename_i n hn
      have := List.mem_of_getElem? hn
      obtain ⟨p, hp, rfl⟩ := List.mem_map.1 this
      exact kept_evictHome _ h (h.2.2.2.2.2 _ p (List.mem_filter.1 hp).1)
    · exact h

theorem kept_homeMerge {s : State} (pa : Nat) (d : BitVec 1024) (m : BitVec 128) (h : Kept s) (hp : pa < 2 ^ 40) :
    Kept (s.homeMerge pa d m) := by
  have hs : spaceOf pa = .hbm := by unfold spaceOf; rw [if_pos (by omega)]
  have hk : homeKey pa = pa := by unfold homeKey; rw [hs]; rfl
  have hl : lineNo pa < 2 ^ 33 := by unfold lineNo; rw [hk]; omega
  have hl2 : lineNo (lineNo pa * 128) < 2 ^ 33 := by
    unfold lineNo homeKey; rw [hs]
    have : spaceOf (pa / 128 * 128) = .hbm := by unfold spaceOf; rw [if_pos (by omega)]
    simp [this]; omega
  have touch : Kept (s.touchHome pa) := by
    unfold State.touchHome
    simp only [hk, hs, reduceCtorEq, if_false]
    split
    · exact h
    · exact kept_setL2 _ _ (kept_makeRoom _ h) hl
  unfold State.homeMerge
  split
  · exact h
  · apply kept_dropClean
    have h2 := kept_foldl (fun (s : State) k =>
      if (List.range 32).all fun j => m.getLsbD (32 * k + j) then s.clearPoison (sectorOf (lineNo pa * 128) + k) else s)
      (List.range 4) (fun u hu k _ => by
        split
        · obtain ⟨a, b, c, e, f⟩ := hu
          exact ⟨a, b, c, by simp [State.clearPoison, e], f⟩
        · exact hu)
      { s.touchHome pa with
        mem := (List.range 128).foldl (fun mem j =>
          if m.getLsbD j then Mem.set mem (lineNo pa * 128 + j) (lineByte d j) else mem) (s.touchHome pa).mem } touch
    have h3 := fun (f : Frame) => kept_setFrame (lineNo pa * 128) f h2
    split
    · exact kept_setL2 _ _ (h3 _ (h2.2.2.2.2.1 (lineNo pa * 128))) hl2
    · exact h3 _ (h2.2.2.2.2.1 (lineNo pa * 128))

theorem kept_mergeBytes {s : State} (l : List (Nat × Marked)) (h : Kept s) (hl : ∀ p ∈ l, p.1 < 2 ^ 40 ∧ p.2.2 = false) :
    Kept (s.mergeBytes l) := by
  unfold State.mergeBytes
  refine kept_foldl _ _ (fun u hu n hn => ?_) s h
  obtain ⟨p, hp, rfl⟩ := List.mem_map.1 (List.mem_eraseDups.1 hn)
  refine kept_foldl _ _ (fun v hv p hp => ?_) _ (kept_homeMerge _ _ _ hu ?_)
  · simp only [List.mem_filter] at hp
    rw [(hl p hp.1.1).2] at hp; exact absurd hp.2 (by decide)
  · have := (hl p hp).1; omega

theorem areaReach_open {s : State} (h : Kept s) {va n : Nat} (hv : va < 65536) :
    s.areaReach teamStop.agent .engineWrite va n = .ok (0x10000 + va, 0x10000 + va, page) s := by
  obtain ⟨h1, h2, h3, h0, h4, h5⟩ := h
  have hc : s.cluster 0 = areaOn.cluster 0 := by unfold State.cluster; rw [h1]
  have hx : ∀ k, s.ctx k = areaOn.ctx k := fun k => by unfold State.ctx; rw [h2]
  have hs : spaceOf (0x10000 + va) = .hbm := by unfold spaceOf; rw [if_pos (by omega)]
  have hk : homeKey (0x10000 + va) = 0x10000 + va := by unfold homeKey; rw [hs]; rfl
  have ht : s.lookup 0 0 va = (.ok page, true) := by
    unfold State.lookup; rw [hc]
    have : (areaOn.cluster 0).tlb = [page] := rfl
    rw [this]
    have : page.hits 0 va = true := by simp [TlbEntry.hits, page, TlbEntry.size]; omega
    simp [List.find?, this]
  have hp : permits false (s.sealedAt 0 va n) .engineWrite va page = .ok (0x10000 + va) page := by
    have : s.sealedAt 0 va n = false := by unfold State.sealedAt; rw [hx]; rfl
    rw [this]; simp [permits, page, AccKind.writes]
  have hq : s.permitted 0 0 false .engineWrite va n = (.ok (0x10000 + va) page, s) := by
    unfold State.permitted; rw [ht]; simp only [hp]; rfl
  have hh : s.home 8 (0x10000 + va) = .here (0x10000 + va) := by
    simp [State.home, hk, h4, hs]
  unfold State.areaReach State.reach
  have e1 : teamStop.agent.cl = 0 := rfl
  have e2 : teamStop.agent.ctx = 0 := rfl
  simp only [e1, e2, hx, hq, hh, hs, show cfgPriv (areaOn.ctx 0).ctxcfg = false from rfl, show ¬ 2 ^ 52 ≤ va by omega, if_false,
    reduceCtorEq]

theorem torn_open {s : State} (h : Kept s) (a n : Nat) : s.torn a n = false := by
  have : s.poison = [] := h.2.2.2.1
  simp [State.torn, State.poisoned, this]

theorem linePieces_below {α : Type} (n va : Nat) (l : List α) : ∀ p ∈ linePieces n va l,
    (p.1 < va + 128 * n ∧ p.2.length ≤ 128) ∧ ∀ b ∈ p.2, b ∈ l := by
  induction n generalizing va l with
  | zero => simp [linePieces]
  | succ n ih =>
    intro p hp
    unfold linePieces at hp
    split at hp
    · simp at hp
    · rcases List.mem_cons.1 hp with rfl | hp
      · exact ⟨⟨by simp only; omega, by simp only [List.length_take]; omega⟩, fun b hb => List.mem_of_mem_take hb⟩
      · obtain ⟨⟨h1, h2⟩, h3⟩ := ih _ _ p hp
        exact ⟨⟨by omega, h2⟩, fun b hb => List.mem_of_mem_drop (h3 b hb)⟩

theorem putPlain_open {s : State} (h : Kept s) {va : Nat} {l : List Byte} (hl : va + l.length + 256 < 65536) :
    ∃ u, s.putPlain teamStop.agent va l = .ok () u ∧ Kept u := by
  unfold State.putPlain State.putMarked
  have key : ∀ (ps : List (Nat × List Marked)), (∀ p ∈ ps, p.1 < 65536 ∧ p.2.length ≤ 128 ∧ ∀ b ∈ p.2, b.2 = false) → ∀ s, Kept s →
      ∃ r u, Got.each (fun (p : Nat × List Marked) s =>
        (s.areaReach teamStop.agent .engineWrite p.1 p.2.length).bind fun q s =>
          if s.torn q.1 p.2.length then .fail 0 0 s else .ok () ((s.mergeBytes ((List.range p.2.length).map fun j => (q.1 + j, p.2.getD j (0, false)))).mirrorStore
            goneGid teamStop.agent.launch teamStop.agent.ctx q.2.1 q.2.2)) ps s = .ok r u ∧ Kept u := by
    intro ps
    induction ps with
    | nil => exact fun _ s h => ⟨[], s, rfl, h⟩
    | cons p t ih =>
      intro hp s hs
      obtain ⟨h1, h2, h3⟩ := hp p List.mem_cons_self
      have hm : Kept (s.mergeBytes ((List.range p.2.length).map fun j => (0x10000 + p.1 + j, p.2.getD j (0, false)))) := by
        refine kept_mergeBytes _ hs fun x hx => ?_
        obtain ⟨j, hj, rfl⟩ := List.mem_map.1 hx
        have hj := List.mem_range.1 hj
        refine ⟨by simp only; omega, ?_⟩
        rw [List.getD_eq_getElem _ _ hj]
        exact h3 _ (List.getElem_mem hj)
      obtain ⟨r, u, hr, hu⟩ := ih (fun q hq => hp q (List.mem_cons_of_mem _ hq)) _ hm
      refine ⟨() :: r, u, ?_, hu⟩
      have hv : ∀ v : State, v.mirrorStore goneGid teamStop.agent.launch teamStop.agent.ctx (0x10000 + p.1) page = v := fun _ => rfl
      unfold Got.each
      rw [areaReach_open hs h1]
      show (if s.torn (0x10000 + p.1) p.2.length then Got.fail 0 0 s else .ok () (State.mirrorStore _ _ _ _ _ _)).bind _ = _
      rw [torn_open hs, hv]
      show (Got.each _ t _).bind _ = _
      rw [hr]
      rfl
  have hps : ∀ p ∈ linePieces ((l.map fun b => (b, false)).length / 128 + 2) va (l.map fun b => (b, false)),
      p.1 < 65536 ∧ p.2.length ≤ 128 ∧ ∀ b ∈ p.2, b.2 = false := by
    intro p hp
    have := linePieces_below _ _ _ p hp
    simp only [List.length_map] at this
    exact ⟨by omega, this.1.2, fun b hb => by
      obtain ⟨c, -, rfl⟩ := List.mem_map.1 (this.2 b hb)
      rfl⟩
  obtain ⟨r, u, hr, hu⟩ := key _ hps s h
  exact ⟨u, by rw [hr]; rfl, hu⟩

theorem refreshCtx_teams (s : State) (c : Nat) : (s.refreshCtx c).teams = s.teams := by
  unfold State.refreshCtx
  dsimp only
  repeat' split
  all_goals rfl

theorem witness_StopAndSave_saved : ∃ s1, areaOn.saveTeam 0 teamStop .preempt = .ok () s1 ∧ (s1.teams.find 0).isSome = true := by
  have hk : Kept areaOn := ⟨rfl, rfl, ⟨rfl, rfl⟩, rfl, fun pa => rfl, fun t p hp => absurd hp (by simp [areaOn, State.tower, withPage, stage, State.reset, Tbl.findD, Tbl.find, freshTower])⟩
  have hm : areaOn.membersOn teamStop = [] := rfl
  have hb : areaOn.bufsOf 0 teamStop = [] := rfl
  have hs : (areaOn.ctx teamStop.ctx).moreSlots teamStop.slotR.length (areaOn.rowsToSave []) = some [] := by decide +kernel
  obtain ⟨u, hu, k⟩ := putPlain_open hk (va := (areaOn.ctx teamStop.ctx).slotVa teamStop.slotT)
    (l := sliceBytes (teamStop.record []) 0 slotSize) (by simp [sliceBytes, slotSize]; decide)
  refine ⟨u.leaveCores 0 teamStop .preempt (areaOn.membersOff teamStop) [] [], ?_, ?_⟩
  · unfold State.saveTeam
    simp only [hm, hb, hs, List.map_nil, List.filter_nil]
    rw [hu]
    rfl
  · unfold State.leaveCores
    rw [refreshCtx_teams]
    have hf : ∀ p, (u.flushL1 0 false p).teams = areaOn.teams := fun p => by
      have hc : u.core 0 = areaOn.core 0 := by unfold State.core; rw [k.2.2.1.2]
      have hl : (areaOn.core 0).l1 = [] := rfl
      unfold State.flushL1 State.cleanL1
      simp only [hc, hl, List.filter_nil, List.foldl_nil]
      exact k.2.2.1.1
    have hc : teamStop.cores = [0] := rfl
    have hm : u.membersOn teamStop = [] := rfl
    simp only [State.modTeam, State.modCtx, hm, hc, List.foldl_nil, List.foldl_cons, hf]
    decide

theorem witness_StopAndSave_may : areaOn.teams.find 0 = some teamStop ∧ teamStop.st = .stopping .preempt ∧ areaOn.groups = [] ∧
    areaOn.copies = [] ∧ areaOn.launches.find teamStop.launch = some laidLaunch ∧
    ({ teamStop with st := .stopping .rollback } : Team).st = .stopping .rollback := by decide +kernel

theorem witness_SaveRecordHolds :
    (let g : Group := { grp with rows := [(0, zeroRow), (63, zeroRow)], tword := 15, skidn := 63, hword := 15, dphase := 31, dcs := [(5, 63)]
                                 ports := [(223, List.replicate 8 ⟨1, true⟩)], deferred := [List.replicate 128 0] }
     (g.rows.map (·.1)).Pairwise (· < ·) ∧ (∀ p ∈ g.rows, p.1 < 64) ∧ g.tword < 16 ∧ g.skidn < 64 ∧ g.hword < 16 ∧ g.dphase < 32 ∧
     g.dc 5 < 64 ∧ g.dc 0 < 64 ∧ (g.queue 223).length ≤ 8 ∧ (∀ e ∈ g.queue 223, e.arrived = true) ∧ g.queue 0 = [] ∧
     g.deferred.length ≤ 80 ∧ (∀ d ∈ g.deferred, d.length = 128)) := by decide +kernel

theorem witness_SaveRecordHolds_team :
    (let t : Team := { laidTeam with bars := List.replicate 4 ⟨4095, 4095, true⟩, bcs := [(127, (2 ^ 64 - 1, 0))] }
     (∀ k < 4, (t.bar k).arr < 4096 ∧ (t.bar k).exp < 4096) ∧ t.bc 15 7 = (2 ^ 64 - 1, 0) ∧ (grp.num < 2048)) := by decide +kernel

/-! ## Witnesses: steps, checks and reads -/

theorem witness_DecodeAndEncodeAgree : (Instr.iadd { vr0 with b := 127, lit := some 5 }).isEvent = false ∧
    (Instr.iadd { vr0 with b := 127, lit := some 5 }).WellFormed ∧
    decodesTo (encode (.iadd { vr0 with b := 127, lit := some 5 })) (.iadd { vr0 with b := 127, lit := some 5 }) = true := by
  refine ⟨rfl, by decide, by decide⟩

/-- Every clause of the check: a bad header, a good one with instructions of its class, of another class, behind a transfer,
with a reserved field, privileged, unassigned, cut short. -/
theorem witness_ClauseDefects_headers : HeaderGood 0x10000000 ∧ HeaderGood 0xF6000000 ∧ ¬ HeaderGood 0x18000000 ∧
    ¬ HeaderGood 0x10000001 ∧ ¬ HeaderGood 0x00000000 := by
  refine ⟨?_, ?_, ?_, ?_, ?_⟩ <;> (unfold HeaderGood; decide)

def tlb1 : Instr := .tlbinv { p := 68, q := 69, imm := 5, lit := none }

theorem witness_ClauseDefects :
    Encodable [.iadd vr0] ∧ ¬ IllStructured 0 [.iadd vr0] ∧ IllStructured 1 [.iadd vr0] ∧
    Encodable [tlb1] ∧ tlb1.rsvf = false ∧ tlb1.privileged = true ∧ ¬ IllStructured 3 [tlb1] ∧
    (∃ i : Instr, i.isTransfer = true ∧ IllStructured 3 [i, i]) ∧
    (Instr.redux { mx0 with sz := 2 }).wf = false := by
  refine ⟨?_, ?_, ?_, ?_, by decide, by decide, ?_, ?_, by decide⟩
  · intro i hi; simp only [List.mem_singleton] at hi; subst hi; exact ⟨rfl, by decide⟩
  · rintro (⟨i, hi, k, hk, hne⟩ | ⟨i, hi, h⟩)
    · simp only [List.mem_singleton] at hi; subst hi; exact hne (by cases hk; rfl)
    · simp at hi
  · exact .inl ⟨_, List.mem_singleton.2 rfl, 0, rfl, by decide⟩
  · intro i hi; simp only [List.mem_singleton] at hi; subst hi; exact ⟨rfl, by decide⟩
  · rintro (⟨i, hi, k, hk, hne⟩ | ⟨i, hi, h⟩)
    · simp only [List.mem_singleton] at hi; subst hi; cases hk; exact hne rfl
    · simp at hi
  · exact ⟨.exit ⟨0⟩, rfl, .inr ⟨_, List.mem_cons_self, rfl⟩⟩

/-- A well-formed instruction with a reserved field; an unassigned word; a word whose extension is missing. -/
theorem witness_ClauseDefects_words :
    Encodable [.cancel { p := 70, q := 1, imm := 0, lit := none }] ∧ (Instr.cancel { p := 70, q := 1, imm := 0, lit := none }).rsvf = true ∧
    Unassigned 0xDF000000 ∧ ¬ Unassigned 0x410E1FF8 ∧ refusal [0x410E1FF8] = some .truncated := by
  refine ⟨?_, by decide, ?_, ?_, by decide⟩
  · intro i hi; simp only [List.mem_singleton] at hi; subst hi; exact ⟨rfl, by decide⟩
  all_goals (unfold Unassigned; decide)

/-- A lathe's turn goes to group 0, whose clause has begun, is to begin, waits for counter 0, holds a bad word, or is to be
fetched. -/
def begins (begun : Bool) (header : Word) (w : Word) (n : Nat) : Group :=
  { grp with clause := some { spot with begun := begun, header := header, words := w :: List.replicate 14 0 }, dcs := [(0, n)] }
def turnOn (g : Group) : State := { stage laidLaunch laidTeam g with turns := [.lathe 5 0 0], cur := none }

theorem witness_StepRunsTheInstruction : ∀ g ∈ [begins true 0xF0000000 0x00042038 0, begins false 0xF0000000 0x00042038 0,
      begins false 0xF0080000 0x00042038 1, begins true 0xF0000000 0x60000000 0, grpFetch],
    (turnOn g).turns = [.lathe 5 0 0] ∧ (({ turnOn g with tick := 1, turns := [] } : State).passTime 5).dev.st = .ready ∧
    (({ turnOn g with tick := 1, turns := [] } : State).passTime 5).pick 0 0 = some 0 ∧
    ((({ turnOn g with tick := 1, turns := [] } : State).passTime 5).groups.find 0) = some g := by
  intro g hg
  simp only [List.mem_cons, List.not_mem_nil, or_false] at hg
  rcases hg with rfl | rfl | rfl | rfl | rfl <;> exact ⟨rfl, by decide, by decide, by decide⟩

theorem witness_StepRunsTheInstruction_words :
    decodesTo [0x00042038] (.iadd { d := 1, a := 2, la := false, b := 3, lb := true, stall := 0, lit := none }) = true ∧
    refusal [0x60000000] = some (.unassigned 0x60) ∧ (0xF0080000 : Word).getLsbD 19 = true ∧ 0xF0080000 / 2 ^ 16 % 8 = 0 ∧
    Instr.isEvent .powerGood = true := by decide

/-- PRIV without the mode, RSVF; each in a state that runs its group. -/
theorem witness_DefectsTrap : tlb1.defect false = some 0x04 ∧ tlb1.defect true = none ∧ tlb1.isEvent = false ∧
    (Instr.cancel { p := 70, q := 1, imm := 0, lit := none }).defect true = some 0x03 ∧ base.cur = some 0 ∧
    base.groups.find 0 = some grp ∧ grp.clause = some spot ∧ base.teams.find grp.team = some laidTeam ∧
    base.launches.find laidTeam.launch = some laidLaunch := by decide +kernel

/-- Spilled names; RMAX reached; a stall under SBCHK; no room in the pool; a full counter. -/
theorem witness_IssueOrder :
    ({ grp with spilled := [2] } : Group).wait = none ∧
    (let g : Group := { grp with rows := (List.range 64).map fun n => (n, zeroRow) }
     base.rmaxOf g < g.rows.length + 1) ∧
    (let g : Group := { grp with ctxcfg := 2, hazards := [⟨2, zeroRow, 0xFFFFFFFF, 1⟩] }
     cfgSbchk g.ctxcfg = true ∧ g.tooEarly { vr := [2] } 0xFFFFFFFF = true) ∧
    (let s : State := { base with cores := [(0, { freshCore with allocWait := [(1, 0)] })] }
     grp.granted = false ∧ (s.core 0).allocWait ≠ [] ∧ 0 < max (0 + 1) (s.rminOf grp) - max 0 (s.rminOf grp)) ∧
    63 ≤ ({ grp with dcs := [(5, 63)] } : Group).dc 5 := by decide +kernel

theorem witness_EarlyReads :
    (let h : Hazard := ⟨2, zeroRow, 0xFFFF, 3⟩
     let g : Group := { grp with rows := [(2, rowOf fun _ => 7)], hazards := [h] }
     g.ops = [] ∧ g.hazards = [h] ∧ (g.rows.find h.reg).isSome = true ∧ 0 < h.left ∧ inMask h.lanes 16 = false) ∧
    (∀ o ∈ [opDone], ∀ p ∈ o.vres, p.1 = 3 → inMask p.2.2 16 = false) ∧ (∀ o ∈ [opDone], ∀ p ∈ o.sres, p.1 ≠ 5) := by decide

/-- A step from a state with memory that is in its form. -/
theorem witness_MemoryKeepsItsForm : Memory.wf ({ turnOn grpFetch with dev := Device.reset, mem := [(4, 1), (9, 2)] } : State).mem = true ∧
    (match step { turnOn grpFetch with dev := Device.reset, mem := [(4, 1), (9, 2)] } with
     | .next t => Memory.wf t.mem
     | _ => false) = true := by decide +kernel

/-- A double-bit error in lane 3 of v2, and in s5, of a running group and of one whose launch has ended. -/
def upsetOn (l : Launch) (u : Upset) : State :=
  { stage l laidTeam { grp with rows := [(2, rowOf fun _ => 7)], sregs := [(5, 9)] } with turns := [.upset 5 u], cur := none }
theorem witness_RegisterErrors : ∀ l ∈ [laidLaunch, { laidLaunch with st := .faulted }], ∀ u ∈ [Upset.vector 0 2 3 true, .scalar 0 5 true, .vector 0 2 31 false],
    let s1 := ({ upsetOn l u with tick := 1, turns := [] } : State).passTime 5
    (upsetOn l u).turns = [.upset 5 u] ∧ ((s1.groups.find 0).bind (·.rows.find 2)).isSome ∧ (s1.teams.find 0).isSome ∧
    s1.launches.find laidTeam.launch = some l := by decide +kernel
theorem test_double_error : (match step (upsetOn laidLaunch (.vector 0 2 3 true)) with
    | .next n => (n.groups.find 0).map (fun g => (lane (g.vreg 2) 3, lane (g.vreg 2) 4)) == some (0, 7) &&
        (n.launches.find 0).map (·.chkiv) == some 1
    | _ => false) = true := by decide +kernel

/-! ## Single steps: expected values by hand from the rule that each docstring names -/

/-- The group whose registers hold `rows` and `sregs` and whose clause has begun. -/
def runG (rows : List (Nat × Row)) (sregs : List (Nat × DWord)) : Group := { grp with rows := rows, sregs := sregs }
/-- A register lane, a scalar, or a program counter of group 0 after an instruction on a small state. -/
def laneAfter (i : Instr) (g : Group) (v n : Nat) : Option Word :=
  match exec i (stage laidLaunch laidTeam g) with
  | .next u => (u.groups.find 0).map fun h => lane (h.vreg v) n
  | _ => none
def scalarAfter (i : Instr) (g : Group) (k : Nat) : Option DWord :=
  match exec i (stage laidLaunch laidTeam g) with
  | .next u => (u.groups.find 0).map fun h => h.sreg k
  | _ => none
def pcAfter (i : Instr) (g : Group) (n : Nat) : Option Word :=
  match exec i (stage laidLaunch laidTeam g) with
  | .next u => (u.groups.find 0).map fun h => lane h.pcv n
  | _ => none
def ab (a b : Word) : Group := runG [(2, rowOf fun _ => a), (3, rowOf fun _ => b)] []

/-- R192: modulo 2^32, in every lane. -/
theorem test_iadd_wraps : laneAfter (.iadd vr0) (ab 0xFFFFFFFF 2) 1 31 = some 1 := by decide +kernel
/-- R192: signed high half: (−2^31) × 2 = −2^32. -/
theorem test_imulh_i : laneAfter (.imulhI vr0) (ab 0x80000000 2) 1 0 = some 0xFFFFFFFF := by decide +kernel
/-- R195: the manual's own example of BFE.i. -/
theorem test_bfe_i : laneAfter (.bfeI vr0) (ab 0x0000F000 0x0000040C) 1 5 = some 0xFFFFFFFF := by decide +kernel
/-- R194: the count is b[7:0]: 32 and more give 0, and bits 31:8 are ignored. -/
theorem test_shl_amount : laneAfter (.shl vr0) (ab 1 33) 1 0 = some 0 ∧
    laneAfter (.shl vr0) (ab 1 0x101) 1 0 = some 2 := by decide +kernel
/-- R196: signed and unsigned comparison of 0xFFFFFFFF with 0. -/
theorem test_icmp : laneAfter (.icltI vr0) (ab 0xFFFFFFFF 0) 1 0 = some 0xFFFFFFFF ∧
    laneAfter (.icltN vr0) (ab 0xFFFFFFFF 0) 1 0 = some 0 := by decide +kernel
/-- R199, IEEE 754: 1 + 2^-24 rounds to 1 (ties to even), and 1.5 × 2 = 3. -/
theorem test_fadd_ties : laneAfter (.fadd { vx0 with v := vr0 }) (ab 0x3F800000 0x33800000) 1 0 = some 0x3F800000 := by decide +kernel
theorem test_fmul : laneAfter (.fmul { vx0 with v := vr0 }) (ab 0x3FC00000 0x40000000) 1 0 = some 0x40400000 := by decide +kernel
/-- R219: 64-bit scalars wrap. -/
theorem test_ssub_wraps : scalarAfter (.ssub { sr0 with b := 127, lit := some 1 }) (runG [] [(2, 0)]) 1 = some 0xFFFFFFFFFFFFFFFF := by
  decide +kernel
theorem test_sadd_keeps : scalarAfter (.sadd sr0) (runG [] [(2, 5), (3, 7), (4, 9)]) 1 = some 12 ∧
    scalarAfter (.sadd sr0) (runG [] [(2, 5), (3, 7), (4, 9)]) 4 = some 9 := by decide +kernel
/-- R53: without the last word of a clause the program counters stay. -/
theorem test_pc_within_clause : pcAfter (.iadd vr0) (ab 1 2) 0 = some 0 := by decide +kernel
/-- The first step after an instruction is laid runs it (log entry 2). -/
theorem test_first_step : (match step (State.reset.withFetchWord 32 0x00042038) with
    | .next u => ((u.groups.find 0).bind (·.clause)).map (·.pos)
    | _ => none) = some 1 := by decide +kernel

/-! ## Witnesses: room in the slices, and conditions that stand beside those above -/

/-- The states above whose statements ask for room in the slices of L2. -/
theorem witness_Roomy : ∀ s ∈ [memBase, framed, base, rowsOn, sigOn 5, qcbOn 4 0, resolveOn [logEntry 511] true,
    towerOn freshTower (ev 0 0 .none), inboundOn true, dispatchOn], Roomy s := by
  intro s hs
  simp only [List.mem_cons, List.not_mem_nil, or_false] at hs
  rcases hs with rfl | rfl | rfl | rfl | rfl | rfl | rfl | rfl | rfl | rfl <;> exact roomy_blank _ rfl

theorem witness_LoadedBytes_bytes : cacheable page 0x11000 = true ∧ memBase.l1Line 0 0 (0x1000 / 128) = none ∧
    homeTower 0x11000 = towerOfCore 0 ∧ (∀ j < 128, memBase.poisoned (0x11000 + j) = false) := by decide +kernel

theorem witness_AtomicAtHome_home : ∀ n ∈ [4, 8], memBase.home 8 0x11000 = .here 0x11000 ∧ 0x11000 % n = 0 ∧
    (∀ j < 8, memBase.tableByte (0x11000 + j) = none) ∧ ofBytes (memBase.homeBytes 0x11000 n) = 0 := by decide +kernel

/-- A group that comes to its lid, and one that waits at its home, before and behind another. -/
def lidWaiter (arrival : Nat) : Group := { grp1 with wait := some ⟨.lid, 0, arrival, 0x11000, 0⟩ }
theorem witness_LidResult_looks :
    LooksAt memBase (seen memBase 0 grp1 spot1 laidTeam laidLaunch) 0x1000 0x11000 memBase ∧
    (let s := withPage page (stage laidLaunch laidTeam (lidWaiter 3))
     LooksAt s (seen s 0 (lidWaiter 3) spot1 laidTeam laidLaunch) 0x1000 0x11000 s ∧ s.reserveHolds 0x11000 = false ∧
     Issuable (.acq (mxS 6)) { sr := [10], opc := 0x18, sz := 0, out := .input } s 0 (lidWaiter 3) spot1 laidTeam laidLaunch) ∧
    memBase.sameHome 0x11000 0x11000 = true ∧ (lidWaiter 4).wait = some ⟨.lid, 0, 4, 0x11000, 0⟩ ∧ memBase.reserveHolds 0x11000 = false := by
  refine ⟨.inl ⟨rfl, 0, page, rfl, by decide⟩, ⟨.inr ⟨0x11000, rfl, rfl, rfl⟩, by decide, may_issue rfl rfl rfl rfl rfl (by decide) rfl (by decide) rfl (by decide) rfl⟩, by decide, rfl, by decide⟩

/-- The lid's frame is HELD. -/
theorem witness_LidResult_held :
    (let s := { withPage page (stage laidLaunch laidTeam (lidWaiter 3)) with
       towers := [(0, { freshTower with frames := [(1, ⟨.held, 0, 0, 0⟩)] })] }
     (lidWaiter 3).lidHome = some 0x11000 ∧ s.home 8 0x11000 = .held ∧
     Issuable (.acq (mxS 6)) { sr := [10], opc := 0x18, sz := 0, out := .input } s 0 (lidWaiter 3) spot1 laidTeam laidLaunch) := by
  refine ⟨rfl, by decide, may_issue rfl rfl rfl rfl rfl (by decide) rfl (by decide) rfl (by decide) rfl⟩

theorem witness_LidResult_release : Reaches memBase (seen memBase 0 grp1 spot1 laidTeam laidLaunch) .store true 8 0x1000 0x11000 memBase ∧
    (memBase.awaitMirrors 0).loggedBy 0 = false ∧ (memBase.awaitMirrors 0).mirrors = [] := ⟨⟨0, page, rfl, by decide⟩, rfl, rfl⟩

/-- A port launch's team beyond the edge of core 0 that is saved. -/
def teamOff : Team := { team2 with st := .saved .rollback, cores := [1], members := [.off grp1.rest] }
theorem witness_PortTransfer_away :
    (let s := { stage launchG team2 grp1 with teams := [(0, team2), (1, teamOff)] }
     s.farEnd 0 grp1 team2 launchG 2 = .away ∧ spot1.active ≠ 0 ∧
     Issuable (.npush (mxP 2)) (portShape (mxP 2) 0x27) s 0 grp1 spot1 team2 launchG) := by
  refine ⟨by decide, by decide, may_issue rfl rfl rfl rfl rfl (by decide) rfl (by decide) rfl (by decide) rfl⟩

/-- An operation that overwrites words of a buffer. -/
theorem witness_GroupEvents_store :
    (let o : Op := { opDone with opc := 9, act := .spadStore 0 1 [(0, 7)] }
     [o].find? (fun x => x.id == 3) = some o ∧ (evOn grp 0 3).padWaits 0 0 1 true = false ∧
     (evOn grp 0 3).launches.find laidTeam.launch = some laidLaunch) := by decide +kernel

/-- A deferred copy of batch 5 waits to be issued again. -/
theorem witness_BatchesAndByteCounters_entries :
    (let g : Group := { grp1 with ops := [⟨0, 6, 0x2F, 0, [], [], .entry (toBytes 8 0 ++ toBytes 8 5 ++ List.replicate 112 0), 0⟩] }
     g.entries.length = 1 ∧ ∃ x ∈ g.entries, entryBatch x ≠ 0 ∧ entryBatch x ≤ 0x1000) := by decide +kernel

theorem witness_SignalResult_own : (grpSig 5).postedAdd = none ∧ (sigOn 5).reserveHolds 0x11000 = false := by decide +kernel

theorem witness_LaunchAndCancel_places :
    ((qcbOn 4 0).probe (seen (qcbOn 4 0) 0 (grpT [(4, 0x1000), (5, 0x3000)]) spot1 laidTeam laidLaunch) .load (.load 64) false 64
      [(32, 0x3000)]) = ([⟨32, 0x3000, .ok 0x13000 page⟩], qcbOn 4 0) ∧ spaceOf 0x13000 ≠ .link ∧
    AtHome (qcbOn 4 0) 0x11000 0x11000 ∧ (qcbOn 4 0).home 8 (0x14000 / 128 * 128) = .here (0x14000 / 128 * 128) ∧
    (0x14000 : Nat) % 128 = 0x14000 % 128 ∧ (qcbOn 4 0).reserveHolds 0x11000 = false :=
  ⟨rfl, by decide, ⟨rfl, rfl, rfl, rfl, rfl, rfl, by decide, by decide, roomy_blank _ rfl⟩, rfl, rfl, by decide⟩

/-! Service actions: a stack that a context's tables lie in, one that nothing uses; a bank that is fenced. -/

theorem witness_ServiceActions_stacks :
    (let s := { withDev (fun d => { d with actions := [⟨⟨.hbmStack, 1⟩, .retire⟩] }) (ev 0 0 (.part ⟨.hbmStack, 1⟩)) with
       ctxs := [(0, { freshCtx with st := .created, ptRoot := 2 ^ 36 })] }
     s.stackUsed 1 = true ∧ s.stackUsed 2 = false ∧ s.firstAction ⟨.hbmStack, 1⟩ = some .retire ∧ s.dev.st = .ready) ∧
    bank 3 ∈ (withDev (fun d => { d with fenced := [bank 3] }) (ev 3 0 .none)).dev.fenced := by decide +kernel

/-! RESOLVE: a page of 64 KiB, one of 2 MiB around it that is not present, with nothing held. -/

theorem witness_NothingHeld : NothingHeld (resolveOn [logEntry 512] true) ∧ NothingHeld framed ∧
    NothingHeld { framed with dev := { framed.dev with st := .ready } } ∧ NothingHeld (towerOn freshTower (ev 0 0 .none)) := by
  unfold NothingHeld; decide +kernel

theorem witness_FaultRings_pages :
    (let s := resolveOn [] false
     s.bigPage 0 0 = true ∧ s.pageUnits 0 0 = List.range 32 ∧ s.copies = [] ∧ (∀ p ∈ s.cores, (s.core p.1).log = []) ∧
     ∀ p ∈ s.groups, p.2.ops = []) ∧
    (let s := { base with ctxs := [(0, { freshCtx with ptRoot := 0x10000 })], mem := Mem.setBytes (Mem.setBytes (Mem.setBytes []
       0x10000 (toBytes 8 0x20001)) 0x20000 (toBytes 8 0x30001)) 0x30000 (toBytes 8 0x40001) }
     s.bigPage 0 0 = false ∧ s.pageUnits 0 0 = [0]) := by decide +kernel

theorem witness_FaultRings_frames : ∀ a n, NormalFrames (ctxOn id (ev 0 0 .none)) a n := fun _ _ _ _ _ => rfl

theorem witness_FramesMove_frames : FrameAt framed 0x20000000000 ∧ FrameAt framed 0x20000 ∧
    ¬ FrameAt (withDev (fun d => { d with mapped := [⟨.hbmStack, 0⟩] }) (ev 0 0 .none)) 0x20000 ∧
    (∀ n, OffTables (towerOn freshTower (ev 0 0 .none)) 0x20000 n) := by
  refine ⟨by unfold FrameAt; decide +kernel, by unfold FrameAt; decide +kernel, by unfold FrameAt; decide +kernel, fun _ j _ => ?_⟩
  simp only [State.tableByte, State.tower, towerOn, Tbl.findD, Tbl.find]
  by_cases h : (0 : Nat) = homeTower (0x20000 + j) <;> simp [h, freshTower]

/-! Parts: with one launch that its tower still holds, and one that no core is left for. -/

def oneLeft (n : Nat) : State := withDev (fun d => { d with fenced := (List.range 95).map fun k => ⟨.core, k⟩ }) (ev 0 0 (.part ⟨.core, n⟩))

theorem witness_PartsAreLost_room :
    AllFit { dispatchOn with arg := ev 0 0 (.part ⟨.core, 383⟩) } ∧
    (let s := { oneLeft 95 with launches := [(0, launchOne)] }
     s.stillPlaces 0 launchOne = true ∧ (s.fencePart ⟨.core, 95⟩).towerHolds launchOne = false ∧ s.teams = [] ∧ (s.core 95).bufs = []) ∧
    (∀ p ∈ [(⟨.spadBank, 6143⟩ : PartRef)], ¬ (p ∈ (oneLeft 0).dev.fenced ∨ p ∈ (oneLeft 0).dev.mapped)) := by
  refine ⟨?_, by decide +kernel, by decide +kernel⟩
  unfold AllFit; decide +kernel

/-- Lane 5 of a bus was retried three times within a second; nothing was asked of it. -/
theorem witness_VerticalBuses_repair :
    (let s := busOn { freshBus with retries := [(5, 0), (5, 0), (5, 0)] } (ev 7935 5 .none)
     3 ≤ recentRetries s 7935 5 ∧ s.firstAction ⟨.bus, 7935⟩ = none ∧ s.excluded ⟨.bus, 7935⟩ = false) := by decide +kernel

/-! Tasks that have written through a link; the end sequence's phases; a barrier's release that is due. -/

theorem witness_TaskEnds_waits :
    (let t := { taskOf .ended (recBytes 0 0 255 255 0 0 0 0) with status := 1 }
     let s := { taskOn [t] with peers := [(0, { peerLoad .taskWrite with owner := taskId tref })] }
     (∃ p ∈ s.peers, p.2.kind = .taskWrite ∧ p.2.owner = taskId tref) ∧ t.failed = [] ∧ (taskOn [t]).peers = []) := by decide +kernel

theorem witness_EndSequence_steps :
    AtHome memBase 0x11000 0x11000 ∧ (memBase.putStatus (endSeq 0x1000 true) (List.replicate 40 1)).1 = .got 0 ∧
    (memBase.endStep { endSeq 0x1000 true with phase := 1 } laidLaunch).1 = .done ∧
    (({ memBase with mem := [(0x11000, 1)] } : State).endStep { endSeq 0x1000 true with phase := 1 } laidLaunch).1 =
      .go { endSeq 0x1000 true with phase := 2 } ∧
    (memBase.endStep { endSeq 0x1000 true with phase := 2 } laidLaunch).1 = .done ∧
    (memBase.endStep (endSeq 0x10000 true) laidLaunch).1 = .wait ∧ (memBase.endStep (endSeq 0x1010 true) laidLaunch).1 = .stop :=
  ⟨⟨rfl, rfl, rfl, rfl, rfl, rfl, by decide, by decide, roomy_blank _ rfl⟩, by decide +kernel⟩

theorem witness_StopAndSave_due : (∃ b ∈ ({ laidTeam with bars := [⟨1, 1, false⟩] } : Team).bars, b.arr = b.exp ∧ 0 < b.arr) ∧
    ¬ (∃ b ∈ teamStop.bars, b.arr = b.exp ∧ 0 < b.arr) ∧ teamStop.binds = [] := by decide +kernel

/-- The page of a queue's control block is there, or is not. -/
theorem witness_QueueLife_activate :
    (let q := queue1 .created
     (match (queueOn .created []).reach (12 * q.tower) q.ctx false .engineRead (q.qcb + 0x40) 8 with
      | (.ok _ _, s) => (match s.frontGet (q.agent (2 ^ 64)) (q.qcb + 0x40) 8 with
        | .ok bs u => bs == List.replicate 8 0 && u.queues == [(1, q)] && u.groups == memBase.groups && u.teams == memBase.teams
        | _ => false)
      | _ => false) = true ∧
     (match (queueOn .created []).reach 0 0 false .engineRead 0x10040 8 with
      | (.absent _ _ _, _) => true
      | _ => false) = true) := by decide +kernel

/-! A group that waits for counter 0 at its clause's start, while it is in use and once it is not. -/

def counterWait (n : Nat) : Group :=
  { begins false 0xF0080000 0x00042038 n with st := .waiting, wait := some ⟨.counters, 0, 0, 0, 0⟩ }

theorem witness_StepRunsTheInstruction_waits : ∀ p ∈ [(1, false), (0, true)],
    (counterWait p.1).polls = true ∧ (counterWait p.1).spilled = [] ∧
    (match lead { turnOn (counterWait p.1) with cur := none } 0 with
     | .next t => (turnOn (counterWait p.1)).waitOver t 0 == p.2
     | _ => false) = true := by decide +kernel

theorem witness_StepRunsTheInstruction_failed : whileFailed .reset = true ∧ whileFailed .dieRebuild = false ∧
    (devOn .failed 9 (ev 0 0 .none)).dev.st = .failed := by decide

/-! Every event completes: small states that meet the conditions named last. -/

theorem witness_EventsComplete_requests :
    (withDev id (ev 7 0 (.profile 0))).dev.st = .ready ∧ (∀ p ∈ (withDev id (ev 7 0 (.profile 0))).ctxs, p.2.profile ≠ 7) ∧
    Living base 0 ∧ (createReq 1 0 0).ctxcfg.toNat / 2 ^ 30 = 0 ∧ ((base.ctx 1).st = .free) ∧
    ({ withDev id (ev 0 0 .none) with ctxs := [(0, { freshCtx with st := .destroyed })] } : State).released 0 = true := by
  unfold Living; decide +kernel

theorem witness_EventsComplete_admission :
    (let s := queueOn .active [(1, launchIn .submitted)]
     s.chainCancelled ((launchIn .submitted).agent 1) 1024 (field (launchIn .submitted).record 0x10 8) = false) ∧
    (evOn grp 0 0).groups.find 0 = some grp ∧ GroupAt (evOn grp 0 0) grp laidTeam laidLaunch := by
  unfold GroupAt; decide +kernel

theorem witness_EventsComplete_work :
    AtWork { taskOn [zeroTask .running] with arg := ⟨0, 0, 0, false, .task tref⟩ } 1 tref (tqWith [zeroTask .running]) (zeroTask .running) ∧
    (zeroTask .running).fields.emode < 2 := by
  unfold AtWork; decide +kernel
end Sys2Proof.Tests
end

section
/-! SUPPORT. A finite number of a format is its own rounding (R30, R32): its unit is the least place that the format
keeps at its magnitude, so nothing is cut off, and packing gives back the fields that reading took apart. -/

namespace Sys2Proof.Machine

open Sys2Proof

/-- The fraction and exponent fields of a bit pattern (R30). -/
def Fmt.frac (f : Fmt) (b : Nat) : Nat := b % 2 ^ f.mw
def Fmt.expo (f : Fmt) (b : Nat) : Nat := b / 2 ^ f.mw % 2 ^ f.ew

section Reading

variable {f : Fmt} {neg : Bool} {b m : Nat} {e : Int}

/-- A bit pattern is its sign, exponent and fraction put together. -/
theorem Fmt.eq_signBit_add (hb : b < 2 ^ (f.ew + f.mw + 1)) :
    b = f.signBit (bit b (f.ew + f.mw)) + (f.expo b * 2 ^ f.mw + f.frac b) := by
  have hsign : f.signBit (bit b (f.ew + f.mw)) = 2 ^ (f.ew + f.mw) * (b / 2 ^ (f.ew + f.mw)) := by
    have : b / 2 ^ (f.ew + f.mw) < 2 := Nat.div_lt_of_lt_mul (by rwa [← pow_succ])
    unfold Fmt.signBit bit
    interval_cases b / 2 ^ (f.ew + f.mw) <;> simp
  have hfields : f.expo b * 2 ^ f.mw + f.frac b = b % 2 ^ (f.ew + f.mw) := by
    rw [Fmt.expo, Fmt.frac, Nat.add_comm f.ew, pow_add, Nat.mod_mul, Nat.mul_comm, Nat.add_comm]
  rw [hsign, hfields, Nat.div_add_mod]

/-- A pattern that reads as a finite number is zero or subnormal, or normal (R30). -/
theorem Fmt.read_eq_fin (h : f.read b = .fin neg m e) : neg = bit b (f.ew + f.mw) ∧
    (f.expo b = 0 ∧ m = f.frac b ∧ e = f.emin - f.mw ∨
     0 < f.expo b ∧ f.expo b ≠ 2 ^ f.ew - 1 ∧ m = f.frac b + 2 ^ f.mw ∧ e = (f.expo b : Int) - f.bias - f.mw) := by
  change (if f.expo b = 2 ^ f.ew - 1 then _ else if f.expo b = 0 then _ else _) = _ at h
  split at h
  · split at h <;> cases h
  · split at h
    · next hex => cases h; exact ⟨rfl, .inl ⟨hex, rfl, rfl⟩⟩
    · next hinf hex => cases h; exact ⟨rfl, .inr ⟨Nat.pos_of_ne_zero hex, hinf, rfl, rfl⟩⟩

theorem Fmt.frac_lt : f.frac b < 2 ^ f.mw := Nat.mod_lt _ (by positivity)

theorem Fmt.expo_lt : f.expo b < 2 ^ f.ew := Nat.mod_lt _ (by positivity)

/-- The exponents of a format are 0 to 2 × bias + 1, the last one for infinities and NaNs (R29). -/
theorem Fmt.two_mul_bias (hf : 1 ≤ f.ew) : 2 ^ f.ew - 1 = 2 * f.bias + 1 := by
  obtain ⟨k, hk⟩ := Nat.exists_eq_add_of_le' hf
  have := Nat.one_le_two_pow (n := k)
  rw [Fmt.bias, hk, Nat.add_sub_cancel, pow_succ]
  omega

/-- A magnitude whose place is the unit of its binade, within the exponents of the format, loses nothing (R32, R35). -/
theorem Fmt.round_of_unit (r : Rnd) (hm : m ≠ 0) (hu : max (binade m e - f.mw) (f.emin - f.mw) = e)
    (ho : binade m e ≤ f.emax) : f.round r neg m e = (f.pack neg m e, 0) := by
  have hr : roundTo r neg m e e = (m, false) := by simp [roundTo]
  simp [Fmt.round, hm, hu, hr, not_lt.2 ho]

theorem Fmt.round_subnormal (r : Rnd) (hm : m < 2 ^ f.mw) (hf : 1 ≤ f.bias) :
    f.round r neg m (f.emin - f.mw) = (f.signBit neg + m, 0) := by
  by_cases h0 : m = 0
  · simp [Fmt.round, h0]
  · have hlog : Nat.log2 m < f.mw := (Nat.log2_lt h0).2 hm
    rw [Fmt.round_of_unit r h0, Fmt.pack, if_pos hm]
    · unfold binade; omega
    · unfold binade Fmt.emin Fmt.emax; omega

theorem Fmt.round_normal (r : Rnd) {x n : Nat} (hn : n < 2 ^ f.mw) (h0 : 0 < x) (hx : x ≤ 2 * f.bias) :
    f.round r neg (n + 2 ^ f.mw) ((x : Int) - f.bias - f.mw) = (f.signBit neg + (x * 2 ^ f.mw + n), 0) := by
  have hpos : 0 < 2 ^ f.mw := by positivity
  have hlog : Nat.log2 (n + 2 ^ f.mw) = f.mw := (Nat.log2_eq_iff (by omega)).2 ⟨by omega, by rw [pow_succ]; omega⟩
  rw [Fmt.round_of_unit r (by omega), Fmt.pack, if_neg (by omega), Nat.add_sub_cancel, Nat.add_assoc]
  · have hexp : ((x : Int) - f.bias - f.mw - (f.emin - f.mw)).toNat + 1 = x := by unfold Fmt.emin; omega
    rw [hexp]
  · unfold binade Fmt.emin; rw [hlog]; omega
  · unfold binade Fmt.emax; rw [hlog]; omega

/-- A finite number of a format with at least two exponent bits is its own rounding. -/
theorem Fmt.round_read (hf : 2 ≤ f.ew) (r : Rnd) (hb : b < 2 ^ (f.ew + f.mw + 1)) (h : f.read b = .fin neg m e) :
    f.round r neg m e = (b, 0) := by
  have hbias := Fmt.two_mul_bias (f := f) (by omega)
  have hpow : 2 ^ 2 ≤ 2 ^ f.ew := Nat.pow_le_pow_right (by omega) hf
  have hexpo := Fmt.expo_lt (f := f) (b := b)
  have hsplit := Fmt.eq_signBit_add hb
  obtain ⟨rfl, ⟨hex, rfl, rfl⟩ | ⟨hpos, hmax, rfl, rfl⟩⟩ := Fmt.read_eq_fin h
  · rw [Fmt.round_subnormal r Fmt.frac_lt (by omega)]
    rw [hex, Nat.zero_mul, Nat.zero_add] at hsplit
    rw [← hsplit]
  · rw [Fmt.round_normal r Fmt.frac_lt hpos (by omega), ← hsplit]

end Reading

/-- Settles O14: each of the four formats has at least two exponent bits, so its finite numbers are their own rounding. -/
theorem exactRounding : Obligations.ExactRounding := by
  unfold Obligations.ExactRounding
  intro f hf r b neg m e hb h
  have hew : 2 ≤ f.ew := by
    simp only [List.mem_cons, List.not_mem_nil, or_false] at hf
    rcases hf with rfl | rfl | rfl | rfl <;> decide
  exact Fmt.round_read hew r hb h

end Sys2Proof.Machine
end

section
/-! SUPPORT. Residues (R44 to R48, R394 to R396): the bytes of an element, the reconstruction from residues by the Chinese
remainder theorem, and what each end of the RCU says of the bytes it was given. -/

namespace Sys2Proof.Machine

open Sys2Proof Sys2Proof.Claims

/-! ## Bytes of a number -/

/-- The first digits of a number, least first, to the base 256. -/
def digitSum (d : Nat → Nat) (n : Nat) : Nat := sumBy (fun c => d c * 2 ^ (8 * c)) (List.range n)

theorem digitSum_succ (d : Nat → Nat) (n : Nat) : digitSum d (n + 1) = digitSum d n + d n * 2 ^ (8 * n) := by
  simp [digitSum, sumBy, List.range_succ]

theorem digitSum_lt {d : Nat → Nat} (hd : ∀ c, d c < 256) (n : Nat) : digitSum d n < 2 ^ (8 * n) := by
  induction n with
  | zero => simp [digitSum, sumBy]
  | succ n ih =>
    have : d n * 2 ^ (8 * n) ≤ 255 * 2 ^ (8 * n) := Nat.mul_le_mul_right _ (by have := hd n; omega)
    rw [digitSum_succ, Nat.mul_succ, pow_add]
    omega

theorem digitSum_digit {d : Nat → Nat} (hd : ∀ c, d c < 256) {c n : Nat} (hc : c < n) :
    digitSum d n / 2 ^ (8 * c) % 2 ^ 8 = d c := by
  induction n with
  | zero => omega
  | succ n ih =>
    rw [digitSum_succ]
    by_cases h : c = n
    · subst h
      rw [Nat.add_mul_div_right _ _ (by positivity), Nat.div_eq_of_lt (digitSum_lt hd c), Nat.zero_add]
      exact Nat.mod_eq_of_lt (hd c)
    · have hpow : d n * 2 ^ (8 * n) = (d n * 2 ^ (8 * (n - c - 1)) * 2 ^ 8) * 2 ^ (8 * c) := by
        rw [Nat.mul_assoc, Nat.mul_assoc, ← pow_add, ← pow_add]
        congr 2; omega
      rw [hpow, Nat.add_mul_div_right _ _ (by positivity), Nat.add_mul_mod_self_right]
      exact ih (by omega)

/-! ## Reconstruction -/

/-- Some multiple of a number that is coprime to `m` leads to any residue modulo `m`. -/
theorem exists_add_mul_mod {p m : Nat} (hpm : Nat.Coprime p m) (hm : 0 < m) (y x : Nat) :
    ∃ k < m, (y + p * k) % m = x % m := by
  obtain ⟨k, hk, hmod⟩ := Nat.exists_mul_mod_eq_of_coprime (x + (m - y % m)) hpm hm.ne'
  refine ⟨k, hk, ?_⟩
  have hy : y % m < m := Nat.mod_lt _ hm
  calc (y + p * k) % m = (y % m + (x + (m - y % m))) % m := by rw [Nat.add_mod, hmod, ← Nat.add_mod_mod]; simp
    _ = (x + m) % m := by congr 1; omega
    _ = x % m := Nat.add_mod_right x m

theorem crt_snd (l : List (Nat × Nat)) : (crt l).2 = (l.map (·.2)).prod := by
  induction l with
  | nil => rfl
  | cons q l ih => rw [crt, List.map_cons, List.prod_cons, ← ih, Nat.mul_comm]

/-- The reconstruction is below the product of its moduli, and has the residues that it was given (R394). -/
theorem crt_spec (l : List (Nat × Nat)) (hc : (l.map (·.2)).Pairwise Nat.Coprime) (hp : ∀ q ∈ l, 0 < q.2) :
    (crt l).1 < (crt l).2 ∧ ∀ q ∈ l, (crt l).1 % q.2 = q.1 % q.2 := by
  induction l with
  | nil => simp [crt]
  | cons q l ih =>
    obtain ⟨x, m⟩ := q
    rw [List.map_cons, List.pairwise_cons] at hc
    obtain ⟨hlt, hres⟩ := ih hc.2 fun q hq => hp q (List.mem_cons_of_mem _ hq)
    have hcop : Nat.Coprime (crt l).2 m := by
      rw [crt_snd]; exact (Nat.coprime_list_prod_right_iff.2 hc.1).symm
    obtain ⟨k, hk, hmod⟩ := exists_add_mul_mod hcop (hp _ List.mem_cons_self) (crt l).1 x
    obtain ⟨j, hj⟩ : ∃ j, (List.range m).find? (fun k => ((crt l).1 + (crt l).2 * k) % m == x % m) = some j :=
      Option.isSome_iff_exists.1 (List.find?_isSome.2 ⟨k, List.mem_range.2 hk, beq_iff_eq.2 hmod⟩)
    have hjm : j < m := List.mem_range.1 (List.mem_of_find?_eq_some hj)
    have hjmod : ((crt l).1 + (crt l).2 * j) % m = x % m := by simpa using List.find?_some hj
    have hcrt : crt ((x, m) :: l) = ((crt l).1 + (crt l).2 * j, (crt l).2 * m) := by simp [crt, hj]
    rw [hcrt]
    refine ⟨?_, fun q hq => ?_⟩
    · calc (crt l).1 + (crt l).2 * j < (crt l).2 + (crt l).2 * j := by omega
        _ = (crt l).2 * (j + 1) := by ring
        _ ≤ (crt l).2 * m := Nat.mul_le_mul_left _ hjm
    · rcases List.mem_cons.1 hq with rfl | hq
      · exact hjmod
      · have hdvd : q.2 ∣ (crt l).2 * j := by
          rw [crt_snd]; exact (List.dvd_prod (List.mem_map_of_mem hq)).mul_right j
        rw [Nat.add_mod, Nat.mod_eq_zero_of_dvd hdvd, Nat.add_zero, Nat.mod_mod, hres q hq]

/-- Two numbers below a product of coprime moduli with the same residues are equal. -/
theorem crt_eq {l : List (Nat × Nat)} (hc : (l.map (·.2)).Pairwise Nat.Coprime) (hp : ∀ q ∈ l, 0 < q.2) {z : Nat}
    (hz : z < (crt l).2) (hres : ∀ q ∈ l, z % q.2 = q.1 % q.2) : (crt l).1 = z := by
  obtain ⟨hlt, hcrt⟩ := crt_spec l hc hp
  have hmod : (crt l).1 ≡ z [MOD (crt l).2] := by
    rw [List.pairwise_map] at hc
    rw [crt_snd]
    exact (Nat.modEq_list_map_prod_iff hc).2 fun q hq => (hcrt q hq).trans (hres q hq).symm
  exact hmod.eq_of_lt_of_lt hlt hz

/-! ## Channels of a profile -/

/-- The modulus of a channel, 1 of one that is not used. -/
def Run.modulus (r : Run) (c : Nat) : Nat := r.mods.getD c 1

/-- The residues of an element in some channels, with their moduli. -/
def Run.residues (r : Run) (x : DWord) (cs : List Nat) : List (Nat × Nat) := cs.map fun c => (re8Byte x c, r.modulus c)

section Profiles

variable {r : Run} (hr : runSound r)

theorem Run.modulus_eq {c m : Nat} (h : r.mods[c]? = some m) : c < r.mods.length ∧ r.modulus c = m := by
  obtain ⟨hc, rfl⟩ := List.getElem?_eq_some_iff.1 h
  exact ⟨hc, by simp [Run.modulus, hc]⟩

include hr

theorem Run.modulus_mem_range (c : Nat) : 1 ≤ r.modulus c ∧ r.modulus c ≤ 256 := by
  obtain ⟨-, hm, -⟩ := hr
  unfold Run.modulus
  by_cases hc : c < r.mods.length
  · have := hm _ (List.getElem_mem hc)
    simp [hc]; omega
  · simp [hc]

theorem Run.modulus_coprime {c d : Nat} (hcd : c ≠ d) : Nat.Coprime (r.modulus c) (r.modulus d) := by
  obtain ⟨-, -, hp, -⟩ := hr
  unfold Run.modulus
  by_cases hc : c < r.mods.length <;> by_cases hd : d < r.mods.length <;> simp only [List.getD_eq_getElem?_getD]
  · have hp := List.pairwise_iff_getElem.1 hp
    rcases Nat.lt_or_gt_of_ne hcd with h | h
    · simpa [hc, hd] using hp c d hc hd h
    · simpa [hc, hd] using (hp d c hd hc h).symm
  all_goals simp [hc, hd]

theorem Run.residues_coprime {cs : List Nat} (hcs : cs.Nodup) (x : DWord) :
    ((r.residues x cs).map (·.2)).Pairwise Nat.Coprime := by
  unfold Run.residues
  rw [List.map_map]
  exact List.pairwise_map.2 (List.Pairwise.imp (fun h => Run.modulus_coprime hr h) hcs)

theorem Run.residues_pos {cs : List Nat} (x : DWord) : ∀ q ∈ r.residues x cs, 0 < q.2 := by
  intro q hq
  obtain ⟨c, -, rfl⟩ := List.mem_map.1 hq
  exact (Run.modulus_mem_range hr c).1

/-- The reconstruction from channels whose bytes are below their moduli has these bytes as residues (R394). -/
theorem Run.crt_residues {cs : List Nat} (hcs : cs.Nodup) (x : DWord) :
    let y := crt (r.residues x cs)
    y.1 < y.2 ∧ ∀ c ∈ cs, r.modulus c ∣ y.2 ∧ (re8Byte x c < r.modulus c → y.1 % r.modulus c = re8Byte x c) := by
  obtain ⟨hlt, hres⟩ := crt_spec _ (Run.residues_coprime hr hcs x) (Run.residues_pos hr x)
  refine ⟨hlt, fun c hc => ?_⟩
  have hmem : (re8Byte x c, r.modulus c) ∈ r.residues x cs := List.mem_map.2 ⟨c, hc, rfl⟩
  refine ⟨?_, fun hb => (hres _ hmem).trans (Nat.mod_eq_of_lt hb)⟩
  rw [crt_snd]
  exact List.dvd_prod (List.mem_map_of_mem (f := fun q : Nat × Nat => q.2) hmem)

omit hr in
theorem Run.crt_residues_snd (x : DWord) (cs : List Nat) : (crt (r.residues x cs)).2 = (cs.map r.modulus).prod := by
  rw [crt_snd, Run.residues, List.map_map]; rfl

/-- M is the product of the moduli of the information channels. -/
theorem Run.big_eq : r.big = ((List.range r.ninfo).map r.modulus).prod := by
  obtain ⟨-, -, -, -, hn⟩ := hr
  rw [Run.big, ← List.prod_eq_foldl]
  congr 1
  apply List.ext_getElem
  · simp [hn]
  · intro i h1 h2
    simp only [List.length_map, List.length_range] at h2
    simp [Run.modulus, show i < r.mods.length by omega]

theorem Run.big_pos : 0 < r.big := by
  rw [Run.big_eq hr]
  refine List.prod_pos fun m hm => ?_
  obtain ⟨c, -, rfl⟩ := List.mem_map.1 hm
  exact (Run.modulus_mem_range hr c).1

theorem Run.modulus_dvd_big {c : Nat} (hc : c < r.ninfo) : r.modulus c ∣ r.big := by
  rw [Run.big_eq hr]
  exact List.dvd_prod (List.mem_map_of_mem (List.mem_range.2 hc))

/-! ## Elements of integers (R45, R48) -/

/-- The byte of an integer's element in a channel; a channel that is not used has none (R45). -/
def Run.digit (r : Run) (x : Int) (c : Nat) : Nat :=
  match r.mod c with
  | some m => (x % (m : Int)).toNat
  | none => 0

omit hr in
theorem Run.digit_used (x : Int) {c : Nat} (hc : c < r.mods.length) : r.digit x c = (x % (r.modulus c : Int)).toNat := by
  simp [Run.digit, Run.mod, Run.modulus, hc]

theorem Run.digit_lt (x : Int) (c : Nat) : r.digit x c < 256 := by
  by_cases hc : c < r.mods.length
  · obtain ⟨hpos, hle⟩ := Run.modulus_mem_range hr c
    have hlt := Int.emod_lt_of_pos x (b := r.modulus c) (by omega)
    rw [Run.digit_used x hc]
    omega
  · simp [Run.digit, Run.mod, hc]

theorem Run.re8_toNat (x : Int) : (r.re8 x).toNat = digitSum (r.digit x) 8 := by
  have hre8 : r.re8 x = BitVec.ofNat 64 (digitSum (r.digit x) 8) := by
    unfold Run.re8 digitSum
    congr 2
    funext c
    cases h : r.mod c <;> simp [Run.digit, h]
  rw [hre8, BitVec.toNat_ofNat]
  exact Nat.mod_eq_of_lt (digitSum_lt (Run.digit_lt hr x) 8)

/-- Byte c of an integer's element is its residue in channel c (R45). -/
theorem Run.re8Byte_re8 (x : Int) {c : Nat} (hc : c < r.mods.length) :
    re8Byte (r.re8 x) c = (x % (r.modulus c : Int)).toNat := by
  have ⟨hlen, _⟩ := hr
  rw [re8Byte, bits, Run.re8_toNat hr, show 8 * c + 7 + 1 - 8 * c = 8 by omega,
    digitSum_digit (Run.digit_lt hr x) (by omega), Run.digit_used x hc]

theorem Run.re8Byte_re8_lt (x : Int) {c : Nat} (hc : c < r.mods.length) : re8Byte (r.re8 x) c < r.modulus c := by
  obtain ⟨hpos, -⟩ := Run.modulus_mem_range hr c
  rw [Run.re8Byte_re8 hr x hc]
  have := Int.emod_lt_of_pos x (b := r.modulus c) (by omega)
  omega

/-- The value that a number below M stands for lies below H, and has the number's residues in the information channels
(R48). -/
theorem Run.fold_spec {y : Nat} (hy : y < r.big) :
    r.fold y ≤ r.top ∧ ∀ c < r.ninfo, r.fold y % (r.modulus c : Int) = ((y % r.modulus c : Nat) : Int) := by
  have hpos := Run.big_pos hr
  unfold Run.fold
  split
  · refine ⟨by omega, fun c hc => ?_⟩
    rw [Int.sub_emod, Int.emod_eq_zero_of_dvd (Int.natCast_dvd_natCast.2 (Run.modulus_dvd_big hr hc))]
    simp
  · exact ⟨by omega, fun c _ => (Int.natCast_mod _ _).symm⟩

omit hr in
theorem Run.value_eq (e : DWord) : r.value e = r.fold (crt (r.residues e (List.range r.ninfo))).1 := rfl

theorem Run.crt_info_lt (e : DWord) : (crt (r.residues e (List.range r.ninfo))).1 < r.big := by
  rw [Run.big_eq hr, ← Run.crt_residues_snd e]
  exact (Run.crt_residues hr List.nodup_range e).1

theorem Run.value_le_top (e : DWord) : r.value e ≤ r.top := (Run.fold_spec hr (Run.crt_info_lt hr e)).1

/-- The value of an element has the element's byte as its residue in an information channel, if the byte is a residue. -/
theorem Run.value_emod {e : DWord} {c : Nat} (hc : c < r.ninfo) (hb : re8Byte e c < r.modulus c) :
    r.value e % (r.modulus c : Int) = re8Byte e c := by
  obtain ⟨-, hres⟩ := Run.crt_residues hr List.nodup_range e
  rw [Run.value_eq, (Run.fold_spec hr (Run.crt_info_lt hr e)).2 c hc, (hres c (List.mem_range.2 hc)).2 hb]

/-- An integer that the profile represents reads back from its element (R48). -/
theorem Run.value_re8 {x : Int} (hlo : -((r.big / 2 : Nat) : Int) ≤ x) (hhi : x ≤ r.top) : r.value (r.re8 x) = x := by
  have hpos := Run.big_pos hr
  have htop : r.top = (r.big - 1) / 2 := rfl
  have hnn : 0 ≤ x % (r.big : Int) := Int.emod_nonneg _ (by omega)
  have hlt : x % (r.big : Int) < r.big := Int.emod_lt_of_pos _ (by omega)
  have hcrt : (crt (r.residues (r.re8 x) (List.range r.ninfo))).1 = (x % (r.big : Int)).toNat := by
    refine crt_eq (Run.residues_coprime hr List.nodup_range _) (Run.residues_pos hr _) ?_ fun q hq => ?_
    · rw [Run.crt_residues_snd, ← Run.big_eq hr]; omega
    · obtain ⟨c, hc, rfl⟩ := List.mem_map.1 hq
      have hc : c < r.ninfo := List.mem_range.1 hc
      have ⟨_, _, _, _, hlen⟩ := hr
      dsimp only
      rw [Nat.mod_eq_of_lt (Run.re8Byte_re8_lt hr x (by omega)), Run.re8Byte_re8 hr x (by omega),
        ← Int.emod_emod_of_dvd x (Int.natCast_dvd_natCast.2 (Run.modulus_dvd_big hr hc))]
      apply Int.ofNat.inj
      have := Int.emod_nonneg (x % (r.big : Int)) (b := r.modulus c) (by have := (Run.modulus_mem_range hr c).1; omega)
      simp only [Int.ofNat_eq_natCast, Int.natCast_mod]
      rw [Int.toNat_of_nonneg hnn, Int.toNat_of_nonneg this]
  rw [Run.value_eq, hcrt, Run.fold]
  rcases Int.lt_or_le x 0 with hneg | hnonneg
  · have hmod : x % (r.big : Int) = x + r.big := by
      rw [← Int.add_emod_right]; exact Int.emod_eq_of_lt (by omega) (by omega)
    rw [hmod, if_pos (by omega)]; omega
  · have hmod : x % (r.big : Int) = x := Int.emod_eq_of_lt hnonneg (by omega)
    rw [hmod, if_neg (by omega)]; omega

omit hr

/-! ## How the RCU ends (R394 to R396) -/

/-- Whether every byte of an element is below its channel's modulus (R396). -/
def Run.tame (r : Run) (y : DWord) : Prop := ∀ c < r.mods.length, re8Byte y c < r.modulus c

/-- Whether the check channels of an element agree with its value (R394). -/
def Run.checks (r : Run) (y : DWord) : Prop :=
  ∀ c < r.mods.length, r.ninfo ≤ c → (r.value y % (r.modulus c : Int)).toNat = re8Byte y c

theorem Run.wild_eq_nil (y : DWord) : (List.range r.mods.length).filter (r.wild y) = [] ↔ r.tame y := by
  simp [List.filter_eq_nil_iff, Run.wild, Run.tame, Run.modulus]

theorem Run.off_eq_nil (y : DWord) : (((List.range r.mods.length).drop r.ninfo).filter fun c =>
    (r.value y % (r.mods.getD c 1 : Int)).toNat != re8Byte y c) = [] ↔ r.checks y := by
  simp only [List.filter_eq_nil_iff, bne_iff_ne, ne_eq, not_not, Run.checks, Run.modulus]
  constructor
  · intro h c hc hn
    refine h c (List.mem_iff_getElem.2 ⟨c - r.ninfo, by simp; omega, by simp; omega⟩)
  · intro h c hc
    obtain ⟨i, hi, rfl⟩ := List.mem_iff_getElem.1 hc
    simp only [List.length_drop, List.length_range] at hi
    simp only [List.getElem_drop, List.getElem_range]
    exact h _ (by omega) (by omega)

/-- The RCU finds an element clean just when its bytes are residues and its check channels agree (R394). -/
theorem Run.rcu_clean_iff (y : DWord) (x : Int) : r.rcu y = .clean x ↔ (r.tame y ∧ r.checks y) ∧ r.value y = x := by
  rw [← Run.wild_eq_nil, ← Run.off_eq_nil]
  unfold Run.rcu
  dsimp only
  split
  · next h => rw [Rcu.clean.injEq]; exact (and_iff_right h).symm
  · next h =>
    simp only [h, false_and, iff_false]
    split
    · simp
    · split <;> simp
    · split <;> simp

/-- A corrected value is the one that excludes the channel that it names (R395). -/
theorem Run.rcu_corrected {y : DWord} {x : Int} {e : Nat} (h : r.rcu y = .corrected x e) :
    e < r.mods.length ∧ r.without y e = some x := by
  unfold Run.rcu at h
  dsimp only at h
  split at h
  · cases h
  · split at h
    · cases h
    · next p hp =>
      split at h
      · cases h
        have hmem := hp ▸ List.mem_singleton_self (e, x)
        simpa using hmem
      · cases h
    · split at h <;> cases h

/-- The used channels but one. -/
def Run.others (r : Run) (e : Nat) : List Nat := (List.range r.mods.length).filter (· != e)

theorem Run.without_eq (y : DWord) (e : Nat) : r.without y e =
    if (List.range r.mods.length).any fun c => c != e && r.wild y c then none
    else if (crt (r.residues y (r.others e))).1 ≤ r.top then some ((crt (r.residues y (r.others e))).1 : Int)
    else if (crt (r.residues y (r.others e))).2 - r.big / 2 ≤ (crt (r.residues y (r.others e))).1 then
      some (((crt (r.residues y (r.others e))).1 : Int) - (crt (r.residues y (r.others e))).2)
    else none := rfl

include hr

/-- A value that excludes a channel lies at most at H, and has the bytes of the other channels as its residues (R395). -/
theorem Run.without_spec {y : DWord} {x : Int} {e : Nat} (h : r.without y e = some x) :
    x ≤ r.top ∧ ∀ c < r.mods.length, c ≠ e → x % (r.modulus c : Int) = re8Byte y c := by
  have hnd : (r.others e).Nodup := List.nodup_range.filter _
  obtain ⟨hlt, hres⟩ := Run.crt_residues hr hnd y
  rw [Run.without_eq] at h
  generalize crt (r.residues y (r.others e)) = p at h hlt hres
  split at h
  · cases h
  next htame =>
  have hother {c : Nat} (hc : c < r.mods.length) (hce : c ≠ e) : r.modulus c ∣ p.2 ∧ p.1 % r.modulus c = re8Byte y c := by
    have hb : re8Byte y c < r.modulus c := by
      by_contra hb
      refine htame (List.any_eq_true.2 ⟨c, List.mem_range.2 hc, ?_⟩)
      simp only [Bool.and_eq_true, bne_iff_ne, Run.wild, decide_eq_true_eq]
      exact ⟨hce, not_lt.1 hb⟩
    have hmem : c ∈ r.others e := by simp [Run.others, hc, hce]
    exact ⟨(hres c hmem).1, (hres c hmem).2 hb⟩
  split at h
  · next htop =>
    cases h
    exact ⟨by omega, fun c hc hce => by rw [← (hother hc hce).2, Int.natCast_mod]⟩
  · split at h
    · cases h
      refine ⟨by omega, fun c hc hce => ?_⟩
      obtain ⟨hdvd, hmod⟩ := hother hc hce
      rw [Int.sub_emod, Int.emod_eq_zero_of_dvd (Int.natCast_dvd_natCast.2 hdvd), ← hmod]
      simp
    · cases h

/-- The element of an integer that the profile represents is clean (R394). -/
theorem Run.rcu_re8 {x : Int} (hlo : -((r.big / 2 : Nat) : Int) ≤ x) (hhi : x ≤ r.top) : r.rcu (r.re8 x) = .clean x := by
  have hval := Run.value_re8 hr hlo hhi
  refine (Run.rcu_clean_iff _ _).2 ⟨⟨fun c hc => Run.re8Byte_re8_lt hr x hc, fun c hc _ => ?_⟩, hval⟩
  rw [hval, Run.re8Byte_re8 hr x hc]

/-- A clean element's value lies at most at H, and has every byte as its residue (R394). -/
theorem Run.rcu_clean_spec {y : DWord} {x : Int} (h : r.rcu y = .clean x) :
    x ≤ r.top ∧ ∀ c < r.mods.length, re8Byte y c = (x % (r.modulus c : Int)).toNat := by
  obtain ⟨⟨htame, hchecks⟩, rfl⟩ := (Run.rcu_clean_iff _ _).1 h
  refine ⟨Run.value_le_top hr y, fun c hc => ?_⟩
  by_cases hn : c < r.ninfo
  · rw [Run.value_emod hr hn (htame c hc), Int.toNat_natCast]
  · exact (hchecks c hc (not_lt.1 hn)).symm

end Profiles

/-- Settles O56: the Chinese remainder theorem gives the values back, from the information channels for a clean element and
from all channels but the named one for a corrected element. -/
theorem residuesAreExact : Obligations.ResiduesAreExact := by
  unfold Obligations.ResiduesAreExact
  refine fun r hr => ⟨fun x hlo hhi => ⟨Run.value_re8 hr hlo hhi, Run.rcu_re8 hr hlo hhi⟩, fun x c m hm => ?_,
    fun y x e h => ?_, fun y x h => ?_⟩
  · obtain ⟨hc, rfl⟩ := Run.modulus_eq hm
    exact Run.re8Byte_re8 hr x hc
  · obtain ⟨he, hw⟩ := Run.rcu_corrected h
    obtain ⟨htop, hres⟩ := Run.without_spec hr hw
    refine ⟨he, htop, fun c m hce hm => ?_⟩
    obtain ⟨hc, rfl⟩ := Run.modulus_eq hm
    rw [hres c hc hce, Int.toNat_natCast]
  · obtain ⟨htop, hres⟩ := Run.rcu_clean_spec hr h
    refine ⟨htop, fun c m hm => ?_⟩
    obtain ⟨hc, rfl⟩ := Run.modulus_eq hm
    exact hres c hc

end Sys2Proof.Machine
end

section
/-! SUPPORT. What leaves the contexts alone: lines and homes, caches and translations change none of them; what the front
ends, end sequences and departing teams change of a context leaves one that is DESTROYED as it is, without lids (R87). -/

namespace Sys2Proof.Machine

open Sys2Proof

section Kept

variable {s : State}

/-- An operation that leaves the contexts alone leaves them alone over a list. -/
theorem State.ctxs_foldl {α : Type} {f : State → α → State} (hf : ∀ s x, (f s x).ctxs = s.ctxs) (l : List α) (s : State) :
    (l.foldl f s).ctxs = s.ctxs := by
  induction l generalizing s with
  | nil => rfl
  | cons x l ih => exact (ih _).trans (hf s x)

theorem State.ctxs_ite {p : Prop} [Decidable p] {a b : State} (ha : a.ctxs = s.ctxs) (hb : b.ctxs = s.ctxs) :
    (if p then a else b).ctxs = s.ctxs := by split <;> assumption

theorem State.ctx_of_ctxs {u : State} (h : u.ctxs = s.ctxs) (c : Nat) : u.ctx c = s.ctx c := by unfold State.ctx; rw [h]

/-! ## Chunks and lines at home -/

@[simp] theorem State.setLineMap_ctxs (key : Nat) (m : LineMap) : (s.setLineMap key m).ctxs = s.ctxs := rfl

@[simp] theorem State.countChunk_ctxs (t c a b : Nat) : (s.countChunk t c a b).ctxs = s.ctxs := rfl

@[simp] theorem State.closeChunk_ctxs (t c : Nat) : (s.closeChunk t c).ctxs = s.ctxs := by
  unfold State.closeChunk; split <;> rfl

theorem State.takeChunk_ctxs {t c : Nat} {u : State} (e : s.takeChunk t = some (c, u)) : u.ctxs = s.ctxs := by
  unfold State.takeChunk at e
  split at e
  · cases e
  · simp only [Option.some.injEq, Prod.mk.injEq] at e
    obtain ⟨-, rfl⟩ := e
    split <;> rfl

theorem State.placeSectors_ctxs {t sl n av c o : Nat} {u : State} (e : s.placeSectors t sl n av = some (c, o, u)) :
    u.ctxs = s.ctxs := by
  have hgot {p : Prop} [Decidable p] {got : State} (h : (if p then some s else
      ((s.closeChunk t sl).takeChunk t).map fun q =>
        q.2.modTower t fun w => { w with openChunk := w.openChunk.put sl (q.1, 0) })
      = some got) : got.ctxs = s.ctxs := by
    split at h
    · cases h; rfl
    · obtain ⟨⟨k, s2⟩, h2, rfl⟩ := Option.map_eq_some_iff.1 h
      exact (State.takeChunk_ctxs h2).trans (State.closeChunk_ctxs ..)
  simp only [State.placeSectors, Option.bind_eq_some_iff, Option.map_eq_some_iff, Prod.mk.injEq] at e
  obtain ⟨got, h, p, -, -, -, rfl⟩ := e
  exact (State.modTower_ctxs ..).trans (hgot h)

/-- Setting or clearing the marks of sectors leaves the contexts alone. -/
theorem State.marks_ctxs (l : List Nat) (p : Nat → Bool) (f : Nat → Nat) (s : State) :
    (l.foldl (fun (s : State) k => if p k = true then s.addPoison (f k) else s.clearPoison (f k)) s).ctxs = s.ctxs :=
  State.ctxs_foldl (fun s k => State.ctxs_ite (s.addPoison_ctxs (f k)) (s.clearPoison_ctxs (f k))) l s

@[simp] theorem State.writeBackWindow_ctxs (key : Nat) : (s.writeBackWindow key).ctxs = s.ctxs := by
  unfold State.writeBackWindow
  dsimp only
  cases s.l2 key with
  | none => rfl
  | some l =>
    dsimp only
    refine State.ctxs_ite rfl (State.ctxs_ite ?_ (State.ctxs_ite ?_ ?_))
    · rw [State.setL2_ctxs, State.countChunk_ctxs, State.setLineMap_ctxs]
    · rw [State.setL2_ctxs, State.countChunk_ctxs, State.setLineMap_ctxs]
      exact State.marks_ctxs _ (fun k => _ && decide _) _ _
    · cases hp : s.placeSectors _ _ _ _ with
      | none => rfl
      | some p =>
        dsimp only
        rw [State.setL2_ctxs, State.countChunk_ctxs, State.countChunk_ctxs, State.setLineMap_ctxs]
        have hctxs : p.2.2.ctxs = s.ctxs := State.placeSectors_ctxs hp
        exact (State.marks_ctxs _ (fun k => _ && decide _) _ _).trans hctxs

@[simp] theorem State.dropHome_ctxs (key : Nat) : (s.dropHome key).ctxs = s.ctxs := by
  unfold State.dropHome
  dsimp only
  split
  · exact State.ctxs_foldl (f := fun (s : State) k => s.clearPoison _) (fun _ _ => rfl) _ _
  · rfl

@[simp] theorem State.writeBackHome_ctxs (key : Nat) : (s.writeBackHome key).ctxs = s.ctxs := by
  unfold State.writeBackHome
  split
  · simp
  · split <;> simp

@[simp] theorem State.evictHome_ctxs (key : Nat) : (s.evictHome key).ctxs = s.ctxs := by
  unfold State.evictHome
  dsimp only
  split
  · split <;> simp
  · simp

@[simp] theorem State.makeRoom_ctxs (key : Nat) : (s.makeRoom key).ctxs = s.ctxs := by
  unfold State.makeRoom
  dsimp only
  split
  · rfl
  · split <;> simp

@[simp] theorem State.fillWindow_ctxs (key : Nat) : (s.fillWindow key).ctxs = s.ctxs := by
  unfold State.fillWindow
  split
  · rfl
  · refine (State.setL2_ctxs ..).trans ((State.ctxs_foldl (fun s k => ?_) _ _).trans (State.makeRoom_ctxs key))
    split <;> rfl

@[simp] theorem State.touchHome_ctxs (pa : Nat) : (s.touchHome pa).ctxs = s.ctxs := by
  unfold State.touchHome
  dsimp only
  split
  · simp
  · split
    · rfl
    · exact (State.setL2_ctxs ..).trans (State.makeRoom_ctxs _)

@[simp] theorem State.homeRead_ctxs (pa n : Nat) : (s.homeRead pa n).2.ctxs = s.ctxs := State.touchHome_ctxs pa

@[simp] theorem State.dropClean_ctxs (pa : Nat) : (s.dropClean pa).ctxs = s.ctxs := rfl

@[simp] theorem State.homeMerge_ctxs (pa : Nat) (d : BitVec 1024) (m : BitVec 128) : (s.homeMerge pa d m).ctxs = s.ctxs := by
  unfold State.homeMerge
  dsimp only
  split
  · rfl
  · have clear (l : List Nat) (p : Nat → Bool) (f : Nat → Nat) (s : State) :
        (l.foldl (fun (s : State) k => if p k = true then s.clearPoison (f k) else s) s).ctxs = s.ctxs :=
      State.ctxs_foldl (fun s k => State.ctxs_ite (s.clearPoison_ctxs (f k)) rfl) l s
    rw [State.dropClean_ctxs]
    split
    · rw [State.setL2_ctxs, State.setFrame_ctxs, clear]
      exact State.touchHome_ctxs pa
    · rw [State.setFrame_ctxs, clear]
      exact State.touchHome_ctxs pa

@[simp] theorem State.homeWrite_ctxs (pa : Nat) (bs : List Byte) : (s.homeWrite pa bs).ctxs = s.ctxs :=
  State.homeMerge_ctxs ..

@[simp] theorem State.noteAtomic_ctxs (pa : Nat) : (s.noteAtomic pa).ctxs = s.ctxs := by
  unfold State.noteAtomic
  dsimp only
  split <;> split <;> simp

@[simp] theorem State.giveHome_ctxs (w : HeldWrite) : (s.giveHome w).ctxs = s.ctxs := by
  unfold State.giveHome
  split
  · refine (State.ctxs_foldl (fun s k => ?_) _ _).trans (State.homeMerge_ctxs ..)
    split <;> rfl
  · rfl

@[simp] theorem State.toHome_ctxs (n : Nat) (l : Line) : (s.toHome n l).ctxs = s.ctxs := State.giveHome_ctxs _

@[simp] theorem State.putHome_ctxs (pa : Nat) (bs : List Byte) : (s.putHome pa bs).ctxs = s.ctxs := State.toHome_ctxs ..

/-! ## Caches and translations -/

@[simp] theorem State.putRdc_ctxs (t : Nat) (r : RdcLine) : (s.putRdc t r).ctxs = s.ctxs := by
  unfold State.putRdc
  dsimp only
  rw [State.modTower_ctxs]
  split <;> simp

@[simp] theorem State.toRdc_ctxs (t ctx n : Nat) (l : Line) : (s.toRdc t ctx n l).ctxs = s.ctxs := by
  unfold State.toRdc
  split
  · simp
  · split
    · exact (State.putRdc_ctxs ..).trans (State.homeRead_ctxs _ 128)
    · simp

@[simp] theorem State.cleanRdc_ctxs (t : Nat) (p : RdcLine → Bool) : (s.cleanRdc t p).ctxs = s.ctxs := by
  unfold State.cleanRdc State.cleanRdcOf
  rw [State.modTower_ctxs]
  exact State.ctxs_foldl (fun _ _ => State.toHome_ctxs ..) _ _

@[simp] theorem State.l1Home_ctxs (t n : Nat) (l : Line) : (s.l1Home t n l).ctxs = s.ctxs := by
  unfold State.l1Home; split <;> simp

@[simp] theorem State.flushL1_ctxs (core : Nat) (via : Bool) (p : L1Line → Bool) : (s.flushL1 core via p).ctxs = s.ctxs := by
  unfold State.flushL1 State.cleanL1
  rw [State.modCore_ctxs, State.modCore_ctxs]
  refine State.ctxs_foldl (fun s l => ?_) _ _
  split <;> simp

@[simp] theorem State.dropTlb_ctxs (cl : Nat) (e : TlbEntry) : (s.dropTlb cl e).ctxs = s.ctxs := by
  unfold State.dropTlb
  rw [State.modCluster_ctxs]
  exact State.ctxs_foldl (fun _ _ => State.flushL1_ctxs ..) _ _

@[simp] theorem State.putTlb_ctxs (cl : Nat) (e : TlbEntry) : (s.putTlb cl e).ctxs = s.ctxs := by
  have drops (l : List TlbEntry) (s : State) : (l.foldl (fun s x => s.dropTlb cl x) s).ctxs = s.ctxs :=
    State.ctxs_foldl (fun _ _ => State.dropTlb_ctxs ..) l s
  unfold State.putTlb
  dsimp only
  rw [State.modCluster_ctxs]
  split
  · exact drops ..
  · split
    · exact (State.dropTlb_ctxs ..).trans (drops ..)
    · exact drops ..

@[simp] theorem State.permitted_ctxs (cl ctx : Nat) (priv : Bool) (k : AccKind) (a n : Nat) :
    (s.permitted cl ctx priv k a n).2.ctxs = s.ctxs := by
  unfold State.permitted
  split
  · rfl
  · rfl
  · rfl
  · split
    · dsimp only; split <;> simp
    · rfl

@[simp] theorem State.reach_ctxs (cl ctx : Nat) (priv : Bool) (k : AccKind) (a n : Nat) :
    (s.reach cl ctx priv k a n).2.ctxs = s.ctxs := by
  have hp := State.permitted_ctxs (s := s) cl ctx priv k a n
  unfold State.reach
  split
  · next pa e u heq =>
    rw [heq] at hp
    split
    · exact hp
    · split
      · exact hp
      · exact hp
      · exact hp
      · have hq := (State.permitted_ctxs (s := u.dropTlb cl e) cl ctx priv k a n).trans ((State.dropTlb_ctxs ..).trans hp)
        split
        · next heq => rw [heq] at hq; split <;> exact hq
        · exact hq
  · exact hp

/-! ## A context that has been destroyed -/

/-- Context c is DESTROYED, and no lid of it is bound (R87). -/
def State.Ended (s : State) (c : Nat) : Prop := (s.ctx c).st = .destroyed ∧ (s.ctx c).lids = []

variable {c : Nat}

theorem State.Ended.of_ctxs {u : State} (h : s.Ended c) (e : u.ctxs = s.ctxs) : u.Ended c := by
  unfold State.Ended; rw [State.ctx_of_ctxs e]; exact h

theorem State.Ended.ite {p : Prop} [Decidable p] {a b : State} (ha : a.Ended c) (hb : b.Ended c) :
    (if p then a else b).Ended c := by split <;> assumption

theorem State.Ended.foldl {α : Type} {f : State → α → State} (hf : ∀ s x, s.Ended c → (f s x).Ended c) (l : List α)
    (h : s.Ended c) : (l.foldl f s).Ended c := by
  induction l generalizing s with
  | nil => exact h
  | cons x l ih => exact ih (hf s x h)

/-- A change of a context that keeps its state and its lids. -/
theorem State.Ended.modCtx (h : s.Ended c) (n : Nat) {f : Context → Context}
    (hf : ∀ x, (f x).st = x.st ∧ (f x).lids = x.lids) : (s.modCtx n f).Ended c := by
  by_cases hn : c = n
  · subst hn
    unfold State.Ended
    rw [State.ctx_modCtx_self, (hf _).1, (hf _).2]
    exact h
  · unfold State.Ended
    rw [State.ctx_modCtx_ne _ f hn]
    exact h

theorem State.Ended.modCtx_ne (h : s.Ended c) {n : Nat} (hn : c ≠ n) (f : Context → Context) : (s.modCtx n f).Ended c := by
  unfold State.Ended; rw [State.ctx_modCtx_ne _ f hn]; exact h

theorem State.Ended.setChk (h : s.Ended c) (n : Nat) (m : BitVec 8) : (s.setChk n m).Ended c := by
  unfold State.setChk
  split
  · exact h
  · exact State.Ended.ite (h.modCtx _ fun _ => ⟨rfl, rfl⟩) h

/-! ## What front ends do -/

theorem State.Ended.drainFaults (h : s.Ended c) (n : Nat) : (s.drainFaults n).Ended c := by
  unfold State.drainFaults
  dsimp only
  split
  · exact h
  · refine State.Ended.foldl (fun s f hs => ?_) _ h
    split
    · refine State.Ended.ite hs (State.Ended.modCtx ?_ n fun _ => ⟨rfl, rfl⟩)
      exact hs.of_ctxs (State.putHome_ctxs ..)
    · exact hs

theorem State.Ended.reportFault (h : s.Ended c) (n va kind core pte : Nat) (l3 attr : Bool) :
    (s.reportFault n va kind core pte l3 attr).Ended c := by
  unfold State.reportFault
  dsimp only
  refine State.Ended.ite h (State.Ended.drainFaults (State.Ended.modCtx h n ?_) n)
  exact fun _ => ⟨rfl, rfl⟩

theorem State.Ended.post (h : s.Ended c) (op : PeerOp) (g n k pa size : Nat) : (s.post op g n k pa size).Ended c := by
  unfold State.post
  refine State.Ended.ite ?_ (h.setChk ..)
  exact h

theorem State.Ended.frontPut (h : s.Ended c) (t n va : Nat) (bs : List Byte) : (s.frontPut t n va bs).Ended c := by
  have hr := h.of_ctxs (State.reach_ctxs (12 * t) n true .engineRead va bs.length)
  unfold State.frontPut
  dsimp only
  refine State.Ended.ite (h.of_ctxs rfl) ?_
  split
  case h_1 heq =>
    rw [heq] at hr
    exact State.Ended.ite (hr.post ..) (hr.of_ctxs (State.putHome_ctxs ..))
  case h_2 heq => rw [heq] at hr; exact (hr.reportFault ..).of_ctxs rfl
  case h_3 heq => rw [heq] at hr; exact hr.of_ctxs rfl
  case h_4 heq => rw [heq] at hr; exact hr

theorem State.Ended.setQueue (h : s.Ended c) (n : Nat) (st : QueueSt) (err : Nat) : (s.setQueue n st err).Ended c := by
  unfold State.setQueue
  split
  · exact h
  · exact State.Ended.frontPut (h.of_ctxs (State.modQueue_ctxs ..)) ..

theorem State.Ended.reapDraining (h : s.Ended c) (n : Nat) : (s.reapDraining n).Ended c := by
  unfold State.reapDraining
  split
  · exact State.Ended.ite (h.setQueue ..) h
  · exact h

/-! ## End sequences (R144) -/

theorem State.Ended.endPlace (h : s.Ended c) (q : EndSeq) (va n : Nat) : (s.endPlace q va n).2.Ended c := by
  have hr := h.of_ctxs (State.reach_ctxs (q.core / 8) q.ctx (cfgPriv (s.ctx q.ctx).ctxcfg) .engineWrite va n)
  unfold State.endPlace
  split
  · exact h
  · split
    case h_1 heq =>
      rw [heq] at hr
      split
      · exact hr
      · split <;> exact hr
    case h_2 heq => rw [heq] at hr; exact hr.reportFault ..
    case h_3 heq => rw [heq] at hr; exact hr
    case h_4 heq => rw [heq] at hr; exact hr

theorem State.Ended.endAsk (h : s.Ended c) (q : EndSeq) (op : PeerOp) (pa n : Nat) : (s.endAsk q op pa n).2.Ended c := by
  unfold State.endAsk
  split
  · exact h
  · split
    · exact h
    · split
      · exact h
      · exact State.Ended.ite (h.setChk ..) h

theorem State.Ended.atomHome (h : s.Ended c) (l pa n : Nat) (f : Nat → Nat) : (s.atomHome l pa n f).2.Ended c := by
  unfold State.atomHome
  split
  · next p _ =>
    have hw (bs : List Byte) : ((s.homeRead p n).2.homeWrite p bs).Ended c :=
      (h.of_ctxs (State.homeRead_ctxs ..)).of_ctxs (State.homeWrite_ctxs ..)
    refine State.Ended.of_ctxs ?_ (State.noteAtomic_ctxs p)
    refine State.Ended.ite ?_ (hw _)
    exact State.Ended.setChk (State.Ended.of_ctxs (hw _) (State.clearPoison_ctxs _ _)) ..
  · exact h

theorem State.Ended.homeWord (h : s.Ended c) (l pa : Nat) : (s.homeWord l pa).2.Ended c := by
  unfold State.homeWord
  split
  · next p _ =>
    have hr : (s.homeRead p 8).2.Ended c := h.of_ctxs (State.homeRead_ctxs ..)
    dsimp only
    split
    · exact hr.setChk ..
    · exact hr
  · exact h

theorem State.Ended.mirrorStore (h : s.Ended c) (g l n pa : Nat) (e : TlbEntry) : (s.mirrorStore g l n pa e).Ended c :=
  State.Ended.ite (h.of_ctxs rfl) h

theorem State.Ended.endAtomic (h : s.Ended c) (q : EndSeq) (va op : Nat) (b : DWord) :
    (s.endAtomic q va op b).2.Ended c := by
  have hp := h.endPlace q va 8
  unfold State.endAtomic
  split
  case h_1 heq => rw [heq] at hp; exact hp.atomHome ..
  case h_2 pa u heq =>
    rw [heq] at hp
    have ha : (u.endAsk q (.atomic op b 0) pa 8).2.Ended c := hp.endAsk ..
    split <;> next heq => rw [heq] at ha; exact ha
  case h_3 heq => rw [heq] at hp; exact hp
  case h_4 heq => rw [heq] at hp; exact hp

theorem State.Ended.endParent (h : s.Ended c) (q : EndSeq) : (s.endParent q).2.Ended c := by
  have hp := h.endPlace q (q.block + 8) 8
  unfold State.endParent
  split
  case h_1 heq => rw [heq] at hp; exact hp.homeWord ..
  case h_2 heq => rw [heq] at hp; exact hp.endAsk ..
  case h_3 heq => rw [heq] at hp; exact hp
  case h_4 heq => rw [heq] at hp; exact hp

theorem State.Ended.putStatus (h : s.Ended c) (q : EndSeq) (bs : List Byte) : (s.putStatus q bs).2.Ended c := by
  have hp := h.endPlace q (q.block + 0x18) bs.length
  unfold State.putStatus
  split
  case h_1 heq => rw [heq] at hp; exact State.Ended.mirrorStore (hp.of_ctxs (State.putHome_ctxs ..)) ..
  case h_2 heq => rw [heq] at hp; exact hp.endAsk ..
  case h_3 heq => rw [heq] at hp; exact hp
  case h_4 heq => rw [heq] at hp; exact hp

theorem State.Ended.endReady (h : s.Ended c) (q : EndSeq) : (s.endReady q).2.Ended c := by
  have hp := h.endPlace q q.block 32
  unfold State.endReady
  split
  · exact h
  · split
    case h_1 heq => rw [heq] at hp; exact hp
    case h_2 heq => rw [heq] at hp; exact hp
    case h_3 u _ _ heq =>
      rw [heq] at hp
      have hn := hp.endPlace q (q.block + 32) 32
      split
      · split <;> next heq => rw [heq] at hn; exact hn
      · exact hp

theorem EndGot.then_snd (r : EndGot × State) (f : Nat → EndNext) : (EndGot.then r f).2 = r.2 := by
  obtain ⟨g, s⟩ := r
  cases g <;> rfl

theorem State.Ended.endStep (h : s.Ended c) (q : EndSeq) (l : Launch) : (s.endStep q l).2.Ended c := by
  have hr := h.endReady q
  unfold State.endStep
  split
  · split
    case h_1 heq => rw [heq] at hr; exact hr
    case h_2 heq => rw [heq] at hr; exact hr
    case h_3 heq =>
      rw [heq] at hr
      dsimp only
      split
      · rw [EndGot.then_snd]; exact hr.putStatus ..
      · split
        · rw [EndGot.then_snd]; exact hr.endAtomic ..
        · exact hr
  · rw [EndGot.then_snd]; exact h.endAtomic ..
  · rw [EndGot.then_snd]; exact h.endParent _

theorem State.Ended.runEnd (h : s.Ended c) (q : EndSeq) (l : Launch) (k : Nat) : (s.runEnd q l k).Ended c := by
  induction k generalizing s q with
  | zero => exact h
  | succ k ih =>
    have hs := h.endStep q l
    unfold State.runEnd
    split
    case h_1 heq => rw [heq] at hs; exact hs
    case h_2 heq => rw [heq] at hs; exact hs
    case h_3 heq => rw [heq] at hs; exact hs
    case h_4 heq =>
      rw [heq] at hs
      refine ih ?_ _
      split <;> exact hs

theorem State.Ended.endLaunch (h : s.Ended c) (n : Nat) : (s.endLaunch n).Ended c := by
  unfold State.endLaunch
  split
  · exact h
  · have hm (l : Launch) (k : Nat) : ((s.modLaunch n fun _ => l).modCtx k fun c => { c with chkAcc := 0 }).Ended c :=
      State.Ended.modCtx (s := s.modLaunch n fun _ => l) h k fun _ => ⟨rfl, rfl⟩
    refine State.Ended.reapDraining (State.Ended.ite (hm _ _) ?_) _
    exact State.Ended.runEnd (s := { (State.modCtx _ _ _) with fresh := _ }) (hm _ _) ..

/-! ## Teams and launches that go (R87, R145) -/

@[simp] theorem State.stopTeam_ctxs (n : Nat) (w : HaltWhy) : (s.stopTeam n w).ctxs = s.ctxs := by
  unfold State.stopTeam
  split
  · rfl
  · split
    · rfl
    · exact State.ctxs_ite rfl rfl
    · exact State.ctxs_ite rfl rfl
    · exact State.ctxs_ite rfl rfl
    · rfl

theorem State.Ended.refreshCtx (h : s.Ended c) (n : Nat) : (s.refreshCtx n).Ended c := by
  unfold State.refreshCtx
  dsimp only
  by_cases hn : c = n
  · subst hn
    rw [h.1]
    exact h
  · split
    · exact State.Ended.ite (h.modCtx_ne hn _) h
    · exact State.Ended.ite (h.modCtx_ne hn _) h
    · exact State.Ended.ite (h.modCtx_ne hn _) h
    · exact State.Ended.ite h (State.Ended.ite (h.modCtx_ne hn _) (h.modCtx_ne hn _))
    · exact h

theorem State.Ended.withoutTeam (h : s.Ended c) (cores : Tbl Core) (groups : Tbl Group) (teams : Tbl Team)
    (peers : Tbl PeerReq) :
    State.Ended { s with cores := cores, groups := groups, teams := teams, peers := peers } c := h

theorem State.Ended.removeTeam (h : s.Ended c) (n : Nat) : (s.removeTeam n).Ended c := by
  have renamed (l : List (Nat × Group)) (u : State) (hu : u.Ended c) :
      (l.foldl (fun (s : State) p => s.renameGid p.1 goneGid) u).Ended c :=
    State.Ended.foldl (f := fun (s : State) (p : Nat × Group) => s.renameGid p.1 goneGid) (fun _ _ hs => hs) l hu
  unfold State.removeTeam
  split
  · exact h
  · next t _ =>
    refine State.Ended.refreshCtx (State.Ended.withoutTeam ?_ _ _ _ _) _
    exact State.Ended.modCtx (renamed _ (s.freeBuffers n) h) _ fun _ => ⟨rfl, rfl⟩

theorem State.Ended.settle (h : s.Ended c) (n : Nat) : (s.settle n).Ended c := by
  unfold State.settle
  split
  · exact h
  · exact State.Ended.ite (h.removeTeam n) h

theorem State.Ended.drainLaunch (h : s.Ended c) (n e : Nat) (i : FaultInfo) : (s.drainLaunch n e i).Ended c := by
  have stop (u : State) (hu : u.Ended c) : (u.stopLaunch n).Ended c := by
    unfold State.stopLaunch
    refine State.Ended.foldl (fun s p hs => ?_) _ hu
    exact State.Ended.ite (State.Ended.settle (hs.of_ctxs (State.stopTeam_ctxs ..)) _) (hs.removeTeam _)
  unfold State.drainLaunch
  split
  · exact h
  · split
    · exact stop _ (h.of_ctxs (State.modLaunch_ctxs ..))
    · exact stop _ (h.of_ctxs (State.modLaunch_ctxs ..))
    · exact stop _ (h.of_ctxs (State.modLaunch_ctxs ..))
    · exact h

theorem State.Ended.cancelLaunch (h : s.Ended c) (n : Nat) : (s.cancelLaunch n).Ended c := by
  unfold State.cancelLaunch
  split
  · exact h
  · split
    · exact State.Ended.endLaunch (h.of_ctxs (State.modLaunch_ctxs ..)) n
    · exact h.drainLaunch ..

theorem State.Ended.reapQueue (h : s.Ended c) (cl n : Nat) : (s.reapQueue cl n).Ended c := by
  unfold State.reapQueue
  split
  · exact State.Ended.ite (State.Ended.ite (h.of_ctxs rfl) (h.of_ctxs rfl)) h
  · exact h

end Kept
end Sys2Proof.Machine
end

section
/-! SUPPORT. The driver's services for profiles, contexts, tensors and decode sessions (R50, R86 to R89, R109, R368, R371 to
R373, R457): what each request answers, and what it leaves. -/

namespace Sys2Proof.Machine

open Sys2Proof Sys2Proof.Claims

/-! ## Tables -/

namespace Tbl

variable {α : Type} {t : Tbl α} {n k : Nat}

/-- The search for a free number ends at the first one. -/
theorem firstFree_eq (hfree : t.find k = none) (hused : ∀ j < k, (t.find j).isSome) {a : Nat} (ha : a ≤ k) (hk : k < a + n) :
    t.firstFree n a = k := by
  induction n generalizing a with
  | zero => omega
  | succ n ih =>
    unfold firstFree
    rcases Nat.eq_or_lt_of_le ha with rfl | hlt
    · simp [hfree]
    · rw [if_neg (by simpa [← Option.isSome_iff_ne_none] using hused a hlt)]
      exact ih hlt (by omega)

/-- The search ends past its last number if none is free. -/
theorem firstFree_full {a : Nat} (hused : ∀ j < a + n, (t.find j).isSome) : t.firstFree n a = a + n := by
  induction n generalizing a with
  | zero => rfl
  | succ n ih =>
    unfold firstFree
    rw [if_neg (by simpa [← Option.isSome_iff_ne_none] using hused a (by omega)), ih fun j hj => hused j (by omega)]
    omega

theorem find_eq_none (h : n ∉ t.map (·.1)) : t.find n = none := by
  induction t with
  | nil => rfl
  | cons p t ih =>
    simp only [List.map_cons, List.mem_cons, not_or] at h
    obtain ⟨hne, ht⟩ := h
    rw [find, if_neg (Ne.symm hne)]
    exact ih ht

theorem mem_of_find {v : α} (h : t.find n = some v) : (n, v) ∈ t := by
  induction t with
  | nil => cases h
  | cons p t ih =>
    unfold find at h
    split at h
    · next hp => cases h; subst hp; exact List.mem_cons_self
    · exact List.mem_cons_of_mem _ (ih h)

/-- A key that stands once in a table is gone once it is deleted. -/
theorem find_del_self (h : (t.map (·.1)).Nodup) : (t.del n).find n = none := by
  induction t with
  | nil => rfl
  | cons p t ih =>
    rw [List.map_cons, List.nodup_cons] at h
    unfold del
    split
    · next hp => exact find_eq_none (hp ▸ h.1)
    · next hp => rw [find, if_neg hp]; exact ih h.2

/-- Replacing an entry of a sorted table keeps its keys, and the other entries. -/
theorem put_of_find {v w : α} (hs : (t.map (·.1)).Pairwise (· < ·)) (h : t.find n = some w) :
    (t.put n v).map (·.1) = t.map (·.1) ∧
    ∀ p : Nat × α → Bool, (∀ q ∈ t, p q = false) → (t.put n v).filter p = if p (n, v) then [(n, v)] else [] := by
  induction t with
  | nil => cases h
  | cons q t ih =>
    obtain ⟨k, x⟩ := q
    rw [List.map_cons, List.pairwise_cons] at hs
    obtain ⟨hlt, hs⟩ := hs
    by_cases hk : k = n
    · subst hk
      have hput : put ((k, x) :: t) k v = (k, v) :: t := by simp [put]
      refine ⟨by rw [hput]; rfl, fun p hp => ?_⟩
      have ht : t.filter p = [] := List.filter_eq_nil_iff.2 fun q hq => by simp [hp q (List.mem_cons_of_mem _ hq)]
      rw [hput, List.filter_cons, ht]
    · rw [find, if_neg hk] at h
      have hkn : k < n := hlt n (List.mem_map.2 ⟨_, mem_of_find h, rfl⟩)
      have hput : put ((k, x) :: t) n v = (k, x) :: put t n v := by
        rw [put, if_neg (by omega), if_neg (Ne.symm hk)]
      obtain ⟨hkeys, hfilter⟩ := ih hs h
      refine ⟨by rw [hput, List.map_cons, List.map_cons, hkeys], fun p hp => ?_⟩
      rw [hput, List.filter_cons, hp _ List.mem_cons_self]
      exact hfilter p fun q hq => hp q (List.mem_cons_of_mem _ hq)

end Tbl

/-! ## Requests -/

section Requests

variable {s : State} {i : Instr}

theorem request_ready (h : s.dev.st = .ready) (f : State → State) : request s f = .next (f s) := by
  unfold request; rw [h]

theorem answers_of {st : Status} (h : exec i s = .next (s.answer st)) : Answers i s st [] :=
  ⟨_, h, ⟨rfl, rfl, rfl, rfl, rfl, rfl, rfl, rfl, rfl, rfl, rfl, rfl, rfl, rfl, rfl, rfl, rfl, rfl, rfl, rfl⟩, rfl, rfl, rfl⟩

/-- What a request that is accepted leaves as it was. -/
def Serves (s u : State) : Prop := u.responses = s.responses ∧ u.mem = s.mem ∧ u.groups = s.groups ∧
  u.launches = s.launches ∧ u.teams = s.teams ∧ u.cores = s.cores

theorem accepts_of {v : List Byte} {p : State → Prop} {u : State} (h : exec i s = .next (u.answer .ok v)) (hu : Serves s u)
    (hp : p (u.answer .ok v)) : Accepts i s v p := by
  obtain ⟨hresp, hmem, hgroups, hlaunches, hteams, hcores⟩ := hu
  exact ⟨_, h, congrArg _ hresp, hmem, hgroups, hlaunches, hteams, hcores, hp⟩

theorem State.answer_ctx (st : Status) (v : List Byte) (k : Nat) : (s.answer st v).ctx k = s.ctx k := rfl

theorem State.answer_tower (st : Status) (v : List Byte) (k : Nat) : (s.answer st v).tower k = s.tower k := rfl

theorem State.modTower_ctx (n : Nat) (f : Tower → Tower) (k : Nat) : (s.modTower n f).ctx k = s.ctx k := rfl

theorem CtxSt.alive_iff (st : CtxSt) : st.alive = true ↔ st ≠ .free ∧ st ≠ .destroyed := by cases st <;> decide

theorem CtxSt.alive_eq_false (st : CtxSt) : st.alive = false ↔ st = .free ∨ st = .destroyed := by cases st <;> decide

/-! ## Profiles (R50) -/

theorem exec_profileWrite {d : BitVec 128} (h : s.dev.st = .ready) (hb : s.arg.body = .profile d) :
    exec .profileWrite s = .next (
      if s.arg.a ≥ 8 then s.answer .badReq
      else if d.getLsbD 127 && badProfile d then s.answer .badProf
      else if s.ctxs.any fun p => p.2.st.alive && p.2.profile == s.arg.a then s.answer .inUse
      else (s.modDev fun v => { v with profiles := v.profiles.put s.arg.a d }).answer .ok) := by
  change execProfileWrite s = _
  unfold execProfileWrite
  rw [request_ready h, hb]

theorem profileUsed_iff (s : State) (n : Nat) : (s.ctxs.any fun p => p.2.st.alive && p.2.profile == n) = true ↔
    ∃ p ∈ s.ctxs, p.2.st ≠ .free ∧ p.2.st ≠ .destroyed ∧ p.2.profile = n := by
  simp only [List.any_eq_true, Bool.and_eq_true, CtxSt.alive_iff, beq_iff_eq, and_assoc]

/-! ## Contexts (R86 to R89) -/

theorem cfgBad_iff (v : DWord) : cfgBad v = true ↔ v.toNat / 2 ^ 20 % 2 ^ 4 ≠ 0 ∨ v.toNat / 2 ^ 30 ≠ 0 := by
  have hv : v.toNat / 2 ^ 30 < 2 ^ 34 := Nat.div_lt_of_lt_mul (by have := v.isLt; omega)
  unfold cfgBad bits
  rw [show 63 + 1 - 30 = 34 by rfl, Nat.mod_eq_of_lt hv]
  simp

theorem newCfg_toNat (v : DWord) {n : Nat} (hn : n < 64) :
    (newCfg v n).toNat = v.toNat % 2 ^ 7 + 1000 * 2 ^ 8 + n * 2 ^ 24 := by
  unfold newCfg bits
  rw [BitVec.toNat_ofNat]
  simp only [Nat.pow_zero, Nat.div_one]
  omega

theorem exec_contextCreate {r : CreateReq} (h : s.dev.st = .ready) (hb : s.arg.body = .create r) :
    exec .contextCreate s = .next (
      if r.ctx ≥ 64 then s.answer .badReq
      else if (s.ctx r.ctx).st ≠ .free then s.answer .busy
      else if r.ptRoot % 65536 ≠ 0 ∨ spaceOf r.ptRoot ≠ .hbm ∨ cfgBad r.ctxcfg ∨ r.profile ≥ 8
          ∨ r.saveBase + r.saveSize > 2 ^ 52 ∨ r.snapBase + r.snapSize > 2 ^ 52 then s.answer .badReq
      else if ! (s.dev.profiles.findD r.profile 0).getLsbD 127 then s.answer .badProf
      else
        (s.modCtx r.ctx fun c =>
          { freshCtx with
            st := .created, ptRoot := r.ptRoot, profile := r.profile, ctxcfg := newCfg r.ctxcfg r.ctx, codeBase := r.codeBase
            saveBase := r.saveBase, saveSize := r.saveSize, snapBase := r.snapBase, snapSize := r.snapSize
            tensorGen := c.tensorGen }).answer .ok) := by
  change execContextCreate s = _
  unfold execContextCreate
  rw [request_ready h, hb]

/-- A create request is well formed just when no check of CONTEXT_CREATE refuses it (R87, R457). -/
theorem createBad_iff (r : CreateReq) : (r.ptRoot % 65536 ≠ 0 ∨ spaceOf r.ptRoot ≠ .hbm ∨ cfgBad r.ctxcfg ∨ r.profile ≥ 8
      ∨ r.saveBase + r.saveSize > 2 ^ 52 ∨ r.snapBase + r.snapSize > 2 ^ 52) ↔
    ¬ (r.ptRoot % 65536 = 0 ∧ spaceOf r.ptRoot = .hbm ∧ r.ctxcfg.toNat / 2 ^ 20 % 2 ^ 4 = 0 ∧ r.ctxcfg.toNat / 2 ^ 30 = 0 ∧
      r.profile < 8 ∧ r.saveBase + r.saveSize ≤ 2 ^ 52 ∧ r.snapBase + r.snapSize ≤ 2 ^ 52) := by
  rw [cfgBad_iff]
  simp only [not_and_or, not_lt, not_le, ge_iff_le, gt_iff_lt, or_assoc, ne_eq]

theorem exec_ctxcfgSet {v : DWord} (h : s.dev.st = .ready) (hb : s.arg.body = .dword v) :
    exec .ctxcfgSet s = .next (
      if s.arg.a ≥ 64 ∨ cfgBad v then s.answer .badReq
      else if ! (s.ctx s.arg.a).st.alive then s.answer .badState
      else (s.modCtx s.arg.a fun c =>
        { c with ctxcfg := BitVec.ofNat 64 (bits v.toNat 19 0 + s.arg.a * 2 ^ 24) }).answer .ok) := by
  change execCtxcfgSet s = _
  unfold execCtxcfgSet
  rw [request_ready h, hb]

/-- CONTEXT_DESTROY of a living context leaves it DESTROYED without lids, and is answered (R87). -/
theorem contextDestroy_alive (h : s.dev.st = .ready) (hc : s.arg.a < 64) (ha : (s.ctx s.arg.a).st.alive = true) :
    ∃ u : State, exec .contextDestroy s = .next (u.answer .ok) ∧ u.Ended s.arg.a := by
  have hexec : exec .contextDestroy s = execContextDestroy s := rfl
  unfold execContextDestroy at hexec
  rw [request_ready h] at hexec
  dsimp only at hexec
  rw [if_neg (by omega), if_neg (by simp [ha])] at hexec
  refine ⟨_, hexec, ?_⟩
  have hstart : (s.modCtx s.arg.a fun x => { x with st := .destroyed, lids := [] }).Ended s.arg.a := by
    simp [State.Ended]
  refine State.Ended.foldl (fun s p hs => State.Ended.foldl (fun s q hs => ?_) _ hs) _ ?_
  · exact State.Ended.ite (State.Ended.reapQueue (hs.of_ctxs (State.modCluster_ctxs ..)) ..) hs
  · refine State.Ended.of_ctxs (State.Ended.foldl (fun s p hs => hs.setQueue ..) _ ?_) rfl
    exact State.Ended.foldl (fun s p hs => hs.cancelLaunch _) _ hstart

theorem exec_contextDestroy_refused (h : s.dev.st = .ready) :
    (64 ≤ s.arg.a → exec .contextDestroy s = .next (s.answer .badReq)) ∧
    (s.arg.a < 64 → (s.ctx s.arg.a).st.alive = false → exec .contextDestroy s = .next (s.answer .badState)) := by
  have hexec : exec .contextDestroy s = execContextDestroy s := rfl
  unfold execContextDestroy at hexec
  rw [request_ready h] at hexec
  dsimp only at hexec
  refine ⟨fun hc => ?_, fun hc ha => ?_⟩
  · rw [hexec, if_pos (by omega)]
  · rw [hexec, if_neg (by omega), if_pos (by simp [ha])]

@[simp] theorem State.forgetCtx_ctxs (c : Nat) : (s.forgetCtx c).ctxs = s.ctxs := by
  have drops (s : State) (p : Nat × Cluster) (l : List TlbEntry) :
      (l.foldl (fun (s : State) e => s.dropTlb p.1 e) s).ctxs = s.ctxs :=
    State.ctxs_foldl (f := fun (s : State) e => s.dropTlb p.1 e) (fun _ _ => State.dropTlb_ctxs ..) _ _
  have flushes (s : State) (l : Tbl Core) (p : L1Line → Bool) :
      (l.foldl (fun (s : State) q => s.flushL1 q.1 false p) s).ctxs = s.ctxs :=
    State.ctxs_foldl (f := fun (s : State) (q : Nat × Core) => s.flushL1 q.1 false p) (fun _ _ => State.flushL1_ctxs ..) _ _
  unfold State.forgetCtx
  exact (flushes ..).trans (State.ctxs_foldl (fun s p => drops s p _) _ _)

/-- A tower without the decode sessions of a context. -/
def Tower.dropSessions (c : Nat) (w : Tower) : Tower := { w with sessions := w.sessions.filter fun x => x.2.ctx != c }

theorem sessions_dropped (t : Tbl Tower) (c k : Nat) {x : Session}
    (hx : x ∈ (Tbl.findD (t.map fun p => (p.1, p.2.dropSessions c)) k freshTower).sessions.map (·.2)) : x.ctx ≠ c := by
  rw [Tbl.findD, Tbl.find_map t fun _ w => w.dropSessions c] at hx
  cases hw : t.find k with
  | none => simp [hw, freshTower] at hx
  | some w =>
    simp only [hw, Option.map_some, Option.getD_some, Tower.dropSessions, List.mem_map, List.mem_filter] at hx
    obtain ⟨p, ⟨-, hp⟩, rfl⟩ := hx
    simpa using hp

/-- CONTEXT_RELEASED makes a destroyed context FREE, but for the generations of its tensors, and its sessions go (R87). -/
theorem contextReleased_frees (hd : (s.ctx s.arg.a).st = .destroyed) (hr : s.released s.arg.a = true) :
    ∃ u, exec .contextReleased s = .next u ∧ u.ctx s.arg.a = { freshCtx with tensorGen := (s.ctx s.arg.a).tensorGen } ∧
      ∀ k x, x ∈ (u.tower k).sessions.map (·.2) → x.ctx ≠ s.arg.a := by
  have hexec : exec .contextReleased s = execContextReleased s := rfl
  unfold execContextReleased at hexec
  dsimp only at hexec
  rw [if_neg (by simp [hd, hr])] at hexec
  refine ⟨_, hexec, ?_, fun k x hx => ?_⟩
  · rw [State.ctx_modCtx_self]
    congr 1
    exact congrArg Context.tensorGen (State.ctx_of_ctxs (State.forgetCtx_ctxs _) _)
  · exact sessions_dropped (s.forgetCtx s.arg.a).towers _ k hx

/-- A context whose teams are all on the cores is evicted without a write (R87). -/
theorem evict_onCores (ht : ∀ p ∈ s.teams, p.2.ctx = s.arg.a → p.2.onCores = true) :
    s.evict s.arg.a = some (s.modCtx s.arg.a fun c => { c with st := if c.st = .parked then .evicted else c.st }) := by
  have hnone : (s.teams.filter fun p => p.2.ctx == s.arg.a && ! p.2.onCores) = [] := by
    refine List.filter_eq_nil_iff.2 fun p hp => ?_
    by_cases hc : p.2.ctx = s.arg.a
    · simp [ht p hp hc]
    · simp [hc]
  simp [State.evict, hnone]

/-! ## The rows of PARK buffers (R109, R222) -/

theorem SpRow.renew_of_fresh {r : SpRow} {now keep : Nat} (hs : r.st = .stamped) (hk : now - r.stamp ≤ keep) :
    r.renew now keep = { r with stamp := now } := by
  rw [SpRow.renew, if_pos]
  exact ⟨hs, by simp [SpRow.expired, hk]⟩

/-- Renewal keeps a row's data and state, and its stamp or sets it to the present. -/
theorem SpRow.renew_keeps (r : SpRow) (now keep : Nat) : (r.renew now keep).st = r.st ∧ (r.renew now keep).data = r.data ∧
    ((r.renew now keep).stamp = r.stamp ∨ (r.renew now keep).stamp = now) := by
  unfold SpRow.renew
  split
  · exact ⟨rfl, rfl, .inr rfl⟩
  · exact ⟨rfl, rfl, .inl rfl⟩

theorem Core.row_renewBuf (c : Core) (now : Nat) (b : Buf) (n : Nat) :
    (c.renewBuf now b).row n = if b.base ≤ n ∧ n < b.base + b.rows then (c.row n).renew now (c.keepNs b) else c.row n := by
  have hmap : (c.renewBuf now b).sp = c.sp.map fun p => (p.1,
      if b.base ≤ p.1 ∧ p.1 < b.base + b.rows then p.2.renew now (c.keepNs b) else p.2) := by
    refine List.map_congr_left fun p _ => ?_
    split <;> rfl
  have hfresh : freshRow.renew now (c.keepNs b) = freshRow := rfl
  unfold Core.row Tbl.findD
  rw [hmap, Tbl.find_map c.sp (fun k v => if b.base ≤ k ∧ k < b.base + b.rows then v.renew now (c.keepNs b) else v)]
  cases c.sp.find n <;> simp [hfresh]

/-- A row that was renewed just now, or that stands as it stood in `c` (R222). -/
def Core.RowRenewed (c d : Core) (now n : Nat) : Prop :=
  (d.row n).st = (c.row n).st ∧ (d.row n).data = (c.row n).data ∧
    ((d.row n).stamp = (c.row n).stamp ∨ (d.row n).stamp = now) ∧ d.retnUs = c.retnUs

theorem Core.RowRenewed.renewBuf {c d : Core} {now n : Nat} (h : c.RowRenewed d now n) (b : Buf) :
    c.RowRenewed (d.renewBuf now b) now n := by
  obtain ⟨hst, hdata, hstamp, hretn⟩ := h
  unfold Core.RowRenewed
  rw [Core.row_renewBuf]
  split
  · obtain ⟨h1, h2, h3⟩ := SpRow.renew_keeps (d.row n) now (d.keepNs b)
    exact ⟨h1.trans hst, h2.trans hdata, h3.elim (fun h => h ▸ hstamp) .inr, hretn⟩
  · exact ⟨hst, hdata, hstamp, hretn⟩

/-- Renewing a row again at one time leaves its stamp there. -/
theorem Core.renewBuf_stamp {c : Core} {now n : Nat} (h : (c.row n).stamp = now) (b : Buf) :
    ((c.renewBuf now b).row n).stamp = now := by
  rw [Core.row_renewBuf]
  split
  · obtain ⟨-, -, hkept | hnow⟩ := SpRow.renew_keeps (c.row n) now (c.keepNs b)
    · exact hkept.trans h
    · exact hnow
  · exact h

/-- Of the buffers that are renewed, one that holds a row which is not expired gives it the present as its stamp. -/
theorem Core.renewBufs_row {c d : Core} {now n : Nat} {b : Buf} (l : List (Nat × Buf)) (hd : c.RowRenewed d now n)
    (hin : b.base ≤ n ∧ n < b.base + b.rows) (hs : (c.row n).st = .stamped) (hk : now - (c.row n).stamp ≤ c.keepNs b)
    (hb : (∃ k, (k, b) ∈ l) ∨ (d.row n).stamp = now) :
    let e := l.foldl (fun (c : Core) p => c.renewBuf now p.2) d
    (e.row n).stamp = now ∧ (e.row n).data = (c.row n).data := by
  induction l generalizing d with
  | nil =>
    rcases hb with ⟨k, hb⟩ | hb
    · cases hb
    · exact ⟨hb, hd.2.1⟩
  | cons p l ih =>
    refine ih (hd.renewBuf p.2) ?_
    rcases hb with ⟨k, hb⟩ | hb
    · rcases List.mem_cons.1 hb with rfl | hb
      · obtain ⟨hst, -, hstamp, hretn⟩ := hd
        have hkeep : d.keepNs b = c.keepNs b := by unfold Core.keepNs; rw [hretn]
        refine .inr ?_
        rw [Core.row_renewBuf, if_pos hin, SpRow.renew_of_fresh (hst.trans hs)]
        rw [hkeep]
        rcases hstamp with h | h <;> rw [h]
        · exact hk
        · omega
      · exact .inl ⟨k, hb⟩
    · exact .inr (Core.renewBuf_stamp hb p.2)

/-! ## Tensors (R371 to R373) -/

theorem mem_insertBy {α : Type} {key : α → Nat} {a b : α} {l : List α} : b ∈ insertBy key a l ↔ b = a ∨ b ∈ l := by
  induction l with
  | nil => simp [insertBy]
  | cons c l ih =>
    unfold insertBy
    split
    · simp
    · simp only [List.mem_cons, ih]; tauto

theorem sortBy_sorted {α : Type} (key : α → Nat) (l : List α) : (sortBy key l).Pairwise (key · ≤ key ·) := by
  have insert (a : α) (l : List α) (h : l.Pairwise (key · ≤ key ·)) : (insertBy key a l).Pairwise (key · ≤ key ·) := by
    induction l with
    | nil => simp [insertBy]
    | cons b l ih =>
      obtain ⟨hb, hl⟩ := List.pairwise_cons.1 h
      unfold insertBy
      split
      · next hab =>
        refine List.pairwise_cons.2 ⟨fun c hc => ?_, h⟩
        rcases List.mem_cons.1 hc with rfl | hc
        · exact hab.le
        · exact hab.le.trans (hb c hc)
      · next hab =>
        refine List.pairwise_cons.2 ⟨fun c hc => ?_, ih hl⟩
        rcases mem_insertBy.1 hc with rfl | hc
        · exact not_lt.1 hab
        · exact hb c hc
  induction l with
  | nil => exact List.Pairwise.nil
  | cons a l ih => exact insert a _ ih

/-- The lowest gap lies clear of every range, if the ranges stand in rising order (R372). -/
theorem firstGap_clear (n : Nat) {l : List (Nat × Nat)} (hl : l.Pairwise (·.1 ≤ ·.1)) (a : Nat) :
    a ≤ firstGap n a l ∧ ∀ p ∈ l, firstGap n a l + n ≤ p.1 ∨ p.1 + p.2 ≤ firstGap n a l := by
  induction l generalizing a with
  | nil => simp [firstGap]
  | cons q l ih =>
    obtain ⟨b, m⟩ := q
    obtain ⟨hb, hl⟩ := List.pairwise_cons.1 hl
    unfold firstGap
    split
    · next hab =>
      refine ⟨le_rfl, fun p hp => .inl ?_⟩
      rcases List.mem_cons.1 hp with rfl | hp
      · exact hab
      · exact hab.trans (hb p hp)
    · obtain ⟨hle, hclear⟩ := ih hl (max a (b + m))
      refine ⟨by omega, fun p hp => ?_⟩
      rcases List.mem_cons.1 hp with rfl | hp
      · exact .inr (by dsimp only; omega)
      · exact hclear p hp

theorem nextGen_pos (g : Nat) : 0 < nextGen g ∧ nextGen g < 256 := by unfold nextGen; split <;> omega

/-- Bytes of a range that was emptied read as zero. -/
theorem Mem.get_filter_range (m : List Host.Cell) (a : Nat) {n j : Nat} (hj : j < n) :
    Mem.get (m.filter fun p => ! decide (a ≤ p.1 ∧ p.1 < a + n)) (a + j) = 0 := by
  induction m with
  | nil => rfl
  | cons q m ih =>
    rw [List.filter_cons]
    split
    · next hout =>
      have hne : q.1 ≠ a + j := fun h => by simp [h, hj] at hout
      rw [Mem.get, if_neg hne]
      exact ih
    · exact ih

theorem exec_tensorCreate {r : TensorReq} (h : s.dev.st = .ready) (hb : s.arg.body = .tensor r) :
    exec .tensorCreate s = .next (
      if tensorBad r then s.answer .badReq
      else if ! (s.ctx r.ctx).st.alive then s.answer .badState
      else
        let c := s.ctx r.ctx
        let k := c.tensors.firstFree 1024 0
        let n := (tensorFor r 0 0).span
        let a := firstGap n 0 (s.tsUsed r.tower)
        if k ≥ 1024 ∨ a + n > 2 ^ 36 then s.answer .noSpace
        else
          let gen := nextGen (c.tensorGen.findD k 0)
          let s := s.modCtx r.ctx fun c =>
            { c with tensors := c.tensors.put k (tensorFor r gen a), tensorGen := c.tensorGen.put k gen }
          let s := s.modTower r.tower fun w =>
            { w with ts := w.ts.filter fun p => ! decide (a ≤ p.1 ∧ p.1 < a + n)
                     tsPoison := w.tsPoison.filter fun p => ! decide (a ≤ 32 * p ∧ 32 * p < a + n) }
          s.answer .ok (toBytes 4 (k + gen * 2 ^ 24))) := by
  change execTensorCreate s = _
  unfold execTensorCreate
  rw [request_ready h, hb]

theorem Tensor.span_eq (t : Tensor) : t.span = (t.size + 262143) / 262144 * 262144 := by
  rw [Tensor.span, ceilDiv, Nat.add_sub_assoc (by omega)]

/-- A tensor marked as going is the only one that a sorted table holds to reap, unless a copy names it (R371). -/
theorem reapTensors_one {u : State} {c k : Nat} {ts : Tbl Tensor} {x y : Tensor} (hts : (u.ctx c).tensors = ts.put k x)
    (hx : x.destroying = true) (hk : ts.find k = some y) (hs : (ts.map (·.1)).Pairwise (· < ·))
    (hn : ∀ p ∈ ts, p.2.destroying = false) : u.reapTensors c =
      if u.copies.any fun p => p.2.names c k then u
      else (u.modCtx c fun w => { w with tensors := w.tensors.del k }).answer .ok := by
  have hgone := (Tbl.put_of_find (v := x) hs hk).2
    (fun p => p.2.destroying && ! u.copies.any fun q => q.2.names c p.1) fun q hq => by simp [hn q hq]
  unfold State.reapTensors
  rw [hts, hgone]
  cases u.copies.any fun p => p.2.names c k <;> simp [hx]

/-! ## The requests' outcomes -/

theorem profileWrite_outcomes {d : BitVec 128} (h : s.dev.st = .ready) (hb : s.arg.body = .profile d) :
    let used := ∃ p ∈ s.ctxs, p.2.st ≠ .free ∧ p.2.st ≠ .destroyed ∧ p.2.profile = s.arg.a
    let bad := d.getLsbD 127 = true ∧ badProfile d = true
    (8 ≤ s.arg.a → Answers .profileWrite s .badReq []) ∧
    (s.arg.a < 8 → bad → Answers .profileWrite s .badProf []) ∧
    (s.arg.a < 8 → ¬ bad → used → Answers .profileWrite s .inUse []) ∧
    (s.arg.a < 8 → ¬ bad → ¬ used → Accepts .profileWrite s [] fun u => u.dev.profiles.find s.arg.a = some d ∧
      ∀ k, k ≠ s.arg.a → u.dev.profiles.find k = s.dev.profiles.find k) := by
  intro used bad
  have hbad : (d.getLsbD 127 && badProfile d) = true ↔ bad := by rw [Bool.and_eq_true]
  have hexec := exec_profileWrite h hb
  refine ⟨fun ha => ?_, fun ha hd => ?_, fun ha hd hu => ?_, fun ha hd hu => ?_⟩
  · rw [if_pos ha] at hexec
    exact answers_of hexec
  all_goals rw [if_neg (not_le.2 ha)] at hexec
  · rw [if_pos (hbad.2 hd)] at hexec
    exact answers_of hexec
  all_goals rw [if_neg (mt hbad.1 hd)] at hexec
  · rw [if_pos ((profileUsed_iff s _).2 hu)] at hexec
    exact answers_of hexec
  · rw [if_neg (mt (profileUsed_iff s _).1 hu)] at hexec
    exact accepts_of hexec ⟨rfl, rfl, rfl, rfl, rfl, rfl⟩ ⟨Tbl.find_put_self .., fun k hk => Tbl.find_put_ne _ _ hk⟩

theorem contextCreate_outcomes {r : CreateReq} (h : s.dev.st = .ready) (hb : s.arg.body = .create r) :
    let v := r.ctxcfg.toNat
    let good := r.ptRoot % 65536 = 0 ∧ spaceOf r.ptRoot = .hbm ∧ v / 2 ^ 20 % 2 ^ 4 = 0 ∧ v / 2 ^ 30 = 0 ∧ r.profile < 8 ∧
      r.saveBase + r.saveSize ≤ 2 ^ 52 ∧ r.snapBase + r.snapSize ≤ 2 ^ 52
    let valid := (s.dev.profiles.findD r.profile 0).getLsbD 127 = true
    (64 ≤ r.ctx → Answers .contextCreate s .badReq []) ∧
    (r.ctx < 64 → (s.ctx r.ctx).st ≠ .free → Answers .contextCreate s .busy []) ∧
    (r.ctx < 64 → (s.ctx r.ctx).st = .free → ¬ good → Answers .contextCreate s .badReq []) ∧
    (r.ctx < 64 → (s.ctx r.ctx).st = .free → good → ¬ valid → Answers .contextCreate s .badProf []) ∧
    (r.ctx < 64 → (s.ctx r.ctx).st = .free → good → valid → Accepts .contextCreate s [] fun u =>
      let c := u.ctx r.ctx
      c.st = .created ∧ c.ptRoot = r.ptRoot ∧ c.profile = r.profile ∧ c.codeBase = r.codeBase ∧ c.saveBase = r.saveBase ∧
      c.saveSize = r.saveSize ∧ c.snapBase = r.snapBase ∧ c.snapSize = r.snapSize ∧ c.lids = [] ∧ c.seals = [] ∧
      c.chkAcc = 0 ∧ c.tensors = [] ∧ c.ctxcfg.toNat = v % 2 ^ 7 + 1000 * 2 ^ 8 + r.ctx * 2 ^ 24 ∧
      ∀ k, k ≠ r.ctx → u.ctx k = s.ctx k) := by
  intro v good valid
  have hexec := exec_contextCreate h hb
  refine ⟨fun hc => ?_, fun hc hf => ?_, fun hc hf hg => ?_, fun hc hf hg hv => ?_, fun hc hf hg hv => ?_⟩
  · rw [if_pos hc] at hexec
    exact answers_of hexec
  all_goals rw [if_neg (not_le.2 hc)] at hexec
  · rw [if_pos hf] at hexec
    exact answers_of hexec
  all_goals rw [if_neg (not_not.2 hf)] at hexec
  · rw [if_pos ((createBad_iff r).2 hg)] at hexec
    exact answers_of hexec
  all_goals rw [if_neg (mt (createBad_iff r).1 (not_not.2 hg))] at hexec
  · rw [if_pos (by simpa [valid] using hv)] at hexec
    exact answers_of hexec
  · rw [if_neg (by simpa [valid] using hv)] at hexec
    refine accepts_of hexec ⟨rfl, rfl, rfl, rfl, rfl, rfl⟩ ?_
    dsimp only
    rw [State.answer_ctx, State.ctx_modCtx_self]
    refine ⟨rfl, rfl, rfl, rfl, rfl, rfl, rfl, rfl, rfl, rfl, rfl, rfl, newCfg_toNat _ hc, fun k hk => ?_⟩
    rw [State.answer_ctx, State.ctx_modCtx_ne _ _ hk]

theorem ctxcfgSet_outcomes {v : DWord} (h : s.dev.st = .ready) (hb : s.arg.body = .dword v) (hc : s.arg.a < 64) :
    let bad := v.toNat / 2 ^ 20 % 2 ^ 4 ≠ 0 ∨ v.toNat / 2 ^ 30 ≠ 0
    let alive := (s.ctx s.arg.a).st ≠ .free ∧ (s.ctx s.arg.a).st ≠ .destroyed
    (bad → Answers .ctxcfgSet s .badReq []) ∧ (¬ bad → ¬ alive → Answers .ctxcfgSet s .badState []) ∧
    (¬ bad → alive → Accepts .ctxcfgSet s [] fun u => (u.ctx s.arg.a).ctxcfg.toNat = v.toNat % 2 ^ 20 + s.arg.a * 2 ^ 24 ∧
      (u.ctx s.arg.a).st = (s.ctx s.arg.a).st ∧ ∀ k, k ≠ s.arg.a → u.ctx k = s.ctx k) := by
  intro bad alive
  have hbad : (s.arg.a ≥ 64 ∨ cfgBad v = true) ↔ bad := by rw [cfgBad_iff, or_iff_right (not_le.2 hc)]
  have hexec := exec_ctxcfgSet h hb
  refine ⟨fun hd => ?_, fun hd ha => ?_, fun hd ha => ?_⟩
  · rw [if_pos (hbad.2 hd)] at hexec
    exact answers_of hexec
  all_goals rw [if_neg (mt hbad.1 hd)] at hexec
  · rw [if_pos (by simpa using mt (CtxSt.alive_iff _).1 ha)] at hexec
    exact answers_of hexec
  · rw [if_neg (by simpa using (CtxSt.alive_iff _).2 ha)] at hexec
    refine accepts_of hexec ⟨rfl, rfl, rfl, rfl, rfl, rfl⟩ ?_
    rw [State.answer_ctx, State.ctx_modCtx_self]
    refine ⟨?_, rfl, fun k hk => ?_⟩
    · rw [BitVec.toNat_ofNat, bits, Nat.pow_zero, Nat.div_one]
      omega
    · rw [State.answer_ctx, State.ctx_modCtx_ne _ _ hk]

theorem contextDestroy_outcomes (h : s.dev.st = .ready) :
    let c := s.arg.a
    let alive := (s.ctx c).st ≠ .free ∧ (s.ctx c).st ≠ .destroyed
    (64 ≤ c → Answers .contextDestroy s .badReq []) ∧ (c < 64 → ¬ alive → Answers .contextDestroy s .badState []) ∧
    (c < 64 → alive → ∃ u, exec .contextDestroy s = .next u ∧ u.responses.head? = some ⟨.ok, [], []⟩ ∧
      (u.ctx c).st = .destroyed ∧ (u.ctx c).lids = []) := by
  intro c alive
  obtain ⟨hreq, hstate⟩ := exec_contextDestroy_refused h
  refine ⟨fun hc => answers_of (hreq hc), fun hc ha => answers_of (hstate hc ?_), fun hc ha => ?_⟩
  · simpa using mt (CtxSt.alive_iff _).1 ha
  · obtain ⟨u, hexec, hst, hlids⟩ := contextDestroy_alive h hc ((CtxSt.alive_iff _).2 ha)
    exact ⟨_, hexec, rfl, hst, hlids⟩

theorem contextReleased_outcomes (s : State) :
    ((s.ctx s.arg.a).st ≠ .destroyed ∨ s.released s.arg.a = false → exec .contextReleased s = .next s) ∧
    ((s.ctx s.arg.a).st = .destroyed → s.released s.arg.a = true → ∃ u, exec .contextReleased s = .next u ∧
      u.ctx s.arg.a = { freshCtx with tensorGen := (s.ctx s.arg.a).tensorGen } ∧
      ∀ k x, x ∈ ((u.tower k).sessions.map (·.2)) → x.ctx ≠ s.arg.a) := by
  refine ⟨fun hr => ?_, contextReleased_frees⟩
  change execContextReleased s = _
  unfold execContextReleased
  dsimp only
  rw [if_pos (by simpa using hr)]

theorem parkTimeout_outcomes (s : State) :
    ((s.ctx s.arg.a).st ≠ .parked ∨ s.time < (s.ctx s.arg.a).parkedSince + 100000000 → exec .parkTimeout s = .next s) ∧
    ((s.ctx s.arg.a).st = .parked → (s.ctx s.arg.a).parkedSince + 100000000 ≤ s.time →
      (∀ p ∈ s.teams, p.2.ctx = s.arg.a → p.2.onCores = true) →
      ∃ u, exec .parkTimeout s = .next u ∧ u.mem = s.mem ∧ (u.ctx s.arg.a).st = .evicted) := by
  have hexec : exec .parkTimeout s = execParkTimeout s := rfl
  unfold execParkTimeout at hexec
  dsimp only at hexec
  refine ⟨fun hn => ?_, fun hp ht hteams => ?_⟩
  · rw [hexec, if_neg fun ⟨hp, ht⟩ => hn.elim (· hp) (not_lt.2 ht)]
  · rw [if_pos ⟨hp, ht⟩, evict_onCores hteams] at hexec
    exact ⟨_, hexec, rfl, by simp [hp]⟩

/-- PARK_RENEWAL renews the stamped rows of the context's PARK buffers that are not expired (R109). -/
theorem parkRenewal_outcomes (s : State) : ∃ u, exec .parkRenewal s = .next u ∧ u.mem = s.mem ∧ u.groups = s.groups ∧
    ∀ k p t row, p ∈ (s.core k).bufs → p.2.parked = true → s.teams.find p.2.team = some t → t.ctx = s.arg.a →
      p.2.base ≤ row → row < p.2.base + p.2.rows → ((s.core k).row row).st = .stamped →
      s.time - ((s.core k).row row).stamp ≤ min p.2.tag (s.core k).retnUs * 1000 →
      ((u.core k).row row).stamp = s.time ∧ ((u.core k).row row).data = ((s.core k).row row).data := by
  refine ⟨_, rfl, rfl, rfl, fun k p t row hp hparked ht hctx hlo hhi hst hfresh => ?_⟩
  have hcore (f : Core → Core) :
      Tbl.findD (s.cores.map fun (q : Nat × Core) => (q.1, f q.2)) k freshCore = f (s.core k) := by
    have hfind := Tbl.find_map s.cores (fun _ => f) k
    unfold State.core Tbl.findD at *
    rw [hfind]
    cases hk : s.cores.find k with
    | none => simp [hk, freshCore] at hp
    | some c => rfl
  change ((Tbl.findD _ k freshCore).row row).stamp = _ ∧ ((Tbl.findD _ k freshCore).row row).data = _
  rw [hcore fun c => List.foldl _ c (List.filter _ c.bufs)]
  refine Core.renewBufs_row (b := p.2) _ ⟨rfl, rfl, .inl rfl, rfl⟩ ⟨hlo, hhi⟩ hst hfresh (.inl ⟨p.1, ?_⟩)
  exact List.mem_filter.2 ⟨hp, by simp [hparked, ht, hctx]⟩

theorem tensorCreate_outcomes {r : TensorReq} (h : s.dev.st = .ready) (hb : s.arg.body = .tensor r) :
    let c := s.ctx r.ctx
    let size := (tensorFor r 0 0).size
    let n := (size + 262143) / 262144 * 262144
    (tensorBad r = true → Answers .tensorCreate s .badReq []) ∧
    (tensorBad r = false → c.st = .free ∨ c.st = .destroyed → Answers .tensorCreate s .badState []) ∧
    (tensorBad r = false → c.st ≠ .free → c.st ≠ .destroyed →
      ((∀ k < 1024, (c.tensors.find k).isSome) → Answers .tensorCreate s .noSpace []) ∧
      (∀ k < 1024, c.tensors.find k = none → (∀ j < k, (c.tensors.find j).isSome) →
        firstGap n 0 (s.tsUsed r.tower) + n ≤ 2 ^ 36 →
        ∃ (a gen : Nat) (v : List Byte), v = toBytes 4 (k + gen * 2 ^ 24) ∧ 0 < gen ∧ gen < 256 ∧
          Accepts .tensorCreate s v fun u => ∃ x, (u.ctx r.ctx).tensors.find k = some x ∧ x.start = a ∧ x.gen = gen ∧
            x.dims = r.dims ∧ x.esz = r.esz ∧ x.size = size ∧
            (∀ p ∈ s.tsUsed r.tower, a + n ≤ p.1 ∨ p.1 + p.2 ≤ a) ∧
            ∀ j < n, Mem.get (u.tower r.tower).ts (a + j) = 0)) := by
  intro c size n
  have hexec := exec_tensorCreate h hb
  rw [Tensor.span_eq] at hexec
  dsimp only at hexec
  refine ⟨fun hbad => ?_, fun hbad hst => ?_, fun hbad hfree hdes => ?_⟩
  · rw [if_pos hbad] at hexec
    exact answers_of hexec
  all_goals rw [if_neg (by simp [hbad])] at hexec
  · rw [if_pos (by simpa using (CtxSt.alive_eq_false _).2 hst)] at hexec
    exact answers_of hexec
  rw [if_neg (by simpa using (CtxSt.alive_iff _).2 ⟨hfree, hdes⟩)] at hexec
  refine ⟨fun hfull => ?_, fun k hk hnone hsome hroom => ?_⟩
  · rw [Tbl.firstFree_full (by simpa using hfull), if_pos (.inl (by omega))] at hexec
    exact answers_of hexec
  · rw [Tbl.firstFree_eq hnone hsome (Nat.zero_le _) (by omega), if_neg (not_or.2 ⟨not_le.2 hk, not_lt.2 hroom⟩)] at hexec
    obtain ⟨hpos, hlt⟩ := nextGen_pos (c.tensorGen.findD k 0)
    have hsorted : (s.tsUsed r.tower).Pairwise (·.1 ≤ ·.1) := sortBy_sorted _ _
    obtain ⟨-, hclear⟩ := firstGap_clear n hsorted 0
    refine ⟨_, _, _, rfl, hpos, hlt, accepts_of hexec ⟨rfl, rfl, rfl, rfl, rfl, rfl⟩
      ⟨tensorFor r _ _, ?_, rfl, rfl, rfl, rfl, rfl, hclear, fun j hj => ?_⟩⟩
    · rw [State.answer_ctx, State.modTower_ctx, State.ctx_modCtx_self]
      exact Tbl.find_put_self ..
    · rw [State.answer_tower, State.tower_modTower_self]
      exact Mem.get_filter_range _ _ hj

theorem tensorDestroy_outcomes (h : s.dev.st = .ready) :
    let c := s.ctx s.arg.a
    (c.tensors.find s.arg.b = none → Answers .tensorDestroy s .badReq []) ∧
    (∀ x, c.tensors.find s.arg.b = some x → x.destroying = true → Answers .tensorDestroy s .badState []) ∧
    (∀ x, c.tensors.find s.arg.b = some x → x.destroying = false → (∀ p ∈ c.tensors, p.2.destroying = false) →
      (c.tensors.map (·.1)).Pairwise (· < ·) →
      ((∀ p ∈ s.copies, p.2.names s.arg.a s.arg.b = false) → Accepts .tensorDestroy s [] fun u =>
        (u.ctx s.arg.a).tensors.find s.arg.b = none) ∧
      ((∃ p ∈ s.copies, p.2.names s.arg.a s.arg.b = true) → ∃ u, exec .tensorDestroy s = .next u ∧
        u.responses = s.responses ∧ ((u.ctx s.arg.a).tensors.find s.arg.b).map (·.destroying) = some true)) := by
  intro c
  have hexec : exec .tensorDestroy s = execTensorDestroy s := rfl
  unfold execTensorDestroy at hexec
  rw [request_ready h] at hexec
  refine ⟨fun hnone => ?_, fun x hx hd => ?_, fun x hx hd hall hsorted => ?_⟩
  · rw [hnone] at hexec
    exact answers_of hexec
  all_goals
    rw [hx] at hexec
    dsimp only at hexec
  · rw [if_pos hd] at hexec
    exact answers_of hexec
  rw [if_neg (by simp [hd]), reapTensors_one (ts := c.tensors) (by rw [State.ctx_modCtx_self]) rfl hx hsorted hall] at hexec
  refine ⟨fun hnames => ?_, fun ⟨p, hp, hnames⟩ => ?_⟩
  · rw [if_neg (by simpa using hnames)] at hexec
    refine accepts_of hexec ⟨rfl, rfl, rfl, rfl, rfl, rfl⟩ ?_
    rw [State.answer_ctx, State.ctx_modCtx_self, State.ctx_modCtx_self]
    refine Tbl.find_del_self ?_
    rw [(Tbl.put_of_find hsorted hx).1]
    exact hsorted.imp fun h => h.ne
  · rw [if_pos (by simpa using ⟨p.1, p.2, hp, hnames⟩)] at hexec
    exact ⟨_, hexec, rfl, by simp⟩

/-! ## Decode sessions (R368) -/

theorem decodeSessionOpen_outcomes {r : SessionReq} (h : s.dev.st = .ready) (hb : s.arg.body = .session r) :
    let good := r.tower < 4 ∧ r.ctx < 64 ∧ 1 ≤ r.w ∧ r.w ≤ 8192 ∧ 1 ≤ r.h ∧ r.h ≤ 8192 ∧ 0 < r.len ∧ r.va + r.len ≤ 2 ^ 52
    (¬ good → Answers .decodeSessionOpen s .badReq []) ∧
    (good → (s.ctx r.ctx).st ≠ .free → (s.ctx r.ctx).st ≠ .destroyed →
      ((∀ k < 64, ((s.tower r.tower).sessions.find k).isSome) → Answers .decodeSessionOpen s .tooMany []) ∧
      (∀ k < 64, (s.tower r.tower).sessions.find k = none → (∀ j < k, ((s.tower r.tower).sessions.find j).isSome) →
        Accepts .decodeSessionOpen s [BitVec.ofNat 8 k] fun u => (u.tower r.tower).sessions.find k =
          some { ctx := r.ctx, hevc := r.hevc, tenBit := r.tenBit, va := r.va, len := r.len, w := r.w, h := r.h })) := by
  intro good
  have hexec : exec .decodeSessionOpen s = execDecodeSessionOpen s := rfl
  unfold execDecodeSessionOpen at hexec
  rw [request_ready h, hb] at hexec
  dsimp only at hexec
  refine ⟨fun hg => ?_, fun hg hfree hdes => ?_⟩
  · rw [if_pos (by omega)] at hexec
    exact answers_of hexec
  rw [if_neg (by omega), if_neg (by simpa using (CtxSt.alive_iff _).2 ⟨hfree, hdes⟩)] at hexec
  refine ⟨fun hfull => ?_, fun k hk hnone hsome => ?_⟩
  · rw [Tbl.firstFree_full (by simpa using hfull), if_pos (by omega)] at hexec
    exact answers_of hexec
  · rw [Tbl.firstFree_eq hnone hsome (Nat.zero_le _) (by omega), if_neg (not_le.2 hk)] at hexec
    have hbytes : toBytes 1 k = [BitVec.ofNat 8 k] := by simp [toBytes]
    rw [hbytes] at hexec
    refine accepts_of hexec ⟨rfl, rfl, rfl, rfl, rfl, rfl⟩ ?_
    rw [State.answer_tower, State.tower_modTower_self]
    exact Tbl.find_put_self ..

theorem decodeSessionClose_outcomes (h : s.dev.st = .ready) :
    ((s.tower s.arg.a).sessions.find s.arg.b = none → Answers .decodeSessionClose s .badReq []) ∧
    (((s.tower s.arg.a).sessions.find s.arg.b).isSome → ((s.tower s.arg.a).sessions.map (·.1)).Nodup →
      Accepts .decodeSessionClose s [] fun u => (u.tower s.arg.a).sessions.find s.arg.b = none) := by
  have hexec : exec .decodeSessionClose s = execDecodeSessionClose s := rfl
  unfold execDecodeSessionClose at hexec
  rw [request_ready h] at hexec
  refine ⟨fun hnone => ?_, fun hsome hkeys => ?_⟩
  · rw [if_pos (by simp [hnone])] at hexec
    exact answers_of hexec
  · rw [if_neg (by simpa [← Option.isSome_iff_ne_none] using hsome)] at hexec
    refine accepts_of hexec ⟨rfl, rfl, rfl, rfl, rfl, rfl⟩ ?_
    rw [State.answer_tower, State.tower_modTower_self]
    exact Tbl.find_del_self hkeys

end Requests

/-- Settles O48: each clause is the outcome of its request or event. -/
theorem contextServices : Obligations.ContextServices := by
  unfold Obligations.ContextServices
  exact ⟨fun _ _ h hb => profileWrite_outcomes h hb, fun _ _ h hb => contextCreate_outcomes h hb,
    fun _ _ h hb hc => ctxcfgSet_outcomes h hb hc, fun _ h => contextDestroy_outcomes h, contextReleased_outcomes,
    parkTimeout_outcomes, parkRenewal_outcomes, fun _ _ h hb => tensorCreate_outcomes h hb,
    fun _ h => tensorDestroy_outcomes h, fun _ _ h hb => decodeSessionOpen_outcomes h hb,
    fun _ h => decodeSessionClose_outcomes h⟩

end Sys2Proof.Machine
end
